-- ==== Sys2Proof/Word.lean ====
section
/-! DEFINITION. The plain word types of the D-2432 model (spec 00_scope.md, R4): bit vectors where
the manual treats a value as bits. Bit-field and byte helpers live in Machine/Bits.lean. -/

namespace Sys2Proof

/-- A 64-bit register, CSR, general-register value or register-window word. -/
abbrev Word := BitVec 64

/-- A 32-bit word: an instruction word, an FP32 pattern, an INT32 segment. -/
abbrev Word32 := BitVec 32

/-- One byte of memory or of a structure in memory. -/
abbrev Byte := BitVec 8

/-- A register number: general g0–g31 (R301) or vector v0–v31 (R337). -/
abbrev Reg := BitVec 5

/-- A mask-register number m0–m7 (R337). -/
abbrev MReg := BitVec 3

end Sys2Proof
end

