-- ==== Sys2Proof/Syntax.lean ====
section
/-! DEFINITION. The commands of the D-2432: one constructor of `Instr` per row of spec/opcode_table.json, and
the operand types the rows need. The table gives no operand fields; an operand holds what the row's rule lets the
event differ in (log 1). A polder is named by its number `p`, a compute die by its number, a descriptor by its
index `i` in the running recipe. -/

namespace Sys2Proof

/-- A host command as its ring performs it: the ring and the header fields of Table 15-3. -/
structure CmdHdr where
  ring : Nat
  pol : Nat
  cookie : Nat
  deriving DecidableEq, Repr

/-- The register fields of an OUT (Table 9-3), with the access size. -/
structure OutOp where
  gd : Reg
  ga : Reg
  gb : Reg
  dbl : Bool
  deriving DecidableEq, Repr

/-- The register fields of an IN (Table 9-3), with the access size. -/
structure InOp where
  gd : Reg
  ga : Reg
  disp : BitVec 16
  dbl : Bool
  deriving DecidableEq, Repr

/-- Which path carries a register write: REGW (or Reeve) in the window, host RDMA in the window, the lead core's OUT. -/
inductive WritePath where
  | regw
  | rdma
  | core (p : Nat)
  deriving DecidableEq, Repr

/-- Which path carries a LOG_READ (R579): a ring command or the sideband. -/
inductive LogPath where
  | host (h : CmdHdr)
  | sideband
  deriving DecidableEq, Repr

/-- A peer on the wire: its MAC and IP addresses (R501, R503). -/
structure HostAddr where
  mac : Nat
  ip : Nat
  deriving DecidableEq, Repr

/-- Where an SPDM message came from: a peer over Ethernet while binding (R499, R500) or the sideband (R575). -/
inductive SpdmPath where
  | port (from_ : HostAddr)
  | sideband
  deriving DecidableEq, Repr

/-- The four values that key a coalescing window (R535). -/
structure WindowKey where
  code : Nat
  die : Nat
  unit : Nat
  addr : Nat
  deriving DecidableEq, Repr

/-- Who made a memory request, the rows of Table 12-3. -/
inductive Requester where
  | descriptor (p i : Nat)
  | descUpdate (p i : Nat)
  | core (p : Nat)
  | coreAtomic (p : Nat)
  | vector (p elem : Nat)
  | ring (r : Nat)
  | hostRead (conn : Nat)
  | hostWrite (conn : Nat)
  | walker (p : Nat)
  | reeve
  deriving DecidableEq, Repr

/-- A request at its home: issuing die (SRC encoding of Table 3-2), requester, requester class (Table 2-7),
physical address and length, within one atom; for a core the virtual address and the word of its instruction; the DT units since it was issued
(R482), and whether its response stays outstanding (RESPONSE accepts it) or is accepted with this command. -/
structure MemReq where
  src : Nat
  req : Requester
  cls : Nat
  pa : Nat
  len : Nat
  va : Nat
  inst : Word32
  age : Nat
  held : Bool
  deriving DecidableEq, Repr

/-- One memory-side update of consecutive elements of one atom (R425, R426). -/
structure MemUpdate where
  pa : Nat
  op : Nat
  fmt : Nat
  elems : List Word
  cmp : Word
  tag : Nat
  deriving DecidableEq, Repr

/-- An unordered update on its way (R118); `age` and `held` as those of a request. -/
structure UpdateMsg where
  upd : MemUpdate
  age : Nat
  held : Bool
  deriving DecidableEq, Repr

/-- An ordered-update window (R111): the adder's die, the polder, the descriptor and its sub-operation. -/
structure UpdWindow where
  adder : Nat
  p : Nat
  i : Nat
  sub : Nat
  src : Nat
  deriving DecidableEq, Repr

/-- A translation request (R430, Table 13-1): space 0 polder, 1 core D, 2 core I; access 1 read, 2 write, 4 fetch; `half2`: the upper half of a
split access of the core (R313). -/
structure XlatReq where
  cd : Nat
  p : Nat
  space : Nat
  asid : Nat
  va : Nat
  access : Nat
  user : Bool
  req : Requester
  cls : Nat
  half2 : Bool := false
  deriving DecidableEq, Repr

/-- A hub reduction (R109, R473): the hub, the polder, the descriptor, the segment, with operation, format and length. -/
structure RedKey where
  hub : Nat
  p : Nat
  i : Nat
  seg : Nat
  op : Nat
  fmt : Nat
  deriving DecidableEq, Repr

/-- A flit as it arrives (R462): sequence number and acknowledgement (the next one that its sender lacks), the other nine bytes of its header, its
256 B of payload and its CRC. -/
structure Flit where
  seq : Nat
  ack : Nat
  rest : List Byte
  payload : List Byte
  crc : Nat
  deriving DecidableEq, Repr

/-- One direction of a fabric link (R462): `back` is the one towards the die that its number belongs to. -/
structure LinkSide where
  link : Nat
  back : Bool
  deriving DecidableEq, Repr

/-- How an attempt to train the port ended (R488, R612): whether it trained and the receive lanes found inverted. -/
structure PortTraining where
  ok : Bool
  inverted : Byte
  deriving DecidableEq, Repr

/-- What a received Ethernet frame carries (R487–R490); `roceOpcode`: a request of an opcode that Table 15-2 does not list. -/
inductive FrameKind where
  | pause8023x
  | pfc
  | arp
  | neighbour
  | icmpEcho
  | roce (conn : Nat) (ce : Bool)
  | roceOpcode (conn : Nat) (ce : Bool)
  | other
  deriving DecidableEq, Repr

/-- A received Ethernet frame as the port judges it (R489). -/
structure Frame where
  len : Nat
  tags : Nat
  fcsOk : Bool
  from_ : HostAddr
  kind : FrameKind
  deriving DecidableEq, Repr

/-- A connection request on QP1 (R491, R492): `service` 0 is Reliable Connection. -/
structure ConnReq where
  index : Nat
  service : Nat
  from_ : HostAddr
  pathMtu : Nat
  dscp : Nat
  prio : Nat
  retry : Nat
  ackTimeout : Nat
  deriving DecidableEq, Repr

/-- A unit the kiln pass tests (R548, R550): its type of Table 17-5, die and index; type 13 is an array, 14 a hub
adder, 15 a memory-side adder. -/
structure KilnUnit where
  type : Nat
  die : Nat
  index : Nat
  deriving DecidableEq, Repr

/-- What the boot steps of Table 19-9 find outside the model's knowledge: which links and stacks train, whether
every FM die does, which port mode trains first and on which lanes polarity is inverted, and how long the steps took. -/
structure BootResult where
  linksDown : List Nat
  stacksOut : List Nat
  fmOk : Bool
  mode : Nat
  inverted : Byte
  ms : Nat
  straps : BitVec 2
  cool : BitVec 3
  deriving DecidableEq, Repr

/-- The fields of a format-V instruction (Table 10-4): S is FUNC[6] where the table has .S forms. -/
structure VOp where
  s : Bool
  vm : Bool
  mreg : MReg
  vd : Reg
  va : Reg
  vb : Reg
  deriving DecidableEq, Repr

/-- The commands: one constructor per row of spec/opcode_table.json, in the table's order. -/
inductive Instr where
  /-- REGISTER_WRITE (R10). -/
  | registerWrite (path : WritePath) (addr : Nat) (value : Word)
  /-- NOP (R512). -/
  | nop (h : CmdHdr)
  /-- REGW (R512). -/
  | regw (h : CmdHdr) (off : Nat) (value : Word)
  /-- BS_LOAD (R74). -/
  | bsLoad (h : CmdHdr) (pa len : Nat)
  /-- LOAD_ZEROING_DONE (R78). -/
  | loadZeroingDone
  /-- BS_READBACK (R67). -/
  | bsReadback (h : CmdHdr) (hbuf off : Nat)
  /-- BS_FIELD_WRITE (R47). -/
  | bsFieldWrite (h : CmdHdr) (off : Nat) (value : Word)
  /-- BS_FIELD_READ (R51). -/
  | bsFieldRead (h : CmdHdr) (off : Nat) (shadow : Bool)
  /-- BSF_DATA_WRITE (R53). -/
  | bsfDataWrite (p : Nat) (o : OutOp)
  /-- BSF_DATA_READ (R53). -/
  | bsfDataRead (p : Nat) (o : InOp)
  /-- ADMIT (R278). -/
  | admitCmd (h : CmdHdr) (slot va : Nat)
  /-- RCP_ADMIT (R278). -/
  | rcpAdmit (p : Nat) (o : OutOp)
  /-- ADMISSION (R279). -/
  | admission (p : Nat)
  /-- WITHDRAW (R283). -/
  | withdraw (h : CmdHdr) (slot : Nat)
  /-- RCP_WITHDRAW (R283). -/
  | rcpWithdraw (p : Nat) (o : OutOp)
  /-- START (R284). -/
  | start (h : CmdHdr) (slot : Nat) (pb : Option Nat)
  /-- INV_START_WRITE (R284). -/
  | invStartWrite (p : Nat) (o : OutOp)
  /-- INVOCATION_START (R92). -/
  | invocationStart (p : Nat)
  /-- INVOCATION_COMPLETE (R285). -/
  | invocationComplete (p : Nat)
  /-- SLUICE_SET (R272). -/
  | sluiceSet (h : CmdHdr) (sl : Nat)
  /-- SLUICE_CLEAR (R272). -/
  | sluiceClear (h : CmdHdr) (sl : Nat)
  /-- SL_CTL_SET (R272). -/
  | slCtlSet (p : Nat) (o : OutOp)
  /-- SL_CTL_CLEAR (R272). -/
  | slCtlClear (p : Nat) (o : OutOp)
  /-- QUIESCE (R289). -/
  | quiesce (h : CmdHdr)
  /-- QUIESCE_ABORT (R290). -/
  | quiesceAbort (h : CmdHdr)
  /-- QUIESCE_COMPLETE (R289). -/
  | quiesceComplete (p : Nat)
  /-- RESUME (R288). -/
  | resume (h : CmdHdr)
  /-- TT_WRITE (R263). -/
  | ttWrite (h : CmdHdr) (index : Nat) (w0 w1 w2 w3 : Word)
  /-- TT_WINDOW_WRITE (R263). -/
  | ttWindowWrite (p index : Nat) (o : OutOp)
  /-- UPDATE (R513). -/
  | update (h : CmdHdr) (addr op fmt : Nat) (x c : Word)
  /-- XLT_INV (R455). -/
  | xltInv (h : CmdHdr) (scope : Nat) (force : Bool) (asid gen va len : Nat)
  /-- XLT_INV_COMPLETE (R456). -/
  | xltInvComplete (p : Nat)
  /-- XLT_RESUME (R446). -/
  | xltResume (h : CmdHdr) (fid : Nat)
  /-- XLT_RESUME_FAIL (R448). -/
  | xltResumeFail (h : CmdHdr) (fid : Nat)
  /-- UNFREEZE_RESUME (R397). -/
  | unfreezeResume (h : CmdHdr) (master : BitVec 16)
  /-- UNFREEZE_DELIVER (R397). -/
  | unfreezeDeliver (h : CmdHdr) (master : BitVec 16)
  /-- UNFREEZE_RESET (R397). -/
  | unfreezeReset (h : CmdHdr) (master : BitVec 16)
  /-- BREACH_REQ (R390). -/
  | breachReq (h : CmdHdr)
  /-- BREACH_REQUEST_TAKEN (R390). -/
  | breachRequestTaken (p : Nat)
  /-- CORE_START (R328). -/
  | coreStart (h : CmdHdr) (addr : Nat)
  /-- CORE_INT (R380). -/
  | coreInt (h : CmdHdr)
  /-- UNBIND (R504). -/
  | unbind (h : CmdHdr)
  /-- UNDEFINED_COMMAND (R511). -/
  | undefinedCommand (h : CmdHdr) (opc : Nat) (reserved : Bool)
  /-- STORE (R563). -/
  | store (h : CmdHdr) (bs : BitVec 2)
  /-- SET_WRITE (R561). -/
  | setWrite (h : CmdHdr) (type : Nat) (value : List Byte)
  /-- ATTEST (R580). -/
  | attest (h : CmdHdr) (hbuf off : Nat) (nonce : List Byte)
  /-- ID_READ (R566). -/
  | idRead (h : CmdHdr) (hbuf off : Nat)
  /-- OWNER_ENROL (R570). -/
  | ownerEnrol (h : CmdHdr) (pa : Nat)
  /-- OWNER_WITHDRAW (R570). -/
  | ownerWithdraw (h : CmdHdr) (pa : Nat)
  /-- NONCE (R569). -/
  | nonce (h : CmdHdr) (hbuf off : Nat)
  /-- NONCE_EXPIRY (R569). -/
  | nonceExpiry
  /-- FW_UPDATE (R571). -/
  | fwUpdate (h : CmdHdr) (pa len : Nat)
  /-- FW_ACTIVATE (R572). -/
  | fwActivate (h : CmdHdr)
  /-- LOG_READ (R579). -/
  | logRead (path : LogPath) (hbuf off first count : Nat)
  /-- SENSOR_READ (R578). -/
  | sensorRead (h : CmdHdr) (hbuf off : Nat)
  /-- DOORBELL (R508). -/
  | doorbell (imm : Word32)
  /-- RING_COMMAND (R509). -/
  | ringCommand (ring : Nat)
  /-- CPL_CONS_WRITE (R510). -/
  | cplConsWrite (ring : Nat) (value : Word32)
  /-- RING_ENABLE (R520). -/
  | ringEnable (ring : Nat) (value : Word)
  /-- RING_DISABLE (R520). -/
  | ringDisable (ring : Nat) (value : Word)
  /-- EVQ_ENABLE (R520). -/
  | evqEnable (value : Word)
  /-- EVQ_DISABLE (R520). -/
  | evqDisable (value : Word)
  /-- EVQ_CONS_WRITE (R517). -/
  | evqConsWrite (value : Word32)
  /-- COALESCE_WINDOW_END (R535). -/
  | coalesceWindowEnd (w : WindowKey)
  /-- PENDING_ERROR_HANDLE (R538). -/
  | pendingErrorHandle (scope : Nat)
  /-- MATRIX (R254). -/
  | matrix (p i : Nat)
  /-- CHAIN (R238). -/
  | chain (p i : Nat)
  /-- VMAP (R257). -/
  | vmap (p i : Nat)
  /-- VNORM (R257). -/
  | vnorm (p i : Nat)
  /-- VMERGE (R521). -/
  | vmerge (p i : Nat)
  /-- VMERGE_RESCALE (R521). -/
  | vmergeRescale (p i : Nat)
  /-- VMERGE_NORMALISE (R521). -/
  | vmergeNormalise (p i : Nat)
  /-- VSAMPLE (R522). -/
  | vsample (p i : Nat)
  /-- VSAMPLE_INDICES (R524). -/
  | vsampleIndices (p i : Nat)
  /-- VSAMPLE_COMMIT (R526). -/
  | vsampleCommit (p i : Nat)
  /-- VACCEPT (R525). -/
  | vaccept (p i : Nat)
  /-- VCOMPACT_APPEND (R527). -/
  | vcompactAppend (p i : Nat)
  /-- VCOMPACT_MOVE (R527). -/
  | vcompactMove (p i : Nat)
  /-- VCOMPACT_GATHER (R527). -/
  | vcompactGather (p i : Nat)
  /-- MCOPY (R252). -/
  | mcopy (p i : Nat)
  /-- MUPDATE (R258). -/
  | mupdate (p i : Nat)
  /-- MFILL (R252). -/
  | mfill (p i : Nat)
  /-- MEVENT (R518). -/
  | mevent (p i : Nat)
  /-- CALLRED (R109). -/
  | callred (p i : Nat)
  /-- CBCAST (R472). -/
  | cbcast (p i : Nat)
  /-- CGATHER (R472). -/
  | cgather (p i : Nat)
  /-- CHALO (R259). -/
  | chalo (p i : Nat)
  /-- DESCRIPTOR_COMPLETE (R98). -/
  | descriptorComplete (p i : Nat)
  /-- SEQ_STALL (R295). -/
  | seqStall (p queue : Nat)
  /-- POSITION_WAKE (R291). -/
  | positionWake (p pos : Nat)
  /-- POSITION_WAKE_DONE (R294). -/
  | positionWakeDone (p pos : Nat)
  /-- POSITION_SLEEP (R292). -/
  | positionSleep (p pos : Nat) (off : Bool)
  /-- ACCUMULATION_GROUP_CLOSE (R194). -/
  | accumulationGroupClose (p g : Nat)
  /-- ORDERED_UPDATE (R113). -/
  | orderedUpdate (w : UpdWindow) (u : MemUpdate)
  /-- END_MARKER (R112). -/
  | endMarker (w : UpdWindow) (src : Nat)
  /-- UNORDERED_UPDATE (R118). -/
  | unorderedUpdate (req : Requester) (m : UpdateMsg)
  /-- MEMORY_READ (R412). -/
  | memoryRead (r : MemReq)
  /-- MEMORY_WRITE (R402). -/
  | memoryWrite (r : MemReq) (data : List Byte)
  /-- FM_RETIRE (R407). -/
  | fmRetire (pa : Nat)
  /-- FM_RETIRE_COPY_DONE (R408). -/
  | fmRetireCopyDone (pa : Nat)
  /-- STACK_TEMP_SAMPLE (R410). -/
  | stackTempSample (unit : Nat) (milliC : Int)
  /-- NC_FLUSH (R422). -/
  | ncFlush (cd : Nat)
  /-- NC_FLUSH_DONE (R422). -/
  | ncFlushDone (cd : Nat)
  /-- NC_INV (R419). -/
  | ncInv (cd : Nat)
  /-- NC_INV_DONE (R419). -/
  | ncInvDone (cd : Nat)
  /-- NC_ENABLE (R420). -/
  | ncEnable (cd : Nat)
  /-- NC_DISABLE (R421). -/
  | ncDisable (cd : Nat)
  /-- NC_DISABLE_DONE (R421). -/
  | ncDisableDone (cd : Nat)
  /-- LOCAL_WALK (R439). -/
  | localWalk (q : XlatReq)
  /-- CTU_WALK (R436). -/
  | ctuWalk (q : XlatReq)
  /-- WALK_COMPLETE (R442). -/
  | walkComplete (walker : Nat)
  /-- FLIT_RX (R463) in one direction, with the physical lanes that showed a parity error (R464). -/
  | flitRx (link : Nat) (back : Bool) (f : Flit) (lanes : List Nat)
  /-- REPLAY_REQUEST (R464). -/
  | replayRequest (side : LinkSide) (first : Nat)
  /-- LANE_REMAP (R464). -/
  | laneRemap (link : Nat)
  /-- RETRAIN_DONE (R465). -/
  | retrainDone (link : Nat) (ok : Bool)
  /-- HUB_OUT (R469). -/
  | hubOut (hub : Nat)
  /-- ISSUE_BROADCAST (R472). -/
  | issueBroadcast (p : Nat)
  /-- REDUCTION_CONTRIBUTION (R473). -/
  | reductionContribution (k : RedKey) (src : Nat) (data : List Byte)
  /-- REDUCTION_RESULT (R475). -/
  | reductionResult (k : RedKey)
  /-- TAG_GRANT (R480). -/
  | tagGrant (owner : Nat)
  /-- RESPONSE (R483). -/
  | response (owner num gen : Nat)
  /-- TX_TIMEOUT (R481). -/
  | txTimeout (owner num : Nat)
  /-- HIGH_CLR (R486). -/
  | highClr (owner : Nat)
  /-- FRAME_RX (R489). -/
  | frameRx (f : Frame)
  /-- PORT_TRAIN_ATTEMPT (R488). -/
  | portTrainAttempt (r : PortTraining)
  /-- ARP (R490). -/
  | arp (ip : Nat) (from_ : HostAddr)
  /-- NEIGHBOUR_DISCOVERY (R490). -/
  | neighbourDiscovery (ip : Nat) (from_ : HostAddr)
  /-- ICMP_ECHO (R490). -/
  | icmpEcho (from_ : HostAddr) (data : List Byte)
  /-- CM_REQ (R492). -/
  | cmReq (q : ConnReq)
  /-- CM_RTU (R492). -/
  | cmRtu (conn : Nat) (from_ : HostAddr)
  /-- CM_DREQ (R492). -/
  | cmDreq (conn : Nat) (from_ : HostAddr)
  /-- SEND (R492). -/
  | send (conn : Nat) (payload : List Byte)
  /-- SEND_WITH_IMMEDIATE (R507). -/
  | sendWithImmediate (conn : Nat) (payload : List Byte) (imm : Word32)
  /-- RDMA_WRITE (R493). -/
  | rdmaWrite (conn : Nat) (rkey : Word32) (va : Nat) (data : List Byte)
  /-- RDMA_WRITE_WITH_IMMEDIATE (R507). -/
  | rdmaWriteWithImmediate (conn : Nat) (rkey : Word32) (va : Nat) (data : List Byte) (imm : Word32)
  /-- RDMA_READ (R493). -/
  | rdmaRead (conn : Nat) (rkey : Word32) (va len : Nat)
  /-- HOST_ACK (R496). -/
  | hostAck (num : Nat)
  /-- CONNECTION_RETRY_EXHAUSTED (R492). -/
  | connectionRetryExhausted (conn : Nat)
  /-- CNP (R497). -/
  | cnp (conn : Nat)
  /-- RATE_INCREASE (R497). -/
  | rateIncrease (conn : Nat)
  /-- PFC_FRAME (R498). -/
  | pfcFrame (prios pause : Byte)
  /-- PFC_WEIR (R498). -/
  | pfcWeir (prio bytes : Nat)
  /-- GET_VERSION (R500). -/
  | getVersion (from_ : SpdmPath)
  /-- GET_CAPABILITIES (R500). -/
  | getCapabilities (from_ : SpdmPath)
  /-- NEGOTIATE_ALGORITHMS (R500). -/
  | negotiateAlgorithms (from_ : SpdmPath) (ecdsaP256 sha256 : Bool)
  /-- GET_DIGESTS (R500). -/
  | getDigests (from_ : SpdmPath)
  /-- GET_CERTIFICATE (R566). -/
  | getCertificate (from_ : SpdmPath) (slot off len : Nat)
  /-- CHALLENGE (R500). -/
  | challenge (from_ : SpdmPath) (nonce : List Byte)
  /-- BIND_REQ (R500). -/
  | bindReq (from_ : HostAddr)
  /-- BIND (R501). -/
  | bind (from_ : HostAddr) (sig : Option (Nat × Nat)) (mac ip : Nat)
  /-- BIND_TIMEOUT (R502). -/
  | bindTimeout
  /-- GET_MEASUREMENTS (R580). -/
  | getMeasurements (index : Nat) (nonce : List Byte)
  /-- KEY_EXCHANGE (R575). -/
  | keyExchange (ownerAuth : Bool)
  /-- SET_ENDPOINT_ID (R575). -/
  | setEndpointId (eid : Byte)
  /-- MCTP_DISCOVERY (R575). -/
  | mctpDiscovery (query : Nat)
  /-- PLDM_BASE (R575). -/
  | pldmBase (query : Nat)
  /-- GET_SENSOR_READING (R578). -/
  | getSensorReading (id : Nat)
  /-- FORCE_UNBIND (R576). -/
  | forceUnbind (secured : Bool)
  /-- REQUEST_UPDATE (R571). -/
  | requestUpdate (image : List Byte)
  /-- ACTIVATE_FIRMWARE (R572). -/
  | activateFirmware
  /-- SENSOR_SAMPLE (R594). -/
  | sensorSample (id : Nat) (value : Option Int)
  /-- COOL_ID_SAMPLE (R68). -/
  | coolIdSample (code : BitVec 3)
  /-- GOVERNOR_EVALUATION (R590). -/
  | governorEvaluation (milliW : Nat)
  /-- POWER_CLAMP (R590). -/
  | powerClamp (milliW : Nat)
  /-- TIMER (R380). -/
  | timer (p : Nat)
  /-- TIMER_CMP_WRITE (R380). -/
  | timerCmpWrite (p : Nat) (o : OutOp)
  /-- INTERRUPT (R381). -/
  | interrupt (p : Nat)
  /-- STORE_BUFFER_DRAIN (R334). -/
  | storeBufferDrain (p : Nat)
  /-- ADD (R306). -/
  | add (p : Nat) (gd ga gb : Reg)
  /-- SUB (R306). -/
  | sub (p : Nat) (gd ga gb : Reg)
  /-- AND (R306). -/
  | and_ (p : Nat) (gd ga gb : Reg)
  /-- OR (R306). -/
  | or_ (p : Nat) (gd ga gb : Reg)
  /-- XOR (R306). -/
  | xor_ (p : Nat) (gd ga gb : Reg)
  /-- SLL (R306). -/
  | sll (p : Nat) (gd ga gb : Reg)
  /-- SRL (R306). -/
  | srl (p : Nat) (gd ga gb : Reg)
  /-- SRA (R306). -/
  | sra (p : Nat) (gd ga gb : Reg)
  /-- SLT (R306). -/
  | slt (p : Nat) (gd ga gb : Reg)
  /-- SLTU (R306). -/
  | sltu (p : Nat) (gd ga gb : Reg)
  /-- MIN (R306). -/
  | min (p : Nat) (gd ga gb : Reg)
  /-- MAX (R306). -/
  | max (p : Nat) (gd ga gb : Reg)
  /-- MINU (R306). -/
  | minu (p : Nat) (gd ga gb : Reg)
  /-- MAXU (R306). -/
  | maxu (p : Nat) (gd ga gb : Reg)
  /-- ADD_W (R306). -/
  | addW (p : Nat) (gd ga gb : Reg)
  /-- SUB_W (R306). -/
  | subW (p : Nat) (gd ga gb : Reg)
  /-- SLL_W (R306). -/
  | sllW (p : Nat) (gd ga gb : Reg)
  /-- SRL_W (R306). -/
  | srlW (p : Nat) (gd ga gb : Reg)
  /-- SRA_W (R306). -/
  | sraW (p : Nat) (gd ga gb : Reg)
  /-- MUL (R306). -/
  | mul (p : Nat) (gd ga gb : Reg)
  /-- MULH (R306). -/
  | mulh (p : Nat) (gd ga gb : Reg)
  /-- MULHU (R306). -/
  | mulhu (p : Nat) (gd ga gb : Reg)
  /-- DIV (R307). -/
  | div (p : Nat) (gd ga gb : Reg)
  /-- DIVU (R307). -/
  | divu (p : Nat) (gd ga gb : Reg)
  /-- REM (R307). -/
  | rem (p : Nat) (gd ga gb : Reg)
  /-- REMU (R307). -/
  | remu (p : Nat) (gd ga gb : Reg)
  /-- MUL_W (R306). -/
  | mulW (p : Nat) (gd ga gb : Reg)
  /-- DIV_W (R307). -/
  | divW (p : Nat) (gd ga gb : Reg)
  /-- DIVU_W (R307). -/
  | divuW (p : Nat) (gd ga gb : Reg)
  /-- REM_W (R307). -/
  | remW (p : Nat) (gd ga gb : Reg)
  /-- REMU_W (R307). -/
  | remuW (p : Nat) (gd ga gb : Reg)
  /-- CLZ (R306). -/
  | clz (p : Nat) (gd ga : Reg)
  /-- CTZ (R306). -/
  | ctz (p : Nat) (gd ga : Reg)
  /-- POPC (R306). -/
  | popc (p : Nat) (gd ga : Reg)
  /-- PAR (R306). -/
  | par (p : Nat) (gd ga : Reg)
  /-- BREV (R306). -/
  | brev (p : Nat) (gd ga : Reg)
  /-- BSWAP (R306). -/
  | bswap (p : Nat) (gd ga : Reg)
  /-- CLZ_W (R306). -/
  | clzW (p : Nat) (gd ga : Reg)
  /-- CTZ_W (R306). -/
  | ctzW (p : Nat) (gd ga : Reg)
  /-- POPC_W (R306). -/
  | popcW (p : Nat) (gd ga : Reg)
  /-- PAR_W (R306). -/
  | parW (p : Nat) (gd ga : Reg)
  /-- BREV_W (R306). -/
  | brevW (p : Nat) (gd ga : Reg)
  /-- BSWAP_W (R306). -/
  | bswapW (p : Nat) (gd ga : Reg)
  /-- CRC32 (R308). -/
  | crc32 (p : Nat) (gd ga gb : Reg) (sz : BitVec 2)
  /-- CRC32C (R308). -/
  | crc32c (p : Nat) (gd ga gb : Reg) (sz : BitVec 2)
  /-- CRCB (R309). -/
  | crcb (p : Nat) (gd ga gb : Reg)
  /-- CRCB_C (R309). -/
  | crcbC (p : Nat) (gd ga gb : Reg)
  /-- FADD (R311). -/
  | fadd (p : Nat) (single : Bool) (gd ga gb : Reg)
  /-- FSUB (R311). -/
  | fsub (p : Nat) (single : Bool) (gd ga gb : Reg)
  /-- FMUL (R311). -/
  | fmul (p : Nat) (single : Bool) (gd ga gb : Reg)
  /-- FDIV (R311). -/
  | fdiv (p : Nat) (single : Bool) (gd ga gb : Reg)
  /-- FSQRT (R311). -/
  | fsqrt (p : Nat) (single : Bool) (gd ga : Reg)
  /-- FMA (R311). -/
  | fma (p : Nat) (single : Bool) (gd ga gb : Reg)
  /-- FMIN (R311). -/
  | fmin (p : Nat) (single : Bool) (gd ga gb : Reg)
  /-- FMAX (R311). -/
  | fmax (p : Nat) (single : Bool) (gd ga gb : Reg)
  /-- FEQ (R311). -/
  | feq (p : Nat) (single : Bool) (gd ga gb : Reg)
  /-- FLT (R311). -/
  | flt (p : Nat) (single : Bool) (gd ga gb : Reg)
  /-- FLE (R311). -/
  | fle (p : Nat) (single : Bool) (gd ga gb : Reg)
  /-- FNEG (R311). -/
  | fneg (p : Nat) (single : Bool) (gd ga : Reg)
  /-- FABS (R311). -/
  | fabs (p : Nat) (single : Bool) (gd ga : Reg)
  /-- FSGNJ (R311). -/
  | fsgnj (p : Nat) (single : Bool) (gd ga gb : Reg)
  /-- FKIND (R311). -/
  | fkind (p : Nat) (single : Bool) (gd ga : Reg)
  /-- FCVT_F (R311). -/
  | fcvtF (p : Nat) (single : Bool) (gd ga : Reg)
  /-- FCVT_L (R311). -/
  | fcvtL (p : Nat) (single : Bool) (gd ga : Reg)
  /-- FCVT_LZ (R311). -/
  | fcvtLz (p : Nat) (single : Bool) (gd ga : Reg)
  /-- FCVT_WI (R311). -/
  | fcvtWi (p : Nat) (single : Bool) (gd ga : Reg)
  /-- FCVT_WZ (R311). -/
  | fcvtWz (p : Nat) (single : Bool) (gd ga : Reg)
  /-- ICVT (R311). -/
  | icvt (p : Nat) (single : Bool) (gd ga : Reg)
  /-- UCVT (R311). -/
  | ucvt (p : Nat) (single : Bool) (gd ga : Reg)
  /-- ADDI (R304). -/
  | addi (p : Nat) (gd ga : Reg) (imm : BitVec 16)
  /-- ANDI (R304). -/
  | andi (p : Nat) (gd ga : Reg) (imm : BitVec 16)
  /-- ORI (R304). -/
  | ori (p : Nat) (gd ga : Reg) (imm : BitVec 16)
  /-- XORI (R304). -/
  | xori (p : Nat) (gd ga : Reg) (imm : BitVec 16)
  /-- LUI (R304). -/
  | lui (p : Nat) (gd : Reg) (imm : BitVec 16)
  /-- SLTI (R304). -/
  | slti (p : Nat) (gd ga : Reg) (imm : BitVec 16)
  /-- SLLI (R304). -/
  | slli (p : Nat) (gd ga : Reg) (sh : BitVec 6)
  /-- SRLI (R304). -/
  | srli (p : Nat) (gd ga : Reg) (sh : BitVec 6)
  /-- SRAI (R304). -/
  | srai (p : Nat) (gd ga : Reg) (sh : BitVec 6)
  /-- SHORI (R304). -/
  | shori (p : Nat) (gd ga : Reg) (imm : BitVec 16)
  /-- LD_B (R312). -/
  | ldB (p : Nat) (gd ga : Reg) (disp : BitVec 16)
  /-- LD_BU (R312). -/
  | ldBu (p : Nat) (gd ga : Reg) (disp : BitVec 16)
  /-- LD_H (R312). -/
  | ldH (p : Nat) (gd ga : Reg) (disp : BitVec 16)
  /-- LD_HU (R312). -/
  | ldHu (p : Nat) (gd ga : Reg) (disp : BitVec 16)
  /-- LD_W (R312). -/
  | ldW (p : Nat) (gd ga : Reg) (disp : BitVec 16)
  /-- LD_WU (R312). -/
  | ldWu (p : Nat) (gd ga : Reg) (disp : BitVec 16)
  /-- LD_D (R312). -/
  | ldD (p : Nat) (gd ga : Reg) (disp : BitVec 16)
  /-- ST_B (R312). -/
  | stB (p : Nat) (gs ga : Reg) (disp : BitVec 16)
  /-- ST_H (R312). -/
  | stH (p : Nat) (gs ga : Reg) (disp : BitVec 16)
  /-- ST_W (R312). -/
  | stW (p : Nat) (gs ga : Reg) (disp : BitVec 16)
  /-- ST_D (R312). -/
  | stD (p : Nat) (gs ga : Reg) (disp : BitVec 16)
  /-- AMOADD (R315). -/
  | amoadd (p : Nat) (gd ga gb : Reg) (dbl : Bool)
  /-- AMOSWAP (R315). -/
  | amoswap (p : Nat) (gd ga gb : Reg) (dbl : Bool)
  /-- AMOCAS (R315). -/
  | amocas (p : Nat) (gd ga gb : Reg) (dbl : Bool)
  /-- IN_W (R316). -/
  | inW (p : Nat) (gd ga : Reg) (disp : BitVec 16)
  /-- IN_D (R316). -/
  | inD (p : Nat) (gd ga : Reg) (disp : BitVec 16)
  /-- OUT_W (R316). -/
  | outW (p : Nat) (gd ga gb : Reg)
  /-- OUT_D (R316). -/
  | outD (p : Nat) (gd ga gb : Reg)
  /-- BEQ (R320). -/
  | beq (p : Nat) (ga gb : Reg) (off : BitVec 16)
  /-- BNE (R320). -/
  | bne (p : Nat) (ga gb : Reg) (off : BitVec 16)
  /-- BLT (R320). -/
  | blt (p : Nat) (ga gb : Reg) (off : BitVec 16)
  /-- BGE (R320). -/
  | bge (p : Nat) (ga gb : Reg) (off : BitVec 16)
  /-- BLTU (R320). -/
  | bltu (p : Nat) (ga gb : Reg) (off : BitVec 16)
  /-- BGEU (R320). -/
  | bgeu (p : Nat) (ga gb : Reg) (off : BitVec 16)
  /-- JMP (R320). -/
  | jmp (p : Nat) (off : BitVec 26)
  /-- CALL (R320). -/
  | call (p : Nat) (off : BitVec 26)
  /-- JR (R320). -/
  | jr (p : Nat) (ga : Reg)
  /-- CALLR (R320). -/
  | callr (p : Nat) (gd ga : Reg)
  /-- CSRR (R323). -/
  | csrr (p : Nat) (gd : Reg) (csr : BitVec 12)
  /-- CSRW (R323). -/
  | csrw (p : Nat) (gd ga : Reg) (csr : BitVec 12)
  /-- CSRS (R323). -/
  | csrs (p : Nat) (gd ga : Reg) (csr : BitVec 12)
  /-- CSRC (R323). -/
  | csrc (p : Nat) (gd ga : Reg) (csr : BitVec 12)
  /-- SYNC_C (R326). -/
  | syncC (p : Nat)
  /-- SYNC_I (R320). -/
  | syncI (p : Nat)
  /-- FENCE (R336). -/
  | fence (p : Nat)
  /-- WAIT (R320). -/
  | wait (p : Nat)
  /-- RFE (R386). -/
  | rfe (p : Nat)
  /-- TRAP (R320). -/
  | trap (p : Nat) (code : Reg)
  /-- DC_INV (R320). -/
  | dcInv (p : Nat) (ga : Reg)
  /-- DC_INVALL (R320). -/
  | dcInvall (p : Nat)
  /-- RESERVED_OPCODE (R305). -/
  | reservedOpcode (p : Nat) (word : Word32)
  /-- MLDS (R175). -/
  | mlds (p : Nat) (gm gb : Reg)
  /-- MSTREAM (R175). -/
  | mstream (p : Nat) (gm ga : Reg)
  /-- MMA8 (R175). -/
  | mma8 (p : Nat) (gm ga gb : Reg)
  /-- SETVL (R341). -/
  | setvl (p : Nat) (gd ga : Reg) (imm : BitVec 16)
  /-- VFADD (R351). -/
  | vfadd (p : Nat) (o : VOp)
  /-- VFSUB (R351). -/
  | vfsub (p : Nat) (o : VOp)
  /-- VFMUL (R351). -/
  | vfmul (p : Nat) (o : VOp)
  /-- VFDIV (R351). -/
  | vfdiv (p : Nat) (o : VOp)
  /-- VFSQRT (R351). -/
  | vfsqrt (p : Nat) (o : VOp)
  /-- VFMA (R351). -/
  | vfma (p : Nat) (o : VOp)
  /-- VFNMA (R351). -/
  | vfnma (p : Nat) (o : VOp)
  /-- VFMIN (R351). -/
  | vfmin (p : Nat) (o : VOp)
  /-- VFMAX (R351). -/
  | vfmax (p : Nat) (o : VOp)
  /-- VFEQ (R351). -/
  | vfeq (p : Nat) (o : VOp)
  /-- VFLT (R351). -/
  | vflt (p : Nat) (o : VOp)
  /-- VFLE (R351). -/
  | vfle (p : Nat) (o : VOp)
  /-- VFNEG (R351). -/
  | vfneg (p : Nat) (o : VOp)
  /-- VFABS (R351). -/
  | vfabs (p : Nat) (o : VOp)
  /-- VFSGNJ (R351). -/
  | vfsgnj (p : Nat) (o : VOp)
  /-- VFKIND (R351). -/
  | vfkind (p : Nat) (o : VOp)
  /-- VADD (R352). -/
  | vadd (p : Nat) (o : VOp)
  /-- VSUB (R352). -/
  | vsub (p : Nat) (o : VOp)
  /-- VMUL (R352). -/
  | vmul (p : Nat) (o : VOp)
  /-- VMULH (R352). -/
  | vmulh (p : Nat) (o : VOp)
  /-- VMULHU (R352). -/
  | vmulhu (p : Nat) (o : VOp)
  /-- VAND (R352). -/
  | vand (p : Nat) (o : VOp)
  /-- VOR (R352). -/
  | vor (p : Nat) (o : VOp)
  /-- VXOR (R352). -/
  | vxor (p : Nat) (o : VOp)
  /-- VSLL (R352). -/
  | vsll (p : Nat) (o : VOp)
  /-- VSRL (R352). -/
  | vsrl (p : Nat) (o : VOp)
  /-- VSRA (R352). -/
  | vsra (p : Nat) (o : VOp)
  /-- VMIN (R352). -/
  | vmin (p : Nat) (o : VOp)
  /-- VMAX (R352). -/
  | vmax (p : Nat) (o : VOp)
  /-- VMINU (R352). -/
  | vminu (p : Nat) (o : VOp)
  /-- VMAXU (R352). -/
  | vmaxu (p : Nat) (o : VOp)
  /-- VSADD (R352). -/
  | vsadd (p : Nat) (o : VOp)
  /-- VSSUB (R352). -/
  | vssub (p : Nat) (o : VOp)
  /-- VSADDU (R352). -/
  | vsaddu (p : Nat) (o : VOp)
  /-- VSSUBU (R352). -/
  | vssubu (p : Nat) (o : VOp)
  /-- VMSEQ (R352). -/
  | vmseq (p : Nat) (o : VOp)
  /-- VMSLT (R352). -/
  | vmslt (p : Nat) (o : VOp)
  /-- VMSLTU (R352). -/
  | vmsltu (p : Nat) (o : VOp)
  /-- VSEL (R352). -/
  | vsel (p : Nat) (o : VOp)
  /-- VMV (R352). -/
  | vmv (p : Nat) (o : VOp)
  /-- VLD (R353). -/
  | vld (p : Nat) (o : VOp)
  /-- VLDS (R353). -/
  | vlds (p : Nat) (o : VOp)
  /-- VLDX (R353). -/
  | vldx (p : Nat) (o : VOp)
  /-- VLDFF (R359). -/
  | vldff (p : Nat) (o : VOp)
  /-- VLDG (R360). -/
  | vldg (p : Nat) (o : VOp)
  /-- VLDM (R355). -/
  | vldm (p : Nat) (o : VOp)
  /-- VST (R353). -/
  | vst (p : Nat) (o : VOp)
  /-- VSTS (R353). -/
  | vsts (p : Nat) (o : VOp)
  /-- VSTX (R356). -/
  | vstx (p : Nat) (o : VOp)
  /-- VSTG (R360). -/
  | vstg (p : Nat) (o : VOp)
  /-- VSTM (R355). -/
  | vstm (p : Nat) (o : VOp)
  /-- VPERM (R349). -/
  | vperm (p : Nat) (o : VOp)
  /-- VSLIDEUP (R349). -/
  | vslideup (p : Nat) (o : VOp)
  /-- VSLIDEDN (R349). -/
  | vslidedn (p : Nat) (o : VOp)
  /-- VCOMPRESS (R349). -/
  | vcompress (p : Nat) (o : VOp)
  /-- VIOTA (R349). -/
  | viota (p : Nat) (o : VOp)
  /-- VRED_ADD (R364). -/
  | vredAdd (p : Nat) (o : VOp)
  /-- VRED_MIN (R364). -/
  | vredMin (p : Nat) (o : VOp)
  /-- VRED_MAX (R364). -/
  | vredMax (p : Nat) (o : VOp)
  /-- VRED_MINU (R364). -/
  | vredMinu (p : Nat) (o : VOp)
  /-- VRED_MAXU (R364). -/
  | vredMaxu (p : Nat) (o : VOp)
  /-- VSCAN_ADD (R365). -/
  | vscanAdd (p : Nat) (o : VOp)
  /-- VSCAN_MIN (R365). -/
  | vscanMin (p : Nat) (o : VOp)
  /-- VSCAN_MAX (R365). -/
  | vscanMax (p : Nat) (o : VOp)
  /-- VSCAN_MINU (R365). -/
  | vscanMinu (p : Nat) (o : VOp)
  /-- VSCAN_MAXU (R365). -/
  | vscanMaxu (p : Nat) (o : VOp)
  /-- VMAND (R349). -/
  | vmand (p : Nat) (o : VOp)
  /-- VMOR (R349). -/
  | vmor (p : Nat) (o : VOp)
  /-- VMXOR (R349). -/
  | vmxor (p : Nat) (o : VOp)
  /-- VMANDN (R349). -/
  | vmandn (p : Nat) (o : VOp)
  /-- VPOPC (R350). -/
  | vpopc (p : Nat) (o : VOp)
  /-- VFIRST (R350). -/
  | vfirst (p : Nat) (o : VOp)
  /-- VRED_FADD (R364). -/
  | vredFadd (p : Nat) (o : VOp)
  /-- VRED_FMIN (R364). -/
  | vredFmin (p : Nat) (o : VOp)
  /-- VRED_FMAX (R364). -/
  | vredFmax (p : Nat) (o : VOp)
  /-- VSCAN_FADD (R365). -/
  | vscanFadd (p : Nat) (o : VOp)
  /-- VSCAN_FMIN (R365). -/
  | vscanFmin (p : Nat) (o : VOp)
  /-- VSCAN_FMAX (R365). -/
  | vscanFmax (p : Nat) (o : VOp)
  /-- REDUCTION_RESULT_RETURN (R350). -/
  | reductionResultReturn (p : Nat)
  /-- VEXP (R367). -/
  | vexp (p : Nat) (o : VOp)
  /-- VLOG (R367). -/
  | vlog (p : Nat) (o : VOp)
  /-- VRSQRT (R367). -/
  | vrsqrt (p : Nat) (o : VOp)
  /-- VTANH (R367). -/
  | vtanh (p : Nat) (o : VOp)
  /-- VERF (R367). -/
  | verf (p : Nat) (o : VOp)
  /-- VSIGM (R367). -/
  | vsigm (p : Nat) (o : VOp)
  /-- VSILU (R367). -/
  | vsilu (p : Nat) (o : VOp)
  /-- VGELU (R367). -/
  | vgelu (p : Nat) (o : VOp)
  /-- VCVT_F (R369). -/
  | vcvtF (p : Nat) (o : VOp)
  /-- VCVT_FS (R369). -/
  | vcvtFs (p : Nat) (o : VOp)
  /-- VCVT_I (R369). -/
  | vcvtI (p : Nat) (o : VOp)
  /-- VCVT_IZ (R369). -/
  | vcvtIz (p : Nat) (o : VOp)
  /-- VCVT_U (R369). -/
  | vcvtU (p : Nat) (o : VOp)
  /-- VCVT_UZ (R369). -/
  | vcvtUz (p : Nat) (o : VOp)
  /-- VQMX (R370). -/
  | vqmx (p : Nat) (o : VOp)
  /-- VDQMX (R371). -/
  | vdqmx (p : Nat) (o : VOp)
  /-- VPOPW (R372). -/
  | vpopw (p : Nat) (o : VOp)
  /-- VPOPW_NB (R373). -/
  | vpopwNb (p : Nat) (o : VOp)
  /-- VPUSHW (R374). -/
  | vpushw (p : Nat) (o : VOp)
  /-- VMV_X (R350). -/
  | vmvX (p : Nat) (o : VOp)
  /-- VMV_S (R343). -/
  | vmvS (p : Nat) (o : VOp)
  /-- VWAIT (R346). -/
  | vwait (p : Nat)
  /-- KILN_STEP (R547). -/
  | kilnStep (u : KilnUnit) (step got again : Nat)
  /-- KILN_PREEMPT (R549). -/
  | kilnPreempt (u : KilnUnit)
  /-- SCRUB (R552). -/
  | scrub (pa : Nat)
  /-- KILN_LATE (R554). -/
  | kilnLate
  /-- KILN_ENABLE (R555). -/
  | kilnEnable (value : Word)
  /-- KILN_DISABLE (R555). -/
  | kilnDisable (value : Word)
  /-- ROW_REPAIR (R546). -/
  | rowRepair (cd row : Nat)
  /-- DIE_SWAP (R546). -/
  | dieSwap (cd die : Nat)
  /-- WAY_SWAP (R546). -/
  | waySwap (cd way : Nat)
  /-- SPARE_SWAP (R542). -/
  | spareSwap (cd : Nat)
  /-- SPARE_COPY_DONE (R543). -/
  | spareCopyDone (cd : Nat)
  /-- INPUT_UNDERVOLTAGE (R585). -/
  | inputUndervoltage
  /-- INPUT_OVERVOLTAGE (R585). -/
  | inputOvervoltage
  /-- INPUT_RESTORED (R585). -/
  | inputRestored
  /-- PRSNT_N_DEBOUNCED (R586). -/
  | prsntNDebounced
  /-- POWER_GOOD (R586). -/
  | powerGood
  /-- REMOVAL (R587). -/
  | removal
  /-- RST_N_RELEASE (R613). -/
  | rstNRelease (lowNs : Nat)
  /-- COLD_RESET (R607). -/
  | coldReset (cause : Nat)
  /-- WARM_RESET (R632). -/
  | warmReset (cause : Nat)
  /-- POLDER_RESET (R604). -/
  | polderReset (p : Nat)
  /-- CORE_RESET (R328). -/
  | coreReset (p : Nat)
  /-- BOOT (R607). -/
  | boot (r : BootResult)
  /-- PORT_LINK_DOWN (R488). -/
  | portLinkDown
  /-- RST_N_ASSERT (R613). -/
  | rstNAssert
  /-- TAP_INSTRUCTION (R624). -/
  | tapInstruction (code : Nat)
  /-- PACKAGE_SELF_REFRESH (R597). -/
  | packageSelfRefresh (pkg : Nat)
  /-- STORE_COMPLETE (R565). -/
  | storeComplete (ok : Bool)
  /-- FW_WRITTEN_VERIFIED (R571). -/
  | fwWrittenVerified (ok : Bool)
  /-- POLDER_RESET_COMPLETE (R604). -/
  | polderResetComplete (p : Nat)
  /-- ROW_COPY_COMPLETE (R541). -/
  | rowCopyComplete (cd row : Nat)
  deriving DecidableEq, Repr

end Sys2Proof
end

