-- ==== Sys2Proof/Config.lean ====
section
/-! DEFINITION. What an implementation fixes and the manual leaves open: opaque constants and functions
without a body, so that no proof can rest on their values. Each is named in a row of notes/assumptions. -/

namespace Sys2Proof.Config

/-- Fresh free values (log 3): word `n` of an endless supply; `State.free` counts those used. -/
opaque freeWord : Nat → Word

/-- A fresh 32 B random value (KEYCHK's source, R501; nonces, R500 and R569). -/
opaque freeBytes : Nat → List Byte

/-- R367: which of the codes within its bound the transcendental `fn` of Table 10-11 gives for an operand of a format. -/
opaque transcErr : (fn fmt x : Nat) → Nat

/-- R324: does an edge of a die's ACLK fall in a unit of DT. -/
opaque aclkEdge : (die dt : Nat) → Bool

/-- The vendor's ECDSA P-256 public key (R72, R571): x and y. -/
opaque vendorKey : Nat × Nat

/-- The identity public key of this module (R566): x and y. -/
opaque identityKey : Nat × Nat

/-- A signature (r, s) by the identity key over a digest (R500, R580); ECDSA draws a random value, so a count keys it. -/
opaque identitySign : (n : Nat) → (digest : List Byte) → Nat × Nat

/-- The three certificates of the identity area in DER form, root first (R566). -/
opaque certChain : List Byte

/-- The module's 64-bit serial number (R566). -/
opaque serial : Nat

/-- The module's MAC address (R490, R566). -/
opaque macAddress : Nat

/-- The bytes of the MG boot ROM, which M_ROM measures (R573). -/
opaque bootRom : List Byte

/-- The factory firmware image, which M_FW measures (R573). -/
opaque factoryFw : List Byte

/-- The signature that the firmware image expects of a kiln step (R547). -/
opaque kilnExpected : (step : Nat) → Nat

/-- The reply of a TAP data register the manual does not lay out (R624). -/
opaque tapData : Nat → Word

/-- The UUID the sideband reports in MCTP discovery (R575). -/
opaque mctpUuid : List Byte

/-- A free choice; its user reduces it below the number of possibilities (R479, R627). -/
opaque pick : Nat → Nat

/-- The tag number and generation in the record of a transaction that ended with TX_LINK before it held a modelled tag (R485, Table 14-8). -/
opaque lostTag : Nat → Nat

/-- The DRAM row, numbered within its stack or package, that holds a physical address (R546): the manual gives no row geometry. -/
opaque dramRow : Nat → Nat

/-- The DRAM die of its stack that holds a row (R546). -/
opaque dramDie : (row : Nat) → Nat

/-- CHALO (Table 8-6): whether the first COUNT bytes of the outgoing planes go to the next CD of the ring, and whether the first COUNT bytes
of the incoming planes come from it; the manual does not lay the two directions out. -/
opaque haloOutNext : Bool
opaque haloInNext : Bool

/-- The way of its set that a data-cache line takes (R332): the manual names no replacement rule for the core's caches. -/
opaque dcVictim : (n : Nat) → Nat

/-- What the signature of BIND covers (R500): the nonce and the peer's MAC and IP addresses, in a layout that the manual does not give. -/
opaque bindDigest : (nonce : List Byte) → (mac ip : Nat) → List Byte

/-- What the signature of a CHALLENGE response covers (R500): SPDM's transcript, keyed by the requester's nonce. -/
opaque challengeDigest : (nonce : List Byte) → List Byte

end Sys2Proof.Config
end

