-- ==== Sys2Proof/Machine/Bits.lean ====
section
/-! DEFINITION. Bit fields, byte strings and sign extension over plain numbers: the layouts of the spec's tables
give bits as [high:low], with bit 0 the least significant, and every multi-byte value is little-endian (R4, R5). -/

namespace Sys2Proof.Machine

/-- Bits [lo+n-1:lo] of `w`. -/
def bits (w lo n : Nat) : Nat := (w >>> lo) % 2 ^ n

/-- Bit `i` of `w`. -/
def bit (w i : Nat) : Bool := bits w i 1 == 1

/-- 1 for true, 0 for false. -/
def b2n (b : Bool) : Nat := if b then 1 else 0

/-- `w` with bits [lo+n-1:lo] replaced by the low `n` bits of `v`. -/
def setBits (w lo n v : Nat) : Nat := w - bits w lo n <<< lo + (v % 2 ^ n) <<< lo

/-- Bits [lo+n-1:lo] of a 64-bit word. -/
def fld (w : Word) (lo n : Nat) : Nat := bits w.toNat lo n

/-- A number as a 64-bit word, modulo 2^64. -/
def toW (n : Nat) : Word := BitVec.ofNat 64 n

/-- An integer as a 64-bit word, modulo 2^64. -/
def toWi (i : Int) : Word := BitVec.ofInt 64 i

/-- The low `n` bits of `v` as a two's complement integer. -/
def sext (n v : Nat) : Int :=
  let x := v % 2 ^ n
  if 2 * x < 2 ^ n then (x : Int) else (x : Int) - (2 ^ n : Nat)

/-- An integer reduced to `n` bits. -/
def toBits (n : Nat) (i : Int) : Nat := (i % ((2 ^ n : Nat) : Int)).toNat

/-- The `n` little-endian bytes of `v`. -/
def bytesLE : Nat → Nat → List Byte
  | 0, _ => []
  | n + 1, v => BitVec.ofNat 8 v :: bytesLE n (v / 256)

/-- The number whose little-endian bytes are given. -/
def natLE : List Byte → Nat
  | [] => 0
  | b :: bs => b.toNat + 256 * natLE bs

/-- The number whose big-endian bytes are given. -/
def natBE (bs : List Byte) : Nat := natLE bs.reverse

/-- The `n` big-endian bytes of `v`. -/
def bytesBE (n v : Nat) : List Byte := (bytesLE n v).reverse

/-- Bytes [off, off+n) of a byte string, zero where the string ends. -/
def slice (bs : List Byte) (off n : Nat) : List Byte :=
  let t := (bs.drop off).take n
  t ++ List.replicate (n - t.length) 0

/-- The `n`-byte little-endian value at `off` of a byte string. -/
def leAt (bs : List Byte) (off n : Nat) : Nat := natLE (slice bs off n)

/-- `bs` with `new` written at `off` (within its length). -/
def splice (bs : List Byte) (off : Nat) (new : List Byte) : List Byte :=
  bs.take off ++ new ++ bs.drop (off + new.length)

/-- The 64-bit words of a byte string, in order. -/
def wordsOf : Nat → List Byte → List Word
  | 0, _ => []
  | n + 1, bs => toW (natLE (bs.take 8)) :: wordsOf n (bs.drop 8)

/-- The bit positions set in the low `n` bits of `v`, ascending. -/
def setBitsOf (n v : Nat) : List Nat := (List.range n).filter (bit v)

/-- The number with the bits of a list set. -/
def maskOf (l : List Nat) : Nat := l.foldl (fun m i => m ||| 1 <<< i) 0

/-- Bits of `v` set among the low `n`. -/
def popcount (n v : Nat) : Nat := (setBitsOf n v).length

/-- Reverse of the low `n` bits. -/
def revBits (n v : Nat) : Nat := maskOf ((setBitsOf n v).map fun i => n - 1 - i)

/-- Chunks of `n` of a list, `k` of them. -/
def chunks {α : Type} (n : Nat) : Nat → List α → List (List α)
  | 0, _ => []
  | k + 1, l => l.take n :: chunks n k (l.drop n)

/-- `xs` with position `i` replaced. -/
def setAt {α : Type} (xs : List α) (i : Nat) (x : α) : List α := xs.set i x

/-- The value rounded up to a multiple of `a`. -/
def alignUp (v a : Nat) : Nat := (v + a - 1) / a * a

/-- A sublist of numbers in a range. -/
def span (lo n : Nat) : List Nat := (List.range n).map (lo + ·)

/-- One bit step of the reflected CRC (R308). -/
def crcBit (poly c : Nat) : Nat := if c % 2 = 1 then (c >>> 1) ^^^ poly else c >>> 1

/-- One byte of the reflected CRC. -/
def crcByte (poly c b : Nat) : Nat :=
  let c := c ^^^ b
  crcBit poly (crcBit poly (crcBit poly (crcBit poly (crcBit poly (crcBit poly (crcBit poly (crcBit poly c)))))))

/-- crc_step over a byte string (R308, R309). -/
def crcBytes (poly c : Nat) (bs : List Byte) : Nat := bs.foldl (fun c b => crcByte poly c b.toNat) c

def polyCrc32 : Nat := 0xEDB88320
def polyCrc32c : Nat := 0x82F63B78

end Sys2Proof.Machine
end

