-- ==== Sys2Proof/Machine/Fp.lean ====
section
/-! DEFINITION. Number formats (chapter 4): decoding to exact values, rounding once, the arithmetic of the scalar core,
vector slice, arrays and adders, comparisons, and conversions. A format is named by its code of Table 2-6: 0 FP64,
1 FP32, 2 FP16, 3 BF16, 4 E4M3, 5 E5M2, 6 E2M3, 7 E3M2, 8 E2M1, 9 MXINT8, 10 INT8, 11 UINT8, 12 INT4, 13 UINT4,
14 INT32, 15 INT64. Flags are the low five bits of FPCTL (Table 4-4): 16 NV, 8 DZ, 4 OF, 2 UF, 1 NX. -/

namespace Sys2Proof.Machine

/-- The exact value of an encoding: a NaN (signalling or not), an infinity, or `(-1)^neg * m * 2^e`. -/
inductive FVal where
  | nan (sig : Bool)
  | inf (neg : Bool)
  | fin (neg : Bool) (m : Nat) (e : Int)
  deriving DecidableEq, Repr

/-- A code and the flags raised with it. -/
structure FRes where
  v : Nat
  fl : Nat
  deriving DecidableEq, Repr

/-- Exponent bits of an IEEE-style or MX element format (Tables 4-1 and 4-5). -/
def fExp : Nat → Nat
  | 0 => 11 | 1 => 8 | 2 => 5 | 3 => 8 | 4 => 4 | 5 => 5 | 6 => 2 | 7 => 3 | _ => 2

/-- Fraction bits of a floating format (Tables 4-1 and 4-5). -/
def fFrac : Nat → Nat
  | 0 => 52 | 1 => 23 | 2 => 10 | 3 => 7 | 4 => 3 | 5 => 2 | 6 => 3 | 7 => 2 | _ => 1

/-- Bits of one element of a format. -/
def fBits : Nat → Nat
  | 0 => 64 | 1 => 32 | 2 => 16 | 3 => 16 | 4 => 8 | 5 => 8 | 6 => 6 | 7 => 6 | 8 => 4 | 9 => 8 | 10 => 8 | 11 => 8
  | 12 => 4 | 13 => 4 | 14 => 32 | _ => 64

/-- An MX format: its elements share a scale byte (R146). -/
def fIsMx (f : Nat) : Bool := 4 ≤ f && f ≤ 9

/-- An IEEE-style format. -/
def fIsIeee (f : Nat) : Bool := f ≤ 3

/-- An integer format that is not MX. -/
def fIsInt (f : Nat) : Bool := 10 ≤ f

/-- A signed integer format (R143). -/
def fSigned (f : Nat) : Bool := f ≠ 11 && f ≠ 13

def fBias (f : Nat) : Int := 2 ^ (fExp f - 1) - 1

/-- The exponent of the smallest normal. -/
def fEmin (f : Nat) : Int := 1 - fBias f

/-- The code of +Inf of an IEEE-style format (Table 4-2). -/
def fInf (f : Nat) : Nat := (2 ^ fExp f - 1) <<< fFrac f

/-- The canonical NaN of an IEEE-style format (Table 4-2). -/
def fNan (f : Nat) : Nat := fInf f + 2 ^ (fFrac f - 1)

/-- The sign bit's weight. -/
def fSign (f : Nat) : Nat := 2 ^ (fExp f + fFrac f)

/-- The value of an IEEE-style encoding (R125, R126). -/
def fDec (f x : Nat) : FVal :=
  let neg := bit x (fExp f + fFrac f)
  let ex := bits x (fFrac f) (fExp f)
  let fr := x % 2 ^ fFrac f
  if ex = 2 ^ fExp f - 1 then
    if fr = 0 then .inf neg else .nan (!bit x (fFrac f - 1))
  else if ex = 0 then .fin neg fr (fEmin f - fFrac f)
  else .fin neg (2 ^ fFrac f + fr) (fEmin f - fFrac f + (ex - 1 : Nat))

/-- `m * 2^e` as a multiple of `2^q`, rounded in mode `rm` (Table 4-3) for a value of the given sign, and whether exact. -/
def roundAt (rm : Nat) (neg : Bool) (m : Nat) (e q : Int) : Nat × Bool :=
  if q ≤ e then (m <<< (e - q).toNat, true)
  else
    let k := (q - e).toNat
    let n := m >>> k
    let r := m % 2 ^ k
    let up := match rm with
      | 0 => decide (2 * r > 2 ^ k) || (decide (2 * r = 2 ^ k) && n % 2 == 1)
      | 1 => false
      | 2 => neg && r ≠ 0
      | _ => !neg && r ≠ 0
    (if up then n + 1 else n, r == 0)

/-- The result of an overflow (R140), or the largest finite value where `sat` is set (R155). -/
def fOver (f rm : Nat) (sat neg : Bool) : Nat :=
  let sg := if neg then fSign f else 0
  let toInf := match rm with
    | 0 => true
    | 1 => false
    | 2 => neg
    | _ => !neg
  if toInf && !sat then sg + fInf f else sg + fInf f - 1

/-- Round an exact finite value into an IEEE-style format (R126, R127, R138, R140): underflow is tininess after rounding. -/
def fRoundS (f rm : Nat) (sat neg : Bool) (m : Nat) (e : Int) : FRes :=
  let sg := if neg then fSign f else 0
  if m = 0 then ⟨sg, 0⟩
  else
    let top := e + Nat.log2 m
    let q0 := top - fFrac f
    let qmin := fEmin f - fFrac f
    let q := max q0 qmin
    let (n, ex) := roundAt rm neg m e q
    let code := n + (q - qmin).toNat <<< fFrac f
    let (u, _) := roundAt rm neg m e q0
    let tiny := if u ≥ 2 ^ (fFrac f + 1) then top + 1 < fEmin f else top < fEmin f
    if code ≥ fInf f then ⟨fOver f rm sat neg, 5⟩
    else ⟨sg + code, if ex then 0 else if tiny then 3 else 1⟩

/-- Rounding without saturation. -/
def fRound (f rm : Nat) (neg : Bool) (m : Nat) (e : Int) : FRes := fRoundS f rm false neg m e

/-- Encode a value that is NaN, infinite or finite; a signalling NaN raises NV (R129). -/
def fEnc (f rm : Nat) (sat : Bool) : FVal → FRes
  | .nan sig => ⟨fNan f, if sig then 16 else 0⟩
  | .inf neg => ⟨(if neg then fSign f else 0) + fInf f, 0⟩
  | .fin neg m e => fRoundS f rm sat neg m e

def FVal.isNan : FVal → Bool
  | .nan _ => true
  | _ => false

def FVal.isSnan : FVal → Bool
  | .nan s => s
  | _ => false

def FVal.isZero : FVal → Bool
  | .fin _ m _ => m == 0
  | _ => false

def FVal.neg : FVal → FVal
  | .nan s => .nan s
  | .inf n => .inf !n
  | .fin n m e => .fin (!n) m e

def FVal.sgn : FVal → Bool
  | .nan _ => false
  | .inf n => n
  | .fin n _ _ => n

/-- The signed significand of a finite value at exponent `e0 ≤ e`. -/
def sigAt (neg : Bool) (m : Nat) (e e0 : Int) : Int :=
  let v : Int := (m <<< (e - e0).toNat : Nat)
  if neg then -v else v

/-- The exact sum of two values with the zero signs of R131; an invalid sum of infinities is a signalling NaN, so that NV is raised. -/
def FVal.add (rm : Nat) : FVal → FVal → FVal
  | .nan a, .nan b => .nan (a || b)
  | .nan a, _ => .nan a
  | _, .nan b => .nan b
  | .inf a, .inf b => if a = b then .inf a else .nan true
  | .inf a, _ => .inf a
  | _, .inf b => .inf b
  | .fin na ma ea, .fin nb mb eb =>
    let e := min ea eb
    let s := sigAt na ma ea e + sigAt nb mb eb e
    if s = 0 then .fin (if na = nb then na else rm == 2) 0 e else .fin (decide (s < 0)) s.natAbs e

/-- The exact product (R131); zero times infinity is invalid. -/
def FVal.mul : FVal → FVal → FVal
  | .nan a, .nan b => .nan (a || b)
  | .nan a, _ => .nan a
  | _, .nan b => .nan b
  | .inf a, .inf b => .inf (a != b)
  | .inf a, .fin b m _ => if m = 0 then .nan true else .inf (a != b)
  | .fin a m _, .inf b => if m = 0 then .nan true else .inf (a != b)
  | .fin na ma ea, .fin nb mb eb => .fin (na != nb) (ma * mb) (ea + eb)

/-- Compare two values that are not NaN: less, equal, greater as -1, 0, 1. -/
def FVal.cmp : FVal → FVal → Int
  | .inf a, .inf b => if a = b then 0 else if a then -1 else 1
  | .inf a, _ => if a then -1 else 1
  | _, .inf b => if b then 1 else -1
  | .fin na ma ea, .fin nb mb eb =>
    let e := min ea eb
    let d := sigAt na ma ea e - sigAt nb mb eb e
    if d < 0 then -1 else if d = 0 then 0 else 1
  | _, _ => 0

/-- Addition, subtraction and multiplication rounded once (R138). -/
def fAdd (f rm a b : Nat) : FRes := fEnc f rm false ((fDec f a).add rm (fDec f b))
def fSub (f rm a b : Nat) : FRes := fEnc f rm false ((fDec f a).add rm (fDec f b).neg)
def fMul (f rm a b : Nat) : FRes := fEnc f rm false ((fDec f a).mul (fDec f b))

/-- a × b + c rounded once (R311). An Inf × 0 product raises NV even with a quiet NaN addend (R172). -/
def fMulAdd (f rm a b c : Nat) : FRes :=
  let x := (fDec f a).mul (fDec f b)
  let z := fDec f c
  if x.isNan || z.isNan then fEnc f rm false (.nan (x.isSnan || z.isSnan)) else fEnc f rm false (x.add rm z)

/-- Division: finite nonzero by zero raises DZ (Table 4-4), 0/0 and Inf/Inf are invalid. -/
def fDiv (f rm a b : Nat) : FRes :=
  match fDec f a, fDec f b with
  | .nan s, .nan t => fEnc f rm false (.nan (s || t))
  | .nan s, _ => fEnc f rm false (.nan s)
  | _, .nan t => fEnc f rm false (.nan t)
  | .inf _, .inf _ => fEnc f rm false (.nan true)
  | .inf s, .fin t _ _ => fEnc f rm false (.inf (s != t))
  | .fin s _ _, .inf t => fEnc f rm false (.fin (s != t) 0 0)
  | .fin s m e, .fin t m' e' =>
    if m' = 0 then
      if m = 0 then fEnc f rm false (.nan true)
      else { fEnc f rm false (.inf (s != t)) with fl := 8 }
    else
      let k := fFrac f + 3 + Nat.log2 m'
      let q := (m <<< k) / m'
      let r := (m <<< k) % m'
      fRound f rm (s != t) (2 * q + b2n (r ≠ 0)) (e - e' - k - 1)

/-- Integer square root from bit `k` down. -/
def isqrtFrom : Nat → Nat → Nat → Nat
  | 0, _, r => r
  | k + 1, n, r =>
    let t := r + 2 ^ k
    isqrtFrom k n (if t * t ≤ n then t else r)

/-- The integer square root. -/
def isqrt (n : Nat) : Nat := isqrtFrom (Nat.log2 n / 2 + 1) n 0

/-- Square root of a positive finite value, as a significand with a sticky low bit. -/
def sqrtFin (f rm m : Nat) (e : Int) : FRes :=
  let k := 2 * fFrac f + 8
  let sh : Nat := k + (if (e - k) % 2 = 0 then 0 else 1)
  let n := m <<< sh
  let r := isqrt n
  fRound f rm false (2 * r + b2n (r * r ≠ n)) ((e - sh) / 2 - 1)

/-- Square root; −0 gives −0, any other negative operand is invalid (R131, IEEE 754). -/
def fSqrt (f rm a : Nat) : FRes :=
  match fDec f a with
  | .nan s => fEnc f rm false (.nan s)
  | .inf n => if n then fEnc f rm false (.nan true) else fEnc f rm false (.inf false)
  | .fin n m e => if m = 0 then fEnc f rm false (.fin n 0 0) else if n then fEnc f rm false (.nan true) else sqrtFin f rm m e

/-- Maximum and minimum of codes (R135). -/
def fMaxMin (isMax : Bool) (f a b : Nat) : Nat :=
  let x := fDec f a
  let y := fDec f b
  if x.isNan && y.isNan then fNan f
  else if x.isNan then b
  else if y.isNan then a
  else if x.isZero && y.isZero then
    if isMax then (if !x.sgn || !y.sgn then 0 else fSign f) else (if x.sgn || y.sgn then fSign f else 0)
  else if isMax then (if x.cmp y = 1 then a else b) else (if x.cmp y = -1 then a else b)

/-- NV where an operand is a signalling NaN (R129, R136). -/
def fSnanFlag (f a b : Nat) : Nat := if (fDec f a).isSnan || (fDec f b).isSnan then 16 else 0

/-- Comparisons (R134): 0 equal, 1 less-than, 2 less-or-equal; the result bit and the flags. -/
def fCmp (f kind a b : Nat) : FRes :=
  let x := fDec f a
  let y := fDec f b
  if x.isNan || y.isNan then ⟨0, if kind = 0 then fSnanFlag f a b else 16⟩
  else
    let c := x.cmp y
    ⟨b2n (match kind with | 0 => c == 0 | 1 => c == -1 | _ => c ≠ 1), 0⟩

/-- The kind of an encoding (Table 9-5): 0 zero, 1 subnormal, 2 normal, 3 infinity, 4 quiet NaN, 5 signalling NaN; bit 3 the sign bit. -/
def fKind (f a : Nat) : Nat :=
  let k := match fDec f a with
    | .nan s => if s then 5 else 4
    | .inf _ => 3
    | .fin _ m _ => if m = 0 then 0 else if m < 2 ^ fFrac f then 1 else 2
  k + 8 * b2n (bit a (fExp f + fFrac f))

/-- Round a finite value to an integer in a mode. -/
def toIntR (rm : Nat) (neg : Bool) (m : Nat) (e : Int) : Int × Bool :=
  let (n, ex) := roundAt rm neg m e 0
  (if neg then -(n : Int) else n, ex)

/-- Conversion of a value to an integer in [lo, hi] (R155): NaN gives 0, out of range saturates; NV alone, else NX when inexact.
The second component is the flags. -/
def fToInt (rm : Nat) (lo hi : Int) : FVal → Int × Nat
  | .nan _ => (0, 16)
  | .inf n => (if n then lo else hi, 16)
  | .fin neg m e =>
    let (v, ex) := toIntR rm neg m e
    if v < lo then (lo, 16) else if hi < v then (hi, 16) else (v, if ex then 0 else 1)

/-- The range of a signed or unsigned integer of `n` bits. -/
def intLo (signed : Bool) (n : Nat) : Int := if signed then -(2 ^ (n - 1) : Nat) else 0
def intHi (signed : Bool) (n : Nat) : Int := if signed then (2 ^ (n - 1) : Nat) - 1 else (2 ^ n : Nat) - 1

/-- An integer as an exact value; 0 is +0 (R133). -/
def ofInt (i : Int) : FVal := .fin (decide (i < 0)) i.natAbs 0

/-- Conversion between IEEE-style formats (Table 4-7). -/
def fConv (src dst rm : Nat) (sat : Bool) (x : Nat) : FRes := fEnc dst rm sat (fDec src x)

/-- The ranking order of R137 as an integer key: NaN lowest, −Inf, ..., −0, +0, ..., +Inf. -/
def fRank32 (x : Nat) : Int :=
  match fDec 1 x with
  | .nan _ => -(2 ^ 33 : Nat)
  | _ => if bit x 31 then -((x % 2 ^ 31 : Nat) : Int) - 1 else (x % 2 ^ 31 : Nat)

/-! ### MX elements (R146–R154) -/

/-- Largest code of an MX floating element format, sign aside (Table 4-5 maxnorm). -/
def mxMaxCode : Nat → Nat
  | 4 => 0x7E | 5 => 0x7B | 6 => 0x1F | 7 => 0x1F | _ => 7

/-- emax of Table 4-5. -/
def mxEmax : Nat → Int
  | 4 => 8 | 5 => 15 | 6 => 2 | 7 => 4 | 8 => 2 | _ => 0

/-- The element value alone of an MX code, before its scale. -/
def mxElem (f x : Nat) : FVal :=
  if f = 9 then
    let v := sext 8 x
    .fin (decide (v < 0)) v.natAbs (-6)
  else
    let neg := bit x (fExp f + fFrac f)
    let mag := x % 2 ^ (fExp f + fFrac f)
    if f = 4 && mag == 0x7F then .nan false
    else if f = 5 && mag == 0x7C then .inf neg
    else if f = 5 && 0x7C < mag then .nan false
    else
      let ex := mag >>> fFrac f
      let fr := mag % 2 ^ fFrac f
      if ex = 0 then .fin neg fr (fEmin f - fFrac f) else .fin neg (2 ^ fFrac f + fr) (fEmin f - fFrac f + (ex - 1 : Nat))

/-- The value of an MX element with its scale byte (R146). -/
def mxDec (f scale x : Nat) : FVal :=
  if scale = 0xFF then .nan false
  else match mxElem f x with
    | .fin n m e => .fin n m (e + scale - 127)
    | v => v

/-- Round `y = ±m * 2^e` to an MX element code, nearest even, saturating (R152, R153); NX and OF as R152 raises them. -/
def mxEnc (f : Nat) (neg : Bool) (m : Nat) (e : Int) : FRes :=
  if f = 9 then
    let (n, ex) := roundAt 0 neg m e (-6)
    let c := min n 127
    let big := (FVal.fin false m e).cmp (.fin false 127 (-6)) == 1
    ⟨toBits 8 (if neg then -(c : Int) else c), b2n (!ex || c ≠ n) + 4 * b2n big⟩
  else
    let sg := if neg then fSign f else 0
    if m = 0 then ⟨sg, 0⟩
    else
      let q := max (e + Nat.log2 m - fFrac f) (fEmin f - fFrac f)
      let (n, ex) := roundAt 0 neg m e q
      let code := n + (q - (fEmin f - fFrac f)).toNat <<< fFrac f
      let big := (FVal.fin false m e).cmp (mxElem f (mxMaxCode f)) == 1
      ⟨sg + min code (mxMaxCode f), b2n (!ex || decide (mxMaxCode f < code)) + 4 * b2n big⟩

/-- A quantised block: scale byte, element codes, flags. -/
structure MxBlock where
  scale : Nat
  elems : List Nat
  fl : Nat
  deriving DecidableEq, Repr

/-- Is `m * 2^e ≤ maxnorm * 2^s` for an MX format (MXINT8: 127 × 2^−6). -/
def mxFits (f m : Nat) (e s : Int) : Bool :=
  (FVal.fin false m (e - s)).cmp (mxElem f (if f = 9 then 127 else mxMaxCode f)) ≠ 1

/-- The scale exponent of R152 for an amax of `m * 2^e > 0`: rule 0 aligns exponents, rule 1 is the smallest that fits. -/
def mxScale (f rule m : Nat) (e : Int) : Int :=
  let s0 := e + Nat.log2 m - mxEmax f
  let s := if rule = 0 then s0 else if mxFits f m e s0 then s0 else s0 + 1
  min (max s (-127)) 127

/-- The largest magnitude of finite values as significand and exponent. -/
def amaxOf : List FVal → Nat × Int
  | [] => (0, 0)
  | .fin _ m e :: t =>
    let r := amaxOf t
    if (FVal.fin false m e).cmp (.fin false r.1 r.2) = 1 then (m, e) else r
  | _ :: t => amaxOf t

/-- Quantise one block of FP32 values (R152). -/
def mxQuantise (f rule : Nat) (xs : List Nat) : MxBlock :=
  let vs := xs.map (fDec 1)
  if vs.any fun v => match v with | .fin _ _ _ => false | _ => true then ⟨0xFF, xs.map fun _ => 0, 16⟩
  else
    let a := amaxOf vs
    let s := if a.1 = 0 then (-127 : Int) else mxScale f rule a.1 a.2
    let rs := vs.map fun v => match v with | .fin n m e => mxEnc f n m (e - s) | _ => ⟨0, 0⟩
    ⟨(s + 127).toNat, rs.map (·.v), rs.foldl (fun fl r => fl ||| r.fl) 0⟩

/-- The exact value of an element code of any format; `scale` is used by MX formats only. -/
def elemVal (f scale x : Nat) : FVal :=
  if fIsIeee f then fDec f x
  else if fIsMx f then mxDec f scale x
  else ofInt (if fSigned f then sext (fBits f) x else (x % 2 ^ fBits f : Nat))

/-- An element code of any format as FP32, rounded nearest even (Table 4-7). -/
def elemToFp32 (f scale x : Nat) : FRes := fEnc 1 0 false (elemVal f scale x)

/-- A value to an element code of a format other than MX (Table 4-7). -/
def elemOf (f rm : Nat) (sat : Bool) (v : FVal) : FRes :=
  if fIsIeee f then fEnc f rm sat v
  else
    let r := fToInt rm (intLo (fSigned f) (fBits f)) (intHi (fSigned f) (fBits f)) v
    ⟨toBits (fBits f) r.1, r.2⟩

end Sys2Proof.Machine
end

