-- ==== Sys2Proof/Machine/Transc.lean ====
section
/-! DEFINITION. The transcendental functions of R367: their exactly rounded values, which fixed-point arithmetic finds from series, and the
codes within the bound of Table 10-11. -/

namespace Sys2Proof.Machine

/-! ### Fixed point: an integer stands for a multiple of 2^−512 -/

def fxP : Nat := 512
def fxOne : Int := 2 ^ fxP
def fxMul (a b : Int) : Int := a * b / fxOne
def fxDiv (a b : Int) : Int := a * fxOne / b

/-- `m × 2^e`, cut at 2^−512. -/
def fxOf (neg : Bool) (m : Nat) (e : Int) : Int :=
  let k := e + fxP
  let v : Int := if 0 ≤ k then m * 2 ^ k.toNat else m / (2 ^ (-k).toNat : Nat)
  if neg then -v else v

/-- 1 + r + r²/2 + …, from term `n`, which is `t`. -/
def expSeries (r : Int) : Nat → Nat → Int → Int
  | 0, _, _ => 0
  | fuel + 1, n, t => t + expSeries r fuel (n + 1) (fxMul t r / (n + 1 : Nat))

/-- y + y³/3 + y⁵/5 + …, its terms' signs alternating where `alt`; `t` is y to the power 2n + 1. -/
def atanSeries (sq : Int) (alt : Bool) : Nat → Nat → Int → Int
  | 0, _, _ => 0
  | fuel + 1, n, t => t / (2 * n + 1 : Nat) + (if alt then -1 else 1) * atanSeries sq alt fuel (n + 1) (fxMul t sq)

/-- y − y³/3 + y⁵/(2!·5) − …; `t` is y to the power 2n + 1 over n!. -/
def erfSeries (sq : Int) : Nat → Nat → Int → Int
  | 0, _, _ => 0
  | fuel + 1, n, t => t / (2 * n + 1 : Nat) - erfSeries sq fuel (n + 1) (fxMul t sq / (n + 1 : Nat))

/-- atanh y, and atan y, for |y| ≤ 1/3. -/
def fxAtanh (y : Int) : Int := atanSeries (fxMul y y) false 170 0 y
def fxAtan (y : Int) : Int := atanSeries (fxMul y y) true 170 0 y

/-- ln 2, π and √π. -/
def fxLn2 : Int := 2 * fxAtanh (fxOne / 3)
def fxPi : Int := 16 * fxAtan (fxOne / 5) - 4 * fxAtan (fxOne / 239)
def fxSqrt (v : Int) : Int := Nat.sqrt (v.toNat * 2 ^ fxP)

/-- e^x as `a × 2^(k − 512)`. -/
def fxExp2 (x : Int) : Int × Int :=
  let k := (2 * x / fxLn2 + 1) / 2
  (expSeries (x - k * fxLn2) 110 0 fxOne, k)

/-- e^x at fixed point, for x of moderate size. -/
def fxExp (x : Int) : Int :=
  let (a, k) := fxExp2 x
  if 0 ≤ k then a * 2 ^ k.toNat else a / (2 ^ (-k).toNat : Nat)

/-- The error function for |x| ≤ 11. -/
def fxErf (x : Int) : Int := fxDiv (2 * erfSeries (fxMul x x) 700 0 x) (fxSqrt fxPi)

/-- Bring a value into [−b, b]. -/
def fxClamp (b x : Int) : Int := max (-b) (min b x)

/-! ### Exactly rounded values -/

/-- The code nearest a fixed-point value, zero with a given sign. -/
def fxCode (f : Nat) (neg : Bool) (v : Int) : FRes := fRound f 0 neg v.natAbs (-fxP)

/-- The exactly rounded result of function `fn` of Table 10-11 on a finite operand for which the table states no value. Beyond the ranges that
arguments are brought into, the results round as at their ends. -/
def transcRef (fn f : Nat) (neg : Bool) (m : Nat) (e : Int) : FRes :=
  let top : Int := e + Nat.log2 m
  let big := fun (b : Nat) => decide ((b : Int) ≤ top)
  let x := if big 12 then (if neg then -4096 * fxOne else 4096 * fxOne) else fxOf neg m e
  let sigm := fun (x : Int) => fxDiv fxOne (fxOne + fxExp (-x))
  match fn with
  | 0 =>
    let (a, k) := fxExp2 x
    fRound f 0 false a.toNat (k - fxP)
  | 1 =>
    let y := fxOf false m (-(Nat.log2 m : Int))
    let v := top * fxLn2 + 2 * fxAtanh (fxDiv (y - fxOne) (y + fxOne))
    fxCode f (decide (v < 0)) v
  | 2 =>
    let (m, e) := if e % 2 = 0 then (m, e) else (2 * m, e - 1)
    fRound f 0 false (Nat.sqrt (2 ^ 1024 / m)) (-e / 2 - 512)
  | 3 =>
    let t := fxExp (2 * fxClamp (100 * fxOne) x)
    fxCode f neg (fxDiv (t - fxOne) (t + fxOne))
  | 4 => fxCode f neg (fxErf (fxClamp (6 * fxOne) x))
  | 5 => fxCode f false (sigm (fxClamp (200 * fxOne) x))
  | 6 => if big 7 && !neg then fRound f 0 neg m e else fxCode f neg (fxMul (fxClamp (200 * fxOne) x) (sigm (fxClamp (200 * fxOne) x)))
  | _ =>
    if big 4 && !neg then fRound f 0 neg m e
    else
      let y := fxClamp (15 * fxOne) x
      fxCode f neg (fxMul y (fxOne + fxErf (fxDiv y (fxSqrt (2 * fxOne)))) / 2)

/-! ### The bound (R367) -/

/-- The bound of a function in units in the last place. -/
def transcUlp : Nat → Nat
  | 0 => 1 | 1 => 1 | 2 => 1 | 7 => 4 | _ => 2

/-- The magnitude of a finite code as a multiple of the smallest subnormal. -/
def codeMag (f c : Nat) : Nat :=
  match fDec f c with
  | .fin _ m e => m <<< (e - (fEmin f - fFrac f)).toNat
  | _ => 0

/-- One unit in the last place of a finite code, as a multiple of the smallest subnormal. -/
def codeUlp (f c : Nat) : Nat := 2 ^ (max 1 (bits c (fFrac f) (fExp f)) - 1)

/-- Is a code of the sign of the exactly rounded result `r` within the bound, GELU's wider one included, of an operand of magnitude `x`. -/
def transcNear (fn f r x c : Nat) : Bool :=
  let d := (codeMag f c - codeMag f r) + (codeMag f r - codeMag f c)
  c % fSign f < fInf f && c / fSign f == r / fSign f &&
    (d ≤ transcUlp fn * codeUlp f r || (fn == 7 && d * 2 ^ 24 ≤ codeMag f x))

/-- The codes that the bound can reach lie within this many of the exactly rounded one: a power of two has twice as many codes below it. -/
def transcReach (fn : Nat) : Nat := if fn = 7 then 2 ^ 32 else 2 * transcUlp fn

/-- The result: the implementation's code within the bound of the exactly rounded one (log 3); VEXP that overflows gives +Inf and raises OF. -/
def transcFinite (fn f x : Nat) (neg : Bool) (m : Nat) (e : Int) : FRes :=
  let r := (transcRef fn f neg m e).v
  if r % fSign f = fInf f then ⟨r, if fn = 0 then 4 else 0⟩
  else
    let c := r + Config.transcErr fn f x % (2 * transcReach fn + 1) - transcReach fn
    ⟨if transcNear fn f r x c then c else r, 0⟩

end Sys2Proof.Machine
end

