-- ==== Sys2Proof/Machine/State.lean ====
section
/-! DEFINITION. The state of the D-2432 as plain data: every register, memory, queue, counter, mode and pin the
spec gives it, the model's own fields named as such, and the state after a cold reset. Accessors, bit layouts and
every operation stand in the other files of Machine/. Tables are association lists sorted by key that list no
default value (Machine/Tbl.lean), so equal tables are equal data. -/

namespace Sys2Proof.Machine

/-- No meaning of this model ends in a fault: the spec gives every row an effect, and a violation, a NAK or a
refusal status is a next state. The type is closed and empty. -/
inductive Fault where
  deriving DecidableEq, Repr

/-- Refusals. `notModelled` is raised by an arm of Dispatch whose command has no meaning yet (safe: the model
stops); no arm raises it now. -/
inductive Refusal where
  | notModelled (mnemonic : String)
  deriving DecidableEq, Repr

/-- A sparse table: keys strictly rising, no entry equal to the table's default. -/
abbrev Tbl (α : Type) := List (Nat × α)

/-- Bytes of a memory: addresses strictly rising, no zero byte listed; an unlisted address reads 0 (log 4). -/
abbrev Memory := List Host.Cell

/-- A logical stamp (R90, Table 3-2). -/
structure LS where
  inv : Nat
  desc : Nat
  sub : Nat
  src : Nat
  ext : Bool
  pol : Nat
  deriving DecidableEq, Repr

/-- A 64 B record (R533, Table 17-2): common fields and the 32 bytes of its code. -/
structure Record where
  dt : Nat
  ls : LS
  code : Nat
  cls : Nat
  preempted : Bool
  escalated : Bool
  die : Nat
  seq : Nat
  count : Nat
  unit : Nat
  body : List Byte
  deriving DecidableEq, Repr

/-! ### The Phiro bit-stream (chapter 2) -/

/-- The fields of one POLDER section in effect (R55, Table 2-5). -/
structure PolderSec where
  lead : Nat
  members : BitVec 24
  vslots : Nat
  formats : BitVec 16
  sluices : Nat
  ttEntries : Nat
  placeDefault : Nat
  fuseStages : Nat
  fuseGrist : Nat
  fuseCask : Nat
  wdogStall : Nat
  waymask : List (BitVec 16)
  deriving DecidableEq, Repr

/-- The fields of the ETHERNET section (R64, Table 2-9). -/
structure EthSec where
  speed : Nat
  mtu : Nat
  pfcEn : Bool
  pfcPrio : Byte
  deriving DecidableEq, Repr

/-- Device-scope bit-stream state: the image as received, DEVICE, TAGS and ETHERNET fields, PHIRO_STATE (Table
2-13) and the COOL_ID samples (R68, R70). `loading` is the ring command whose zeroing runs (R78), `affects` the polders that load affects
(R605). -/
structure Phiro where
  loaded : Bool
  image : List Byte
  loadCount : Nat
  lastStatus : Nat
  busy : Bool
  loading : Option CmdHdr
  affects : List Nat
  profile : Nat
  txnTimeout : Nat
  sliceOwner : Tbl Nat
  tags : List Nat
  eth : EthSec
  ethLoaded : EthSec
  coolId : BitVec 3
  missRun : Nat
  hitRun : Nat
  forced : Bool
  deriving DecidableEq, Repr

/-! ### Compute dies, stacks and the near cache (chapters 1, 12, 17) -/

/-- The spare map of one CD (Table 2-10) with the units marked unusable (R541); persistent (R544). -/
structure SpareMap where
  posCl : List Nat
  badCl : List Nat
  core : Nat
  badCore : List Nat
  wayOut : Nat
  badWay : List Nat
  dieOut : Nat
  badDie : List Nat
  laneOut : List Nat
  badLane : List Nat
  gristOut : List Nat
  badGrist : List Nat
  out : Bool
  deriving DecidableEq, Repr

/-- Power state of a cluster position (Table 19-6). -/
inductive PosState where
  | off
  | sleep
  | ready
  | wakingOff
  | wakingSleep
  deriving DecidableEq, Repr

/-- One line of a near cache or of its victim cache (R414). `State.mem` holds the coherent bytes (R96); `stale` holds
what the stack holds under a dirty line, which is what stays when the line is lost (R424); `perr` is 1 for a parity error in data or
tag, 2 in the state bits. Log 6. -/
structure NcLine where
  atom : Nat
  way : Nat
  victim : Bool
  dirty : Bool
  perr : Nat
  stale : List Host.Cell
  deriving DecidableEq, Repr

/-- NC_CTL and NC_STAT of one CD (Tables 12-4, 12-5) and its lines, most recently used first. -/
structure Nc where
  state : Nat
  invOk : Bool
  flushBusy : Bool
  flushSet : List Nat
  invIgn : Bool
  enRefused : Bool
  perrClean : Nat
  lines : List NcLine
  deriving DecidableEq, Repr

/-- A swap that waits for its moment (R542): type and index of Table 17-5, whether a rotation (R551), and its reason. -/
structure Swap where
  type : Nat
  index : Nat
  rotation : Bool
  reason : Nat
  deriving DecidableEq, Repr

/-- One compute die: CD_TOPO (Table 1-7), near cache, position power states, the positions whose grist or cask has been written since it was
last cleared (R292), pending and copying swaps. -/
structure Cd where
  polder : Nat
  lead : Nat
  rank : Nat
  isLead : Bool
  state : Nat
  nc : Nc
  pos : Tbl PosState
  written : BitVec 16
  swaps : List Swap
  copying : List Swap
  rowCopy : List Nat
  deriving DecidableEq, Repr

/-! ### Recipes and the sequencer (chapters 3, 7, 8) -/

/-- A tensor-table entry as its four words (R260, Table 8-7). -/
structure TensorEntry where
  w0 : Word
  w1 : Word
  w2 : Word
  w3 : Word
  deriving DecidableEq, Repr

/-- An admitted recipe: header fields (Table 8-1), its length, the physical addresses of its 4 KiB units and the virtual pages that hold it
(R249, R457), the pass length of
each chain and the FUSE_GRIST it was planned with (R236, R237), its internal sluices (R270), the tensors it locks (R263) and the positions
each descriptor uses, by rank × 16 + position (R291). -/
structure Recipe where
  va : Nat
  len : Nat
  pages : List Nat
  held : List (Nat × Nat)
  descCount : Nat
  extCount : Nat
  cfgCount : Nat
  pbWords : Nat
  keepMask : BitVec 16
  nextSlot : Nat
  nextV : Bool
  haltV : Bool
  haltSl : Nat
  stgOff : Nat
  stgLen : Nat
  pbVa : Nat
  passLen : Tbl Nat
  fuseGrist : Nat
  internal : List Nat
  locked : List Nat
  posUsed : Tbl (BitVec 384)
  deriving DecidableEq, Repr

/-- A start or an armed invocation (R284, R285): slot, parameter-block address, and the START command's mark. -/
structure StartReq where
  slot : Nat
  pb : Nat
  host : Bool
  cookie : Nat
  deriving DecidableEq, Repr

/-- Where a descriptor of the running invocation stands: `reading` its parameter words, a page of which is not present, its waits satisfied
and not yet issued (R265, R276); issued and waiting for a page or for a position's wake (R294); in execution; failed; complete. -/
inductive DescState where
  | reading
  | waitWake
  | waitFault
  | inExec
  | failed
  | complete
  deriving DecidableEq, Repr

/-- The running invocation: descriptor states (absent: not issued), flag word (R142), DT of its first issue, abort (R290), its single class 1 record
(R536); when each queue's head became head (key q) and when sluice n last became 0 (key 16 + n), and the waits reported (q × 8192 + n, R295).
`issueDt` holds the DT at which each descriptor issued (R522), `words` the parameter words read, key descriptor × 8192 + word (R265), `reds` the bytes
and the first address of each CALLRED that has issued, `redDone` the segments that the hubs have summed (R474). -/
structure Invocation where
  req : StartReq
  begun : Bool
  dtStart : Nat
  descs : Tbl DescState
  flags : BitVec 5
  abort : Bool
  err : Option Record
  headSince : Tbl Nat
  stalled : List Nat
  issueDt : Tbl Nat
  words : Tbl Word
  reds : Tbl (Nat × Nat)
  redDone : List RedKey
  deriving DecidableEq, Repr

/-- An admission that runs (R278): who asked, the slot and the image address. -/
structure Admission where
  cmd : Option CmdHdr
  slot : Nat
  va : Nat
  deriving DecidableEq, Repr

/-- RCP_STATUS and RCP_CYC0–1 (Tables 8-14, 8-15); BUSY is `Polder.adm`. -/
structure RcpStatus where
  trunc : Bool
  code : Nat
  detail2 : Nat
  detail : Nat
  cyc : List Nat
  deriving DecidableEq, Repr

/-- What a freeze of a core keeps (R396, R397). -/
structure FreezeInfo where
  pc : Nat
  user : Bool
  ml : Nat
  vcode : Nat
  half2 : Bool
  breach : Bool
  elem : Nat
  addr : Nat
  inst : Word32
  deriving DecidableEq, Repr

/-! ### Matrix units (chapters 5, 6) -/

/-- A stationary bank's content and record (R176, R177). -/
structure Bank where
  fmt : Nat
  cols : Nat
  depth : Nat
  elems : List Byte
  scales : List Byte
  deriving DecidableEq, Repr

/-- One element of a group's slots: total T, segment s, depth count (R199, R203). -/
structure Acc where
  t : Word
  s : Word32
  k : Nat
  deriving DecidableEq, Repr

/-- An accumulation group (R191–R196): state 0 IDLE, 1 OPEN, 2 CLOSING, recorded shape, the AGCFG words it opened with,
whether a matrix instruction opened it, and its elements keyed ((rank × 16 + position) × 64 + q) × 65536 + p. By position (rank × 16 +
position): how many rows of A and of B are present where not all are, and how many tiles a close has delivered. -/
structure Group where
  state : Nat
  byInstr : Bool
  fmtA : Nat
  fmtB : Nat
  prec : Nat
  ma : Nat
  bc : Nat
  cols : Nat
  rows : Nat
  cfg0 : Word
  cfg1 : Word
  cfg2 : Word
  rowsAt : Tbl Nat
  colsAt : Tbl Nat
  sent : Tbl Nat
  acc : Tbl Acc
  deriving DecidableEq, Repr

/-- A wort-queue entry (R215): 0 narrow, 1 and 2 the halves of a wide tile; 64 elements and their presence. -/
structure WortEntry where
  wide : Nat
  data : List Word32
  mask : Word
  deriving DecidableEq, Repr

/-- A vector instruction that the members have accepted and not yet performed (R346): its major opcode, function and operands, and what it took from
the lead core when it issued: general registers, VL, VTYPE, FPCTL, ASID and mode. -/
structure VqEntry where
  maj : BitVec 6
  func : BitVec 6
  op : VOp
  regs : Tbl Word
  vl : Nat
  vtype : Word
  fpctl : Word
  asid : Nat
  user : Bool
  deriving DecidableEq, Repr

/-- Everything of one polder number: section in effect with shadow copies (R47), PHIRO_LIVE, POLDER_INV, sequencer, tensor
table, sluices, freezes, matrix and vector state, PTB and XLT_GEN. `assigned` is false when the loaded image does not name it; `quies`
holds the QUIESCEs that run: a command's header, or none for a forced unbind (R504). -/
structure Polder where
  assigned : Bool
  sec : PolderSec
  shadow : Tbl Nat
  liveWrites : Nat
  invCur : Nat
  invLast : Nat
  invDone : Bool
  slots : Tbl Recipe
  adm : Option Admission
  rcp : RcpStatus
  run : Option Invocation
  armed : Option StartReq
  pend : List StartReq
  held : Bool
  quies : List (Option CmdHdr)
  resetting : Bool
  sluices : Tbl Bool
  tt : Tbl TensorEntry
  ttWin : Tbl Word
  frzCore : Option FreezeInfo
  frzQueue : List Nat
  frzMover : List Nat
  agcfg : Tbl Word
  groups : Tbl Group
  banks : Tbl Bank
  wort : Tbl (List WortEntry)
  vregs : Tbl Word
  masks : Tbl Bool
  vqueue : List VqEntry
  ptb : Word
  xltGen : Nat
  issueSeq : Nat
  deriving DecidableEq, Repr

/-! ### The Coxel core (chapters 9, 11) -/

/-- A store-buffer entry (R334): virtual address, user mode it was stored in, resolved physical address and bytes. `local_` marks the
core-local SRAM. -/
structure SbEntry where
  va : Nat
  pa : Nat
  local_ : Bool
  data : List Byte
  deriving DecidableEq, Repr

/-- A data-cache line (R332): physical line address (64 B), way, and its own bytes, which may be stale (R333). -/
structure DcLine where
  line : Nat
  way : Nat
  data : List Byte
  deriving DecidableEq, Repr

/-- A result on its way to the lead core from a reduction, VPOPC, VFIRST or VMV.X (R350): its register, value and flags. -/
structure RedWait where
  gd : Reg
  value : Word
  fl : Nat
  deriving DecidableEq, Repr

/-- The active Coxel core of one CD (`npWait`: the word of the instruction that a not-present wait holds, R444): registers, CSRs with their pending
copies (R325), SRAMs, caches, store buffer, interrupt registers (Table 11-8), privilege shadow (R385), Breach state and the I/O register BSF_ADDR. -/
structure Core where
  started : Bool
  waiting : Bool
  npWait : Option Word32
  redWait : Option RedWait
  pc : Nat
  regs : Tbl Word
  instret : Word
  dtReset : Nat
  fpctl : Word
  vl : Nat
  vtype : Word
  ml : Nat
  breach : Bool
  user : Bool
  estatus : Word
  epc : Word
  ecause : Word
  eaddr : Word
  einst : Word
  bstk : Word
  bpriv : Bool
  mldef : Word
  itb : Word
  dtb : Word
  asid : Nat
  cctl : Word
  scratch : Tbl Word
  iostat : Byte
  pendCsr : Tbl Word
  sb : List SbEntry
  icache : List Nat
  lineBuf : List Nat
  dcache : List DcLine
  entrySram : Memory
  localSram : Memory
  intPend : BitVec 16
  intEn : BitVec 16
  timerCmp : Nat
  timerHit : Bool
  shadow : List Bool
  breachReq : Bool
  bsfAddr : Nat
  starts : Nat
  mCoxel : List Byte
  deriving DecidableEq, Repr

/-! ### Translation (chapter 13) -/

/-- A cached leaf under its tag (R430, R431): space I or D, page base, level and the PTE. -/
structure Tlb where
  p : Nat
  asid : Nat
  ispace : Bool
  page : Nat
  level : Nat
  pte : Word
  deriving DecidableEq, Repr

/-- A cached non-leaf level-1 entry (Table 13-4). -/
structure WalkEntry where
  p : Nat
  asid : Nat
  ispace : Bool
  region : Nat
  pte : Word
  deriving DecidableEq, Repr

/-- A walk in flight at the CTU with the requests that joined it (R440). -/
structure Walk where
  id : Nat
  reqs : List XlatReq
  deriving DecidableEq, Repr

/-- An open not-present fault (R444, R453). -/
structure NpFault where
  fid : Nat
  p : Nat
  pte : Nat
  level : Nat
  waiters : List XlatReq
  deriving DecidableEq, Repr

/-- An invalidation not yet complete (R456). -/
structure Inval where
  cmd : CmdHdr
  held : Bool
  deriving DecidableEq, Repr

/-- The translation structures of Table 13-4, most recently used first, walks, waiting list, faults, and the CTU walkers out of service. -/
structure Xlat where
  central : List Tlb
  cdTlb : Tbl (List Tlb)
  walkCache : Tbl (List WalkEntry)
  coreI : Tbl (List Tlb)
  coreD : Tbl (List Tlb)
  local_ : List XlatReq
  walks : List Walk
  waiting : List XlatReq
  faults : List NpFault
  nextFid : Nat
  invals : Tbl (List Inval)
  walkersOut : List Nat
  deriving DecidableEq, Repr

/-! ### The Eloax fabric (chapter 14) -/

/-- One direction of a link (R462, R463): the receiver's next sequence number, the sender's next one, the first flit in the replay buffer, which
holds those up to the sender's next, and whether the receiver waits for a replay it has asked for. -/
structure LinkDir where
  rxNext : Nat
  txNext : Nat
  acked : Nat
  asked : Bool
  deriving DecidableEq, Repr

/-- A link (R461–R467, Table 14-6): `lanes` the physical lanes out of use, in order, `errs` the lane-parity errors and `window` the replay
requests with their DTs, `retrainEnd` the end of the last retrain, `newLane` the lane that a remap replaces and its spare; `fwd` its direction
from the die that its number belongs to, `back` the other. -/
structure Link where
  state : Nat
  replays : Nat
  spareUsed : Nat
  downCnt : Nat
  lastLane : Nat
  lanes : List Nat
  errs : List (Nat × Nat)
  window : List Nat
  retrainEnd : Option Nat
  newLane : Option (Nat × Nat)
  fwd : LinkDir
  back : LinkDir
  deriving DecidableEq, Repr

/-- What an outstanding transaction stands for beside a host write: the data of a read's response, a core's access with its virtual address and
instruction, a hub contribution, a CTU walk, or a request that its home discarded (R482). -/
inductive TxWork where
  | none
  | data (d : List Byte)
  | core (va : Nat) (inst : Word32)
  | red (key : RedKey)
  | walk (id : Nat)
  | discarded
  deriving DecidableEq, Repr

/-- An outstanding tag (Table 14-4) with its requester; `host` keeps the connection, address and bytes of a write to host memory (R496). A tag
that is answered is released at once (R479, R484), so an entry that is not listed reads free. -/
structure TagEntry where
  num : Nat
  gen : Nat
  kind : Nat
  src : Nat
  dest : Nat
  addr : Nat
  ls : LS
  issue : Nat
  deadline : Nat
  host : Option (Nat × Nat × List Byte)
  work : TxWork
  req : Requester
  deriving DecidableEq, Repr

/-- A stalled issuer in line for a tag, or one that a freed tag is kept for (R480); `first`: a walk read or a sequencer's fetch, which goes
ahead of others. -/
structure Waiter where
  kind : Nat
  dest : Nat
  addr : Nat
  ls : LS
  req : Requester
  first : Bool
  granted : Bool
  deriving DecidableEq, Repr

/-- A tag owner (R478–R480, Table 14-7): HIGH, its tags and their generations, `stallAcc` the DT units an issuer has stood in line, `stallSince` when
the stall that runs began. -/
structure Owner where
  high : Nat
  tags : List TagEntry
  gens : Tbl Nat
  stallAcc : Nat
  stallSince : Option Nat
  waiters : List Waiter
  deriving DecidableEq, Repr

/-- A hub reduction slot (R473): the contributions by CD. -/
structure Reduction where
  key : RedKey
  parts : Tbl (List Byte)
  deriving DecidableEq, Repr

/-- Where the old elements of an ordered update go (R258): nowhere, to memory, to grist or to a host buffer. -/
inductive RetTo where
  | none
  | mem (src : Nat) (ps : List (Nat × Nat))
  | grist (cd pos off : Nat)
  | host (h off : Nat)
  deriving DecidableEq, Repr

/-- An ordered-update window that is open at an adder (R111–R116): the sources whose end marker has taken effect. -/
structure AddWindow where
  adder : Nat
  p : Nat
  i : Nat
  sub : Nat
  ends : List Nat
  deriving DecidableEq, Repr

/-- An ordered update (`none`: the end marker, R111) not yet applied, in issue order (R112): the tag it holds (none while its source stalls,
R480, or once acknowledged), whether its adder has accepted it early (R113), and where its old elements go. -/
structure Flight where
  win : UpdWindow
  upd : Option MemUpdate
  tag : Option Nat
  early : Bool
  ret : RetTo
  deriving DecidableEq, Repr

/-- Links, hubs, tags, reduction slots and adder windows. -/
structure Fabric where
  links : Tbl Link
  hub0 : Bool
  hub1 : Bool
  hubPend : List Nat
  owners : Tbl Owner
  slots : List Reduction
  redWait : List (RedKey × Nat × List Byte)
  windows : List AddWindow
  flight : List Flight
  applied : List (Nat × Nat)
  deriving DecidableEq, Repr

/-! ### Far-memory frames, damage and refresh (chapter 12) -/

/-- An access that a home holds while its frame or its row is being copied (R408, Table 17-5). -/
inductive HeldAcc where
  | read (r : MemReq)
  | write (r : MemReq) (data : List Byte)
  | update (req : Requester) (u : MemUpdate) (age : Nat) (held : Bool)
  deriving DecidableEq, Repr

/-- Damaged codewords (symbols in error, R411), far-memory frames, those being copied and the accesses held meanwhile, in arrival order with their DT
(R407–R409), refresh and LPDDR5X power states; by
cd × 2^32 + row, cd × 16 + die and cd × 32 + way the DTs or counts that Table 17-6 judges; `wayDue` the ways that a dirty-line or state-bit
parity error condemns. -/
structure MemHealth where
  bad : Tbl Nat
  frameErr : Tbl Nat
  retired : Tbl Nat
  copying : List Nat
  heldAcc : List (Nat × HeldAcc)
  reserveUsed : Tbl Nat
  reserveOut : List Nat
  hot : Tbl Bool
  selfRefresh : Tbl Bool
  rowHits : Tbl (List Nat)
  dieRepairs : Tbl Nat
  wayHits : Tbl (List Nat)
  wayDue : List Nat
  deriving DecidableEq, Repr

/-! ### The host port (chapter 15) -/

/-- A host message that a connection has taken and not yet answered, with what is left of it: an RDMA READ with the bytes read so far, an RDMA
WRITE, a SEND without payload, or one that draws NAK Invalid Request. -/
inductive RdmaOp where
  | read (rkey : Word32) (va len : Nat) (got : List Byte)
  | write (rkey : Word32) (va : Nat) (data : List Byte) (imm : Option Word32)
  | send (imm : Option Word32)
  | bad
  deriving DecidableEq, Repr

/-- A connection (R492, R497): `up` after RTU; `rate` as a share of the port rate; `lastCnpRx` the DT from which 20 µs without a CNP count;
`ops` the messages not yet answered, in order. -/
structure Conn where
  open_ : Bool
  up : Bool
  peer : HostAddr
  pathMtu : Nat
  dscp : Nat
  prio : Nat
  retry : Nat
  ackTimeout : Nat
  rate : Rat
  lastCnpTx : Option Nat
  lastCnpRx : Nat
  ops : List RdmaOp
  deriving DecidableEq, Repr

/-- A command ring (R507–R510, Table 15-9): `busy` is a command in progress with its opcode, `held` completion entries that wait
for their connection (R496), with their LS. `atCmd`: the ring was frozen by the command at HEAD (R511), not by a doorbell (R508). -/
structure Ring where
  base : Nat
  size : Nat
  en : Bool
  cplCons : Nat
  cplHbuf : Nat
  cplProd : Nat
  head : Nat
  tail : Nat
  frozen : Bool
  atCmd : Bool
  busy : Option (CmdHdr × Nat)
  held : List (LS × List Byte)
  deriving DecidableEq, Repr

/-- An HBUF entry (R505, Table 15-9). -/
structure HBuf where
  va : Nat
  rkey : Nat
  conn : Nat
  len : Nat
  valid : Bool
  deriving DecidableEq, Repr

/-- The event queue (R515–R517): EVQ_CFG, EVQ_STAT, the held records and those that wait in dies' record buffers. -/
structure Evq where
  cons : Nat
  en : Bool
  hbuf : Nat
  prod : Nat
  lost : Nat
  held : List Record
  wait : List Record
  deriving DecidableEq, Repr

/-- Binding and port (R499–R504, Table 15-9, R487–R490, R498). `resend` holds completion entries, records and token records whose connection
went out of service before the host acknowledged them (R496); `rxPol` the receive lanes whose polarity the port corrects (R612). -/
structure Port where
  keychk : Nat
  bindState : Nat
  bindCount : Nat
  bindStep : Nat
  bindPeer : Option HostAddr
  bindDt : Nat
  bindNonce : List Byte
  host : Option HostAddr
  refused : Nat
  discard : Nat
  cnpRx : Nat
  mode : Nat
  link : Nat
  tryMode : Nat
  rxPol : Byte
  pfcBytes : Tbl Nat
  pfcAsk : Byte
  pfcPaused : Byte
  conns : Tbl Conn
  rings : Tbl Ring
  hbufs : Tbl HBuf
  evq : Evq
  resend : List TagEntry
  deriving DecidableEq, Repr

/-! ### Errors and the kiln pass (chapter 17) -/

/-- A coalescing window (R535). -/
structure Window where
  key : WindowKey
  endDt : Nat
  count : Nat
  lastDt : Nat
  cls : Nat
  ls : LS
  body : List Byte
  deriving DecidableEq, Repr

/-- One error scope (R537–R539, Table 17-7): polders 0–23, device 24. -/
structure Scope where
  lastSeq : Nat
  cur : Option Record
  pend : List Record
  overflow : Bool
  fatal : Bool
  deriving DecidableEq, Repr

/-- Record numbering, windows, scopes and the records sent to the sideband (R534). -/
structure Errors where
  nextSeq : Nat
  windows : List Window
  scopes : Tbl Scope
  sideband : List Record
  deriving DecidableEq, Repr

/-- KILN_CTL and KILN_STAT (Tables 17-8, 17-9), units under test, tested in this sweep, and the sweep's start. -/
structure Kiln where
  hours : Nat
  en : Bool
  sweepS : Nat
  rotations : Nat
  fails : Nat
  transient : Nat
  late : Bool
  testing : List KilnUnit
  tested : List KilnUnit
  sweepDt : Nat
  deriving DecidableEq, Repr

/-! ### Reeve (chapter 18) -/

/-- What a settings bank's records say (R562, Table 18-3). -/
structure SetBank where
  valid : Bool
  seq : Nat
  net4 : List Byte
  net6 : List Byte
  kilnHours : Nat
  kilnEn : Bool
  bootBs : List Byte
  deriving DecidableEq, Repr

/-- A firmware slot: image header fields, bytes, whether its signature verifies, and its slot record (R571). -/
structure FwSlot where
  image : List Byte
  svn : Nat
  sigOk : Bool
  seq : Nat
  active : Bool
  deriving DecidableEq, Repr

/-- Reeve and MRAM: settings, firmware, counters, owner, nonce, log ring, spare blocks, the areas that hold a block which reads back wrong (0 and 1
settings A and B, 2 and 3 firmware A and B, 4 identity and counters, 5 the log ring; damage as found, log 27), measurements, sideband session;
`update` holds the path's command and image, `store` the STORE in progress (R563, R571); `fwUp` that an image runs, which FW_SVN and FW_SLOT report. -/
structure Reeve where
  bankA : List Byte
  bankB : List Byte
  net4 : List Byte
  net6 : List Byte
  stagedNet4 : Option (List Byte)
  stagedNet6 : Option (List Byte)
  store : Option (CmdHdr × Bool × SetBank)
  slotA : FwSlot
  slotB : FwSlot
  runSlot : Bool
  fwUp : Bool
  recovery : Bool
  upd : Nat
  updPath : Nat
  update : Option (Option CmdHdr × FwSlot)
  insertCnt : Nat
  ownerEnrols : Nat
  rollback : Nat
  logNext : Nat
  log : Tbl Record
  owner : Option (Nat × Nat)
  nonce : Option (List Byte × Nat)
  spareLeft : Nat
  nvBad : List Nat
  mRom : List Byte
  mFw : List Byte
  frozen : Bool
  spares : Tbl SpareMap
  eid : Nat
  session : Option Bool
  sbStep : Nat
  deriving DecidableEq, Repr

/-! ### Power, reset and pins (chapters 19, 20) -/

/-- A sensor's last sample (R578): STATE 0 normal, 1 warning, 2 critical, 3 unavailable. -/
structure Sensor where
  value : Int
  state : Nat
  dt : Nat
  deriving DecidableEq, Repr

/-- The 56 V input and hot-swap switch (R585–R587). -/
inductive InputState where
  | absent
  | softStart
  | on
  | shed
  | removed
  deriving DecidableEq, Repr

/-- Governor (R590), sensors, trip, input, reset and boot (Tables 19-8 to 19-11), pins and the TAP (R613–R624). `rstReq` is the cause of a
reset that is asked for and has not begun (R606, Table 19-10), `rstAsk` the ring whose REGW asked for it and the DT, `cause` that of the last
reset that began, which the next boot enters in BOOT_STAT.CAUSE, `bootCause`. -/
structure Power where
  input : InputState
  inW : Nat
  pstep : Nat
  tstep : Nat
  step : Nat
  overDt : Tbl Nat
  clamp : Bool
  sensors : Tbl Sensor
  memThr : Tbl Bool
  trip : Bool
  thermtripN : Bool
  smbAlertN : Bool
  rstLow : Bool
  rstReq : Option Nat
  rstAsk : Option (Nat × Nat)
  rstWait : List Nat
  cause : Nat
  bootCause : Nat
  bootStep : Nat
  bootMs : Nat
  straps : BitVec 2
  powerLost : Bool
  tapIr : Nat
  deriving DecidableEq, Repr

/-- What the device sends: frames to the host, sideband replies, test-port replies, and the payloads that its links deliver. The model's own log of
them, oldest first (log 8). -/
inductive Out where
  | hostWrite (conn va : Nat) (data : List Byte)
  | readResp (conn : Nat) (data : List Byte)
  | ack (conn : Nat)
  | nak (conn code : Nat)
  | cm (msg conn : Nat)
  | spdm (sideband : Bool) (msg : Nat) (data : List Byte)
  | spdmError (sideband : Bool) (code : Nat)
  | arp
  | ndp
  | echo (data : List Byte)
  | cnp (conn : Nat)
  | pfc (prio : Nat) (pause : Bool)
  | mctp (msg : Nat) (data : List Byte)
  | pldm (msg : Nat) (data : List Byte)
  | tap (data : Word)
  | flit (link : Nat) (back : Bool) (payload : List Byte)
  deriving DecidableEq, Repr

/-- What was sent with the marks of its IP packets (R491): the ECN field, the DSCP and the 802.1Q priority, 0 where it is no IP packet. -/
structure Sent where
  msg : Out
  ecn : Nat
  dscp : Nat
  prio : Nat
  deriving DecidableEq, Repr

/-- The state of the D-2432. `free` counts the free values drawn so far and `out` logs what was sent: both are the model's own. -/
structure State where
  pending : List Instr
  free : Nat
  out : List Sent
  dt : Nat
  phiro : Phiro
  cds : Tbl Cd
  polders : Tbl Polder
  cores : Tbl Core
  mem : Memory
  grist : Memory
  health : MemHealth
  xlat : Xlat
  fabric : Fabric
  port : Port
  errors : Errors
  kiln : Kiln
  reeve : Reeve
  power : Power
  deriving DecidableEq, Repr

/-! ### Values at reset -/

/-- The POLDER section of a polder number that no image names; never read by a rule. -/
def PolderSec.none : PolderSec :=
  { lead := 0xFF, members := 0, vslots := 1, formats := 3, sluices := 0, ttEntries := 0, placeDefault := 0, fuseStages := 0,
    fuseGrist := 0, fuseCask := 0, wdogStall := 0, waymask := [] }

/-- RCP_STATUS, RCP_CYC0 and RCP_CYC1 at reset (Tables 8-14, 8-15). -/
def RcpStatus.reset : RcpStatus := { trunc := false, code := 0x40, detail2 := 0, detail := 0, cyc := [] }

/-- A polder number at reset. -/
def Polder.reset : Polder :=
  { assigned := false, sec := PolderSec.none, shadow := [], liveWrites := 0, invCur := 0, invLast := 0, invDone := false,
    slots := [], adm := none, rcp := RcpStatus.reset, run := none, armed := none, pend := [], held := false, quies := [], resetting := false,
    sluices := [], tt := [], ttWin := [], frzCore := none, frzQueue := [], frzMover := [], agcfg := [], groups := [],
    banks := [], wort := [], vregs := [], masks := [], vqueue := [], ptb := 0, xltGen := 0, issueSeq := 0 }

/-- A near cache at reset (Tables 12-4, 12-5). -/
def Nc.reset : Nc :=
  { state := 0, invOk := false, flushBusy := false, flushSet := [], invIgn := false, enRefused := false, perrClean := 0, lines := [] }

/-- A compute die at reset: unassigned (Table 1-7). -/
def Cd.reset : Cd :=
  { polder := 0xFF, lead := 0xFF, rank := 0xFF, isLead := false, state := 0, nc := Nc.reset, pos := [], written := 0, swaps := [], copying := [], rowCopy := [] }

/-- A Coxel core at reset (R328 and the Reset columns of chapters 4, 9, 10, 11, 13). -/
def Core.reset : Core :=
  { started := false, waiting := false, npWait := none, redWait := none, pc := 0, regs := [], instret := 0, dtReset := 0, fpctl := 0, vl := 0, vtype := 3, ml := 7,
    breach := false, user := false, estatus := 0, epc := 0, ecause := 0, eaddr := 0, einst := 0, bstk := 0xFFFFFFFF1000, bpriv := false,
    mldef := 0, itb := 0, dtb := 0, asid := 0, cctl := 0, scratch := [], iostat := 0, pendCsr := [], sb := [], icache := [], lineBuf := [],
    dcache := [], entrySram := [], localSram := [], intPend := 0, intEn := 0, timerCmp := 0, timerHit := false, shadow := [], breachReq := false,
    bsfAddr := 0, starts := 0, mCoxel := [] }

/-- The spare map of a CD as manufactured (log 5): position p on cluster p, the last unit of each kind the spare. -/
def SpareMap.fresh : SpareMap :=
  { posCl := List.range 16, badCl := [], core := 0, badCore := [], wayOut := 16, badWay := [], dieOut := 8, badDie := [],
    laneOut := List.replicate 16 64, badLane := [], gristOut := List.replicate 16 16, badGrist := [], out := false }

/-- A direction of a link at reset: nothing sent. -/
def LinkDir.reset : LinkDir := { rxNext := 0, txNext := 0, acked := 0, asked := false }

/-- A link at reset (Table 14-6), no lane out of use. -/
def Link.reset : Link :=
  { state := 0, replays := 0, spareUsed := 0, downCnt := 0, lastLane := 0xFF, lanes := [], errs := [], window := [], retrainEnd := none,
    newLane := none, fwd := LinkDir.reset, back := LinkDir.reset }

/-- A tag owner at reset (Table 14-7). -/
def Owner.reset : Owner := { high := 0, tags := [], gens := [], stallAcc := 0, stallSince := none, waiters := [] }

/-- A ring at reset (Table 15-9). -/
def Ring.reset : Ring :=
  { base := 0, size := 0, en := false, cplCons := 0, cplHbuf := 0, cplProd := 0, head := 0, tail := 0, frozen := false,
    atCmd := false, busy := none, held := [] }

/-- An HBUF entry at reset (Table 15-9). -/
def HBuf.reset : HBuf := { va := 0, rkey := 0, conn := 0, len := 0, valid := false }

/-- A connection index that is not in use. -/
def Conn.closed : Conn :=
  { open_ := false, up := false, peer := { mac := 0, ip := 0 }, pathMtu := 0, dscp := 0, prio := 0, retry := 0, ackTimeout := 0, rate := 1,
    lastCnpTx := none, lastCnpRx := 0, ops := [] }

/-- An error scope at reset (Table 17-7). -/
def Scope.reset : Scope := { lastSeq := 0, cur := none, pend := [], overflow := false, fatal := false }

/-- A group that is IDLE. -/
def Group.idle : Group :=
  { state := 0, byInstr := false, fmtA := 0, fmtB := 0, prec := 0, ma := 0, bc := 0, cols := 0, rows := 0, cfg0 := 0x20000, cfg1 := 0, cfg2 := 0,
    rowsAt := [], colsAt := [], sent := [], acc := [] }

/-- A settings bank that is not valid. -/
def SetBank.empty : SetBank :=
  { valid := false, seq := 0, net4 := [], net6 := [], kilnHours := 24, kilnEn := true, bootBs := [] }

/-- A firmware slot with no image. -/
def FwSlot.empty : FwSlot := { image := [], svn := 0, sigOk := false, seq := 0, active := false }

/-- Reeve and MRAM as manufactured (log 5): slot A holds the factory firmware, no settings, no owner, an empty log. -/
def Reeve.fresh : Reeve :=
  { bankA := [], bankB := [], net4 := [], net6 := [], stagedNet4 := none, stagedNet6 := none, store := none,
    slotA := { FwSlot.empty with sigOk := true, seq := 1, active := true }, slotB := FwSlot.empty, runSlot := false, fwUp := false, recovery := false, upd := 0,
    updPath := 0, update := none, insertCnt := 0, ownerEnrols := 0, rollback := 0, logNext := 0, log := [], owner := none, nonce := none,
    spareLeft := 256, nvBad := [], mRom := [], mFw := [], frozen := false, spares := [], eid := 0, session := none, sbStep := 0 }

/-- The tag counts of the `phiro` defaults, which apply with no bit-stream loaded (R66, Table 2-8). -/
def Phiro.defaultTags : List Nat :=
  List.replicate 24 8192 ++ [32768] ++ List.replicate 4 4096 ++ List.replicate 2 4096 ++ [8192]

/-- Bit-stream state with no bit-stream loaded (R66, Table 2-13). -/
def Phiro.reset : Phiro :=
  { loaded := false, image := [], loadCount := 0, lastStatus := 0, busy := false, loading := none, affects := [], profile := 0, txnTimeout := 50, sliceOwner := [],
    tags := Phiro.defaultTags, eth := { speed := 0, mtu := 9216, pfcEn := false, pfcPrio := 0 },
    ethLoaded := { speed := 0, mtu := 9216, pfcEn := false, pfcPrio := 0 }, coolId := 7, missRun := 0, hitRun := 0, forced := false }

/-- The machine right after the cold reset that follows insertion: every register at the value its table gives, boot not yet run
(the BOOT command performs steps 1 to 7). -/
def State.reset : State :=
  { pending := [], free := 0, out := [], dt := 0, phiro := Phiro.reset, cds := [], polders := [], cores := [], mem := [], grist := [],
    health := { bad := [], frameErr := [], retired := [], copying := [], heldAcc := [], reserveUsed := [], reserveOut := [], hot := [], selfRefresh := [],
                rowHits := [], dieRepairs := [], wayHits := [], wayDue := [] },
    xlat := { central := [], cdTlb := [], walkCache := [], coreI := [], coreD := [], local_ := [], walks := [], waiting := [], faults := [],
              nextFid := 0, invals := [], walkersOut := [] },
    fabric := { links := [], hub0 := true, hub1 := true, hubPend := [], owners := [], slots := [], redWait := [], windows := [], flight := [], applied := [] },
    port := { keychk := 0, bindState := 0, bindCount := 0, bindStep := 0, bindPeer := none, bindDt := 0, bindNonce := [], host := none, refused := 0,
              discard := 0, cnpRx := 0, mode := 0, link := 0, tryMode := 0, rxPol := 0, pfcBytes := [], pfcAsk := 0, pfcPaused := 0, conns := [], rings := [],
              hbufs := [], evq := { cons := 0, en := false, hbuf := 0, prod := 0, lost := 0, held := [], wait := [] }, resend := [] },
    errors := { nextSeq := 0, windows := [], scopes := [], sideband := [] },
    kiln := { hours := 24, en := true, sweepS := 0, rotations := 0, fails := 0, transient := 0, late := false, testing := [], tested := [], sweepDt := 0 },
    reeve := Reeve.fresh,
    power := { input := .on, inW := 0, pstep := 0, tstep := 0, step := 0, overDt := [], clamp := false, sensors := [], memThr := [], trip := false,
               thermtripN := true, smbAlertN := true, rstLow := false, rstReq := none, rstAsk := none, rstWait := [], cause := 1, bootCause := 0, bootStep := 0, bootMs := 0, straps := 0,
               powerLost := true, tapIr := 0 } }

end Sys2Proof.Machine
end

