-- ==== Sys2Proof/Machine/Tbl.lean ====
section
/-! DEFINITION. Sparse tables and byte memories: reading, writing in the canonical form, and the form itself. An
entry equal to the default is never listed, so equal contents are equal data. -/

namespace Sys2Proof.Machine

/-- The entry at a key, if one is listed. -/
def tfind {α : Type} : Tbl α → Nat → Option α
  | [], _ => none
  | (k', v) :: t, k => if k = k' then some v else tfind t k

/-- The value at a key, `d` where none is listed. -/
def tget {α : Type} (d : α) (t : Tbl α) (k : Nat) : α := (tfind t k).getD d

/-- Remove a key. -/
def tdel {α : Type} (t : Tbl α) (k : Nat) : Tbl α := t.filter fun e => e.1 ≠ k

/-- Insert or replace a key, in order. -/
def tins {α : Type} : Tbl α → Nat → α → Tbl α
  | [], k, v => [(k, v)]
  | (k', v') :: t, k, v =>
    if k < k' then (k, v) :: (k', v') :: t else if k = k' then (k, v) :: t else (k', v') :: tins t k v

/-- Write a value, keeping the canonical form for the default `d`. -/
def tset {α : Type} [DecidableEq α] (d : α) (t : Tbl α) (k : Nat) (v : α) : Tbl α :=
  if v = d then tdel t k else tins t k v

/-- Change the value at a key. -/
def tmod {α : Type} [DecidableEq α] (d : α) (t : Tbl α) (k : Nat) (f : α → α) : Tbl α := tset d t k (f (tget d t k))

/-- Change every listed value. -/
def tmap {α : Type} [DecidableEq α] (d : α) (t : Tbl α) (f : α → α) : Tbl α :=
  t.filterMap fun e => if f e.2 = d then none else some (e.1, f e.2)

/-- Remove every key with a property. -/
def tdrop {α : Type} (t : Tbl α) (q : Nat → Bool) : Tbl α := t.filter fun e => !q e.1

/-- Keys strictly rising, all above a bound where one is given. -/
def risingFrom {α : Type} : Option Nat → Tbl α → Bool
  | _, [] => true
  | lo, (k, _) :: t => (match lo with | none => true | some l => decide (l < k)) && risingFrom (some k) t

/-- The canonical form of a table with default `d`. -/
def twf {α : Type} [DecidableEq α] (d : α) (t : Tbl α) : Bool := risingFrom none t && t.all fun e => e.2 ≠ d

/-- A byte memory in its canonical form: rising addresses and no zero byte listed. -/
abbrev Memory.wf (m : Memory) : Bool := twf (0 : Byte) m

/-- The byte at an address; an unlisted address reads 0 (log 4). -/
def mget (m : Memory) (a : Nat) : Byte := tget 0 m a

/-- Write one byte. -/
def mset (m : Memory) (a : Nat) (b : Byte) : Memory := tset 0 m a b

/-- `n` bytes from an address. -/
def mgetN (m : Memory) (a : Nat) : Nat → List Byte
  | 0 => []
  | n + 1 => mget m a :: mgetN m (a + 1) n

/-- Write bytes from an address up. -/
def msetN (m : Memory) (a : Nat) : List Byte → Memory
  | [] => m
  | b :: bs => msetN (mset m a b) (a + 1) bs

/-- Make [a, a+n) read as zero. -/
def mzero (m : Memory) (a n : Nat) : Memory := tdrop m fun k => a ≤ k && k < a + n

/-- Insert a number into a rising list once. -/
def insertNat : List Nat → Nat → List Nat
  | [], k => [k]
  | x :: xs, k => if k < x then k :: x :: xs else if k = x then x :: xs else x :: insertNat xs k

end Sys2Proof.Machine
end

