-- ==== Sys2Proof/Machine/Ops.lean ====
section
/-! DEFINITION. Shared operations I: access to the parts of the state, polder membership, logical stamps, free values,
tags, writes to host memory, records and their three paths, interrupt sources. -/

namespace Sys2Proof.Machine

/-! ### Parts of the state -/

def polder (s : State) (p : Nat) : Polder := tget Polder.reset s.polders p
def setPolder (s : State) (p : Nat) (v : Polder) : State := { s with polders := tset Polder.reset s.polders p v }
def modPolder (s : State) (p : Nat) (f : Polder → Polder) : State := setPolder s p (f (polder s p))

/-- The CD that leads polder `p` (R28). -/
def leadOf (s : State) (p : Nat) : Nat := (polder s p).sec.lead

/-- The active core of a CD. -/
def coreAt (s : State) (n : Nat) : Core := tget Core.reset s.cores n
def setCoreAt (s : State) (n : Nat) (v : Core) : State := { s with cores := tset Core.reset s.cores n v }

/-- The lead core of polder `p` (R29). -/
def core (s : State) (p : Nat) : Core := coreAt s (leadOf s p)
def setCore (s : State) (p : Nat) (v : Core) : State := setCoreAt s (leadOf s p) v
def modCore (s : State) (p : Nat) (f : Core → Core) : State := setCore s p (f (core s p))

def cdAt (s : State) (n : Nat) : Cd := tget Cd.reset s.cds n
def modCd (s : State) (n : Nat) (f : Cd → Cd) : State := { s with cds := tset Cd.reset s.cds n (f (cdAt s n)) }

def ring (s : State) (r : Nat) : Ring := tget Ring.reset s.port.rings r
def modRing (s : State) (r : Nat) (f : Ring → Ring) : State :=
  { s with port := { s.port with rings := tset Ring.reset s.port.rings r (f (ring s r)) } }

def hbuf (s : State) (h : Nat) : HBuf := tget HBuf.reset s.port.hbufs h
def conn (s : State) (c : Nat) : Conn := tget Conn.closed s.port.conns c
def modConn (s : State) (c : Nat) (f : Conn → Conn) : State :=
  { s with port := { s.port with conns := tset Conn.closed s.port.conns c (f (conn s c)) } }

def owner (s : State) (o : Nat) : Owner := tget Owner.reset s.fabric.owners o
def modOwner (s : State) (o : Nat) (f : Owner → Owner) : State :=
  { s with fabric := { s.fabric with owners := tset Owner.reset s.fabric.owners o (f (owner s o)) } }

def linkAt (s : State) (k : Nat) : Link := tget Link.reset s.fabric.links k
def modLink (s : State) (k : Nat) (f : Link → Link) : State :=
  { s with fabric := { s.fabric with links := tset Link.reset s.fabric.links k (f (linkAt s k)) } }

def scopeAt (s : State) (k : Nat) : Scope := tget Scope.reset s.errors.scopes k
def modScope (s : State) (k : Nat) (f : Scope → Scope) : State :=
  { s with errors := { s.errors with scopes := tset Scope.reset s.errors.scopes k (f (scopeAt s k)) } }

def spareMap (s : State) (n : Nat) : SpareMap := tget SpareMap.fresh s.reeve.spares n
def modSpare (s : State) (n : Nat) (f : SpareMap → SpareMap) : State :=
  { s with reeve := { s.reeve with spares := tset SpareMap.fresh s.reeve.spares n (f (spareMap s n)) } }

/-! ### Polders and dies -/

/-- Does the loaded image name polder `p` (R631). -/
def named (s : State) (p : Nat) : Bool := s.phiro.loaded && (polder s p).assigned

/-- The member CDs of a polder in rank order (R35). -/
def members (s : State) (p : Nat) : List Nat := setBitsOf 24 (polder s p).sec.members.toNat

/-- The member count N. -/
def nMembers (s : State) (p : Nat) : Nat := (members s p).length

/-- The CD of member rank `r`. -/
def cdOfRank (s : State) (p r : Nat) : Nat := (members s p).getD r 0

/-- The rank of a member CD. -/
def rankOf (s : State) (p cd : Nat) : Nat := (members s p).findIdx (· == cd)

/-- Good clusters of a CD (GOOD_CL, Table 1-7). -/
def goodCl (m : SpareMap) : Nat := 18 - m.badCl.length

/-- Is a CD out of service: fewer than 16 good clusters (R39), or a failed unit of a kind with no spare left (R545). -/
def cdGone (s : State) (n : Nat) : Bool := (spareMap s n).out || decide (goodCl (spareMap s n) < 16)

/-- A polder runs (R40, R504): STATE of a member is 0b10. -/
def polderRuns (s : State) (p : Nat) : Bool := (members s p).any fun n => (cdAt s n).state == 2

/-- The fraction of the state named by a polder number below 24. -/
def polderNums : List Nat := List.range 24

/-! ### Logical stamps (R90, R91) -/

/-- LS of work of no polder. -/
def lsDevice (src : Nat) : LS := { inv := 0, desc := 0, sub := 0, src := src, ext := true, pol := 0xFF }

/-- LS of an access by the lead core (R91). -/
def lsCore (s : State) (p : Nat) : LS :=
  { inv := (polder s p).invCur, desc := 0, sub := 0, src := leadOf s p, ext := true, pol := p }

/-- LS of descriptor `i` of the running invocation. -/
def lsDesc (s : State) (p i sub src : Nat) : LS :=
  { inv := (polder s p).invCur, desc := i, sub := sub, src := src, ext := false, pol := p }

/-- LS of a host RDMA through the key of polder `p`, 0xFF for the physical key. -/
def lsHost (s : State) (p : Nat) : LS := { lsDevice 24 with pol := p, inv := if p < 24 then (polder s p).invCur else 0 }

/-- LS of a host command (R91). -/
def lsCmd (s : State) (h : CmdHdr) : LS :=
  { inv := if h.pol < 24 then (polder s h.pol).invCur else 0, desc := (ring s h.ring).head % 65536, sub := h.ring, src := 24,
    ext := true, pol := h.pol }

/-- The 64-bit word of an LS (Table 3-2). -/
def LS.word (l : LS) : Nat :=
  (l.inv % 2 ^ 24) <<< 40 + (l.desc % 2 ^ 16) <<< 24 + (l.sub % 256) <<< 16 + (l.src % 32) <<< 11 + b2n l.ext <<< 10 + l.pol % 256

/-! ### Free values (log 3) and device time -/

/-- Draw one free word. -/
def drawFree (s : State) : Word × State := (Config.freeWord s.free, { s with free := s.free + 1 })

/-- Draw 32 free bytes. -/
def drawBytes (s : State) : List Byte × State := (slice (Config.freeBytes s.free) 0 32, { s with free := s.free + 1 })

/-- Draw a free choice among `n` (0 where there is none). -/
def drawPick (s : State) (n : Nat) : Nat × State := (Config.pick s.free % n, { s with free := s.free + 1 })

/-- Units of DT in a microsecond, a millisecond and a second (R83). -/
def dtUs : Nat := 4000
def dtMs : Nat := 4000000
def dtS : Nat := 4000000000

/-- A timed event brings device time forward to its moment (log 2); DT never decreases (R84). -/
def advanceTo (s : State) (t : Nat) : State := { s with dt := max s.dt t % 2 ^ 64 }

/-- Are the dies held: RST_N low (R613), or every position and core Off after a trip (R595). -/
def halted (s : State) : Bool := s.power.rstLow || s.power.trip

/-- The marks of a packet (R491): ECT(0) on IP packets, and on those of a connection its DSCP and priority. -/
def marked (s : State) (o : Out) : Sent :=
  let on := fun (c : Nat) => ({ msg := o, ecn := 2, dscp := (conn s c).dscp, prio := (conn s c).prio } : Sent)
  match o with
  | .hostWrite c _ _ | .readResp c _ | .ack c | .nak c _ | .cm _ c | .cnp c => on c
  | .spdm false _ _ | .spdmError false _ => on 0
  | .echo _ | .ndp => { msg := o, ecn := 2, dscp := 0, prio := 0 }
  | _ => { msg := o, ecn := 0, dscp := 0, prio := 0 }

/-- Append to the log of what the device sends. -/
def send (s : State) (o : Out) : State := { s with out := s.out ++ [marked s o] }

/-- Saturating increment. -/
def satInc (v m : Nat) : Nat := if v < m then v + 1 else m

/-! ### Tags (R478–R480) -/

/-- The tag count of an owner (R63). -/
def tagCount (s : State) (o : Nat) : Nat := s.phiro.tags.getD o 0

/-- The first tag number of an owner (R479). -/
def tagBase (s : State) (o : Nat) : Nat := (s.phiro.tags.take o).sum

/-- Tags outstanding now. -/
def tagsInUse (ow : Owner) : Nat := ow.tags.length

/-- The first number at or after `k` modulo `n` that is not in use. -/
def tagSearch (used : List Nat) (base n : Nat) : Nat → Nat → Option Nat
  | 0, _ => none
  | fuel + 1, k => if used.contains (base + k % n) then tagSearch used base n fuel (k + 1) else some (base + k % n)

/-- A free tag of an owner: the manual does not say which one is taken, so the search starts at a free choice (log 3). -/
def freeTag (s : State) (o : Nat) : Option Nat :=
  let ow := owner s o
  if tagCount s o ≤ tagsInUse ow then none
  else tagSearch (ow.tags.map (·.num)) (tagBase s o) (tagCount s o) (tagsInUse ow + 1) (Config.pick s.free % tagCount s o)

/-- What a request carries into its tag (Table 14-4). -/
structure TagReq where
  kind : Nat
  dest : Nat
  addr : Nat
  ls : LS
  req : Requester
  host : Option (Nat × Nat × List Byte) := none
  work : TxWork := .none
  age : Nat := 0
  deriving DecidableEq, Repr

/-- Take a tag for a request of owner `o`; HIGH follows (Table 14-7). None where no tag is free. -/
def takeTag (s : State) (o : Nat) (q : TagReq) : Option (Nat × State) :=
  match freeTag s o with
  | none => none
  | some n =>
    let s := { s with free := s.free + 1 }
    let e : TagEntry :=
      { num := n, gen := tget 0 (owner s o).gens n, kind := q.kind, src := o, dest := q.dest, addr := q.addr, ls := q.ls, issue := s.dt - q.age,
        deadline := s.dt - q.age + s.phiro.txnTimeout * dtUs, host := q.host, work := q.work, req := q.req }
    some (n, modOwner s o fun ow => { ow with tags := ow.tags ++ [e], high := max ow.high (tagsInUse ow + 1) })

/-- Release a tag: its generation increases modulo 64 (R479). -/
def releaseTag (s : State) (o n : Nat) : State :=
  modOwner s o fun ow =>
    { ow with tags := ow.tags.filter (·.num ≠ n), gens := tset 0 ow.gens n ((tget 0 ow.gens n + 1) % 64) }

/-- May a requester take `n` tags now (R480): they are free beyond those kept for others, and none stands in line before it. -/
def tagsFor (s : State) (o n : Nat) (r : Requester) : Bool :=
  let w := owner s o
  let kept := w.waiters.filter fun x => x.granted && x.req ≠ r
  tagsInUse w + kept.length + n ≤ tagCount s o && ((w.waiters.any fun x => x.granted && x.req == r) || w.waiters.all (·.granted))

/-- May a requester take a tag now. -/
def tagFor (s : State) (o : Nat) (r : Requester) : Bool := tagsFor s o 1 r

/-- The stall time of an owner at DT `t` after its line has changed (Table 14-7): it runs while an issuer stands in line. -/
def Owner.stall (w : Owner) (t : Nat) : Owner :=
  match w.waiters.all (·.granted), w.stallSince with
  | true, some u => { w with stallAcc := w.stallAcc + (t - u), stallSince := none }
  | false, none => { w with stallSince := some t }
  | _, _ => w

/-- STALL_US, a stall that runs included (Table 14-7). -/
def Owner.stallUs (w : Owner) (t : Nat) : Nat :=
  min ((w.stallAcc + match w.stallSince with | some u => t - u | none => 0) / dtUs) 0xFFFFF

/-- An issuer that finds no tag takes its place in line, once. -/
def addWaiter (s : State) (o : Nat) (w : Waiter) : State :=
  modOwner s o fun ow => Owner.stall (if ow.waiters.any (·.req == w.req) then ow else { ow with waiters := ow.waiters ++ [w] }) s.dt

/-- Issuers that leave the line of an owner: they have issued, or their work is gone. -/
def dropWaiter (s : State) (o : Nat) (q : Requester → Bool) : State :=
  modOwner s o fun ow => Owner.stall { ow with waiters := ow.waiters.filter fun w => !q w.req } s.dt

/-- Issuers that leave every line. -/
def dropWaiterAll (s : State) (q : Requester → Bool) : State :=
  let f := fun (ow : Owner) => Owner.stall { ow with waiters := ow.waiters.filter fun w => !q w.req } s.dt
  { s with fabric := { s.fabric with owners := tmap Owner.reset s.fabric.owners f } }

/-- The lead core's access has begun, or nothing is left of it: it stands in line no longer. -/
def leaveLine (s : State) (p : Nat) : State := dropWaiter s (leadOf s p) (· == .core p)

/-- A requester of polder `p`'s descriptors. -/
def descOf (p : Nat) (r : Requester) : Bool := match r with | .descriptor q _ | .descUpdate q _ => q == p | _ => false

/-- A request whose response arrives within the same command holds its tag for that long (log 9): HIGH and the tag's generation show it. -/
def tagPulse (s : State) (o : Nat) : State :=
  match freeTag s o with
  | some n =>
    modOwner { s with free := s.free + 1 } o fun ow =>
      { ow with high := max ow.high (tagsInUse ow + 1), gens := tset 0 ow.gens n ((tget 0 ow.gens n + 1) % 64) }
  | none => s

/-! ### Writes to host memory (R496, R505) -/

/-- A connection that is in service. -/
def connUp (s : State) (c : Nat) : Bool := (conn s c).open_ && (conn s c).up

/-- Can the device write an entry and its count to host buffer `h` now: a valid entry, its connection in service and two tags of NW free
beyond those in line for, and nothing earlier waiting for the connection (R496, R505). -/
def hbufReady (s : State) (h : Nat) : Bool :=
  (hbuf s h).valid && connUp s (hbuf s h).conn && tagsInUse (owner s 24) + (owner s 24).waiters.length + 1 < tagCount s 24 &&
    !s.port.resend.any fun t => t.host.any fun x => x.1 == (hbuf s h).conn

/-- A write to host memory that waits for its connection or for a tag (R480, R496). -/
def holdWrite (s : State) (h off : Nat) (data : List Byte) (ls : LS) (req : Requester) : State :=
  let b := hbuf s h
  let va := (b.va + off) % 2 ^ 64
  { s with port := { s.port with resend := s.port.resend ++
      [{ num := 0, gen := 0, kind := 1, src := 24, dest := 24, addr := va % 2 ^ 44, ls := ls, issue := s.dt,
         deadline := s.dt + s.phiro.txnTimeout * dtUs, host := some (b.conn, va, data), work := .none, req := req }] } }

/-- Write bytes at `off` of host buffer `h`; the write holds a tag of NW until the host acknowledges it, and waits where none is free. -/
def hostWrite (s : State) (h off : Nat) (data : List Byte) (ls : LS) (req : Requester) : State :=
  let b := hbuf s h
  let va := (b.va + off) % 2 ^ 64
  match takeTag s 24 { kind := 1, dest := 24, addr := va % 2 ^ 44, ls := ls, req := req, host := some (b.conn, va, data) } with
  | some (_, s) => send s (.hostWrite b.conn va data)
  | none => holdWrite s h off data ls req

/-- Writes that waited for their connection leave again, in order, once it serves and tags are free (R496). -/
def resendHeld : List TagEntry → State → State
  | [], s => s
  | t :: rest, s =>
    match t.host with
    | none => resendHeld rest s
    | some (c, va, data) =>
      if connUp s c then
        match takeTag s 24 { kind := 1, dest := 24, addr := va % 2 ^ 44, ls := t.ls, req := t.req, host := t.host } with
        | some (_, s) => resendHeld rest (send { s with port := { s.port with resend := s.port.resend.filter (· ≠ t) } } (.hostWrite c va data))
        | none => s
      else resendHeld rest s

/-! ### Units of the kiln pass -/

/-- A request for a unit under test stops the step on it, and the pass releases it (R122, R549). -/
def kilnRelease (s : State) (q : KilnUnit → Bool) : State := { s with kiln := { s.kiln with testing := s.kiln.testing.filter fun u => !q u } }

/-! ### Interrupt sources (Table 11-6) -/

/-- Set bit `n` of a bit vector. -/
def setBitV {w : Nat} (v : BitVec w) (n : Nat) : BitVec w := v ||| BitVec.ofNat w (2 ^ n)

/-- Source `n` of the lead core of polder `p` occurs. -/
def setInt (s : State) (p n : Nat) : State :=
  if named s p then modCore s p fun c => { c with intPend := setBitV c.intPend n } else s

/-! ### Records (R533, R534) -/

/-- A record that has no number yet carries SEQ 2^32. -/
def noSeq : Nat := 2 ^ 32

/-- A record of one occurrence, detected now, not yet numbered. -/
def mkRec (s : State) (ls : LS) (code cls die unit : Nat) (body : List Byte) : Record :=
  { dt := s.dt, ls := ls, code := code, cls := cls, preempted := false, escalated := false, die := die, seq := noSeq, count := 1,
    unit := unit, body := slice body 0 32 }

/-- The 64 bytes of a record (Table 17-2). -/
def Record.bytes (r : Record) : List Byte :=
  bytesLE 8 r.dt ++ bytesLE 8 r.ls.word ++ bytesLE 2 r.code ++ bytesLE 1 (r.cls + 4 * b2n r.preempted + 8 * b2n r.escalated) ++
    bytesLE 1 r.die ++ bytesLE 4 r.seq ++ bytesLE 2 r.count ++ bytesLE 2 r.unit ++ bytesLE 4 0 ++ slice r.body 0 32

/-- The fields of Table 17-4 that a record may set; the others take the value of the table's "otherwise". -/
structure ErrBody where
  addr : Nat := 0
  reqClass : Nat := 0xFF
  symbols : Nat := 0
  old : Nat := 0xFFFF
  new : Nat := 0xFFFF
  reason : Nat := 0xFF
  left : Nat := 0
  step : Nat := 0
  got : Nat := 0
  exp : Nat := 0
  extra : Nat := 0
  deriving DecidableEq, Repr

/-- Bytes 32–63 of Table 17-4. -/
def errBytes (b : ErrBody) : List Byte :=
  bytesLE 8 b.addr ++ bytesLE 1 b.reqClass ++ bytesLE 1 b.symbols ++ bytesLE 2 b.old ++ bytesLE 2 b.new ++ bytesLE 1 b.reason ++
    bytesLE 1 b.left ++ bytesLE 4 b.step ++ bytesLE 4 b.got ++ bytesLE 4 b.exp ++ bytesLE 4 b.extra

/-- The fields of Table 14-8. -/
structure FabBody where
  link : Nat := 0xFFFF
  lane : Nat := 0xFF
  spare : Nat := 0xFF
  replays : Nat := 0
  status : Nat := 0
  tag : Nat := 0
  dest : Nat := 0xFF
  addr : Nat := 0
  deadline : Nat := 0
  deriving DecidableEq, Repr

/-- Bytes 32–63 of Table 14-8. -/
def fabBytes (b : FabBody) : List Byte :=
  bytesLE 2 b.link ++ bytesLE 1 b.lane ++ bytesLE 1 b.spare ++ bytesLE 2 b.replays ++ bytesLE 1 b.status ++ bytesLE 1 0 ++
    bytesLE 4 b.tag ++ bytesLE 1 b.dest ++ bytesLE 3 0 ++ bytesLE 8 b.addr ++ bytesLE 8 b.deadline

/-- TAG of a TX_LINK record whose transaction holds no tag of the model: its kind, and a free number and generation (log 3). -/
def lostTag (s : State) (kind : Nat) : Nat := Config.lostTag s.free % 2 ^ 24 + kind <<< 24

/-- A record that the host path may drop: class 0, no completion event, no user event (R516). -/
def droppable (r : Record) : Bool := r.cls == 0 && r.code ≠ 1 && r.code ≠ 2

/-- The most records the device holds for the host (R515), and that one die's record buffer holds (R517). -/
def evqMax : Nat := 4096

/-- The records of the persistent log (R534). -/
def logMax : Nat := 81920

/-- The host path of a numbered record (R515–R517). -/
def evqPost (q : Evq) (r : Record) : Evq :=
  if q.held.length < evqMax && q.wait.isEmpty then { q with held := q.held ++ [r] }
  else if droppable r then { q with lost := satInc q.lost 0xFFFF }
  else { q with wait := q.wait ++ [r] }

/-- A record that does not belong to the log of Table 18-3a is never listed. -/
def Record.none : Record :=
  { dt := 0, ls := lsDevice 0, code := 0, cls := 0, preempted := false, escalated := false, die := 0, seq := 0, count := 0, unit := 0, body := [] }

/-- The interrupt source of a posted record that names a polder (Table 11-6): 3 SEQ_STALL, 7 XLT_NP, 5 any other error. -/
def recordSource (r : Record) : Option Nat :=
  if r.code = 1 || r.code = 2 then none else some (if r.code = 0x41 then 3 else if r.code = 0x30 then 7 else 5)

/-- A record whose log block takes it: it takes the next SEQ and goes to the sideband, the persistent log and the event queue (R534), and the
lead core of the polder it names gets the interrupt source. Returns the numbered record. -/
def postPlain (s : State) (r : Record) : Record × State :=
  let r := { r with seq := s.errors.nextSeq }
  let s := { s with
    errors := { s.errors with nextSeq := (s.errors.nextSeq + 1) % 2 ^ 32, sideband := s.errors.sideband ++ [r] },
    reeve := { s.reeve with log := tset Record.none s.reeve.log (s.reeve.logNext % logMax) r, logNext := s.reeve.logNext + 1 },
    port := { s.port with evq := evqPost s.port.evq r } }
  (r, match recordSource r with
      | some n => if r.ls.pol < 24 then setInt s r.ls.pol n else s
      | none => s)

/-- The MRAM areas that hold counters and spare map, and the log ring, as `nvBad` numbers them (Table 18-3a). -/
def areaId : Nat := 4
def areaLog : Nat := 5

/-- The LEFT byte of a record: the manual gives it 8 bits, so a count that they cannot hold leaves a free value (log 3). -/
def leftByte (s : State) (n : Nat) : Nat × State := if n < 256 then (n, s) else let (v, s) := drawFree s; (v.toNat % 256, s)

/-- A spare block takes the place of one that reads back wrong (R560), with its SPARE_SWAP record, whose OLD and NEW are free values (log 3). -/
def nvSpare (s : State) (area : Nat) : Record × State :=
  let s := { s with reeve := { s.reeve with spareLeft := s.reeve.spareLeft - 1, nvBad := s.reeve.nvBad.filter (· ≠ area) } }
  let (o, s) := drawFree s
  let (n, s) := drawFree s
  let (l, s) := leftByte s s.reeve.spareLeft
  (mkRec s (lsDevice 31) 0x60 0 31 (0xC000 + o.toNat % 4096) (errBytes { old := o.toNat % 65536, new := n.toNat % 65536, left := l }), s)

/-- Post a record (R534). Where its log block reads back wrong a spare takes it, with a SPARE_SWAP record after it; with none left the log keeps
its earlier content and LOG_NEXT does not count it (R560, R567). -/
def postR (s : State) (r : Record) : Record × State :=
  if !s.reeve.nvBad.contains areaLog then postPlain s r
  else if s.reeve.spareLeft = 0 then
    let (r, t) := postPlain s r
    (r, { t with reeve := { t.reeve with log := s.reeve.log, logNext := s.reeve.logNext } })
  else
    let (x, s) := nvSpare s areaLog
    let (r, s) := postPlain s r
    (r, (postPlain s x).2)

/-- Post a record. -/
def post (s : State) (r : Record) : State := (postR s r).2

/-- Reeve writes an area of MRAM and reads it back (R560): a block that reads back wrong is replaced by a spare; with none left the write fails. -/
def nvWrite (s : State) (area : Nat) (bad : Bool) : Bool × State :=
  if !(bad || s.reeve.nvBad.contains area) then (true, s)
  else if s.reeve.spareLeft = 0 then (false, s)
  else let (r, s) := nvSpare s area; (true, post s r)

/-- Reeve writes the changed spare map of a CD to MRAM (R544); a write that fails leaves it as it was (R560). -/
def saveSpare (s : State) (n : Nat) (f : SpareMap → SpareMap) : State :=
  match nvWrite s areaId false with
  | (true, s) => modSpare s n f
  | (false, s) => s

/-- Post a class 0 record that coalesces (R535): MEM_CORR and NC_PERR. -/
def postCoalesced (s : State) (r : Record) (addr : Nat) : State :=
  let k : WindowKey := { code := r.code, die := r.die, unit := r.unit, addr := addr }
  if s.errors.windows.any fun w => w.key = k && s.dt < w.endDt then
    { s with errors := { s.errors with windows := s.errors.windows.map fun w =>
        if w.key = k && s.dt < w.endDt then { w with count := satInc w.count 0xFFFF, lastDt := s.dt } else w } }
  else
    let s := post s r
    { s with errors := { s.errors with windows := s.errors.windows ++
        [{ key := k, endDt := s.dt + dtMs, count := 0, lastDt := s.dt, cls := r.cls, ls := r.ls, body := r.body }] } }

/-! ### What happens as soon as it can, after every command -/

/-- The capacity of the event buffer in 64 B entries (R515). -/
def evqCap (s : State) : Nat := ((hbuf s s.port.evq.hbuf).len - 64) / 64

/-- May the event queue write a record to the host now (R515). -/
def evqCan (s : State) : Bool :=
  let q := s.port.evq
  q.en && hbufReady s q.hbuf && (q.prod + 2 ^ 32 - q.cons) % 2 ^ 32 < evqCap s

/-- Write held records to the host while it can: the entry, then the count (R510, R515). -/
def evqDeliver : Nat → State → State
  | 0, s => s
  | n + 1, s =>
    match s.port.evq.held with
    | [] => s
    | r :: rest =>
      if evqCan s then
        let q := s.port.evq
        let s := hostWrite s q.hbuf (64 + 64 * (q.prod % evqCap s)) r.bytes r.ls .reeve
        let prod := (q.prod + 1) % 2 ^ 32
        let s := hostWrite s q.hbuf 0 (bytesLE 8 prod) r.ls .reeve
        evqDeliver n { s with port := { s.port with evq := { s.port.evq with held := rest, prod := prod } } }
      else s

/-- The entries that a completion buffer of ring `r` holds (R510). -/
def cplCap (s : State) (r : Nat) : Nat := ((hbuf s (ring s r).cplHbuf).len - 64) / 32

/-- Write the completion entry that ring `r` holds, and the count that includes it, once its buffer can be written (R496, R510). -/
def cplDeliver (s : State) (r : Nat) : State :=
  let k := ring s r
  match k.held with
  | [] => s
  | (ls, e) :: rest =>
    if hbufReady s k.cplHbuf && cplCap s r ≠ 0 then
      let s := hostWrite s k.cplHbuf (64 + 32 * (k.cplProd % cplCap s r)) e ls (.ring r)
      let prod := (k.cplProd + 1) % 2 ^ 32
      let s := hostWrite s k.cplHbuf 0 (bytesLE 8 prod) ls (.ring r)
      modRing s r fun k => { k with held := rest, cplProd := prod }
    else s

/-- Records that waited in dies enter the queue in SEQ order as space frees (R517). -/
def evqAdmit (q : Evq) : Evq :=
  let k := evqMax - q.held.length
  { q with held := q.held ++ q.wait.take k, wait := q.wait.drop k }

/-- A scope whose current error's record has been accepted on every path handles nothing any more (R537). -/
def scopeSettle (wait : List Record) (sc : Scope) : Scope :=
  match sc.cur with
  | some r => if r.seq = noSeq || wait.any (·.seq == r.seq) then sc else { sc with cur := none }
  | none => sc

/-- The scopes of errors: polders 0–23 and the device, 24 (R537). -/
def scopeNums : List Nat := List.range 25

/-- Settle every scope. -/
def settleScopes (wait : List Record) (t : Tbl Scope) : Tbl Scope :=
  scopeNums.foldl (fun t k => tmod Scope.reset t k (scopeSettle wait)) t

/-- SMB_ALERT_N (R615): low while a sensor reads critical or a scope is FATAL. -/
def alertN (s : State) : Bool := !(s.power.sensors.any fun e => e.2.state == 2) && !scopeNums.any fun k => (scopeAt s k).fatal

/-- The end of settling: waiting records enter the event queue, the handling of accepted records ends, SMB_ALERT_N follows. -/
def settleEnd (s : State) : State :=
  let q := evqAdmit s.port.evq
  let s := { s with port := { s.port with evq := q }, errors := { s.errors with scopes := settleScopes q.wait s.errors.scopes } }
  { s with power := { s.power with smbAlertN := alertN s } }

/-- Every ring that holds completion entries delivers one. -/
def cplDeliverAll (s : State) : State := ((s.port.rings.filter fun e => !e.2.held.isEmpty).map (·.1)).foldl cplDeliver s

/-- The actions that no row of the command table names and that the device takes as soon as it can, at the end of every
command (log 10): completion entries, event-queue delivery and admission, the end of handling of an accepted record, and SMB_ALERT_N. -/
def settle (s : State) : State :=
  let s := cplDeliverAll (resendHeld s.port.resend s)
  settleEnd (evqDeliver s.port.evq.held.length s)

/-- What a meaning answers. -/
abbrev Result := Host.Outcome State Fault Refusal

/-- The outcome of every meaning: the next state, settled. -/
def done (s : State) : Result := .next (settle s)

end Sys2Proof.Machine
end

