-- ==== Sys2Proof/Machine/Live.lean ====
section
/-! DEFINITION. The POLDER section's fields (R55, Table 2-5), their reads and live writes (R44–R53), and their points of
effect (R48–R50). -/

namespace Sys2Proof.Machine

/-- A field of the POLDER section: first byte, width in bytes, live, effect at SYNC.C (else at an invocation boundary). -/
structure FieldDef where
  off : Nat
  width : Nat
  live : Bool
  sync : Bool
  deriving DecidableEq, Repr

/-- The fields of Table 2-5. MEMBERS counts as the 4 bytes of its word, so that a field write at its reserved byte 0x0F draws BS_SEALED (R45,
R53) and not the BS_RANGE of a reserved byte (R46): DESIGN CHOICE, log 25. -/
def polderFields : List FieldDef :=
  [⟨0x08, 1, false, false⟩, ⟨0x09, 1, false, false⟩, ⟨0x0C, 4, false, false⟩, ⟨0x10, 1, false, false⟩, ⟨0x12, 2, false, false⟩,
   ⟨0x14, 2, false, false⟩, ⟨0x16, 2, false, false⟩, ⟨0x18, 1, true, false⟩, ⟨0x19, 1, true, false⟩, ⟨0x1A, 1, true, false⟩,
   ⟨0x1B, 1, true, false⟩, ⟨0x1C, 4, true, false⟩, ⟨0x20, 2, true, true⟩, ⟨0x22, 2, true, true⟩, ⟨0x24, 2, true, true⟩,
   ⟨0x26, 2, true, true⟩, ⟨0x28, 2, true, true⟩, ⟨0x2A, 2, true, true⟩]

/-- The field that holds the byte at an offset. -/
def fieldOf (off : Nat) : Option FieldDef := polderFields.find? fun f => f.off ≤ off && off < f.off + f.width

/-- The value in effect of a field, by its first byte. -/
def fieldGet (p : Nat) (c : PolderSec) (off : Nat) : Nat :=
  if off = 0x08 then p else if off = 0x09 then c.lead else if off = 0x0C then c.members.toNat else if off = 0x10 then c.vslots
  else if off = 0x12 then c.formats.toNat else if off = 0x14 then c.sluices else if off = 0x16 then c.ttEntries
  else if off = 0x18 then c.placeDefault else if off = 0x19 then c.fuseStages else if off = 0x1A then c.fuseGrist
  else if off = 0x1B then c.fuseCask else if off = 0x1C then c.wdogStall
  else (c.waymask.getD ((off - 0x20) / 2) 0).toNat

/-- Give a live field a value. -/
def fieldPut (c : PolderSec) (off v : Nat) : PolderSec :=
  if off = 0x18 then { c with placeDefault := v } else if off = 0x19 then { c with fuseStages := v }
  else if off = 0x1A then { c with fuseGrist := v } else if off = 0x1B then { c with fuseCask := v }
  else if off = 0x1C then { c with wdogStall := v }
  else { c with waymask := c.waymask.set ((off - 0x20) / 2) (BitVec.ofNat 16 v) }

/-- The range of a live field (Table 2-5, R60). -/
def fieldInRange (off v : Nat) : Bool :=
  if off = 0x18 then v ≤ 1 else if off = 0x19 then 1 ≤ v && v ≤ 8 else if off = 0x1A then v ≤ 48 else if off = 0x1B then v ≤ 12
  else if off = 0x1C then v < 2 ^ 32 else 0 < v && v < 2 ^ 16

/-- The value a live field takes: 1 to 99 µs of WDOG_STALL are raised to 100 (Table 2-5). -/
def fieldClamp (off v : Nat) : Nat := if off = 0x1C && 1 ≤ v && v ≤ 99 then 100 else v

/-- A polder is quiesced (chapter 2): nothing runs or is armed and STATE of every member in service reads 0b01; one out of service keeps
0b11 (R39, R40, log 25). -/
def quiesced (s : State) (p : Nat) : Bool :=
  (polder s p).run.isNone && (polder s p).armed.isNone && !(members s p).isEmpty &&
    (members s p).all fun n => (cdAt s n).state == 1 || (cdAt s n).state == 3

/-- Statuses of Table 2-12. -/
def bsOk : Nat := 0
def bsFormat : Nat := 1
def bsAuth : Nat := 2
def bsDevice : Nat := 3
def bsRange : Nat := 4
def bsLayout : Nat := 5
def bsCdOut : Nat := 6
def bsCool : Nat := 7
def bsRunning : Nat := 8
def bsSealed : Nat := 9
def bsBusy : Nat := 10

/-- Drop the cached translations of a polder that a test selects (R405, R459). -/
def dropXlat (s : State) (p : Nat) (q : Tlb → Bool) : State :=
  let keep := fun (l : List Tlb) => l.filter fun t => !(t.p == p && q t)
  { s with xlat := { s.xlat with
      central := keep s.xlat.central, cdTlb := tmap [] s.xlat.cdTlb keep, coreI := tmap [] s.xlat.coreI keep,
      coreD := tmap [] s.xlat.coreD keep } }

/-- Empty the walk caches of a polder's members (R454). -/
def dropWalks (s : State) (p : Nat) : State :=
  { s with xlat := { s.xlat with walkCache := tmap [] s.xlat.walkCache fun l => l.filter fun w => !(w.p == p) } }

/-- Apply pending shadow values selected by their point of effect (R48–R50); a new PLACE_DEFAULT drops the cached translations of
pages with default placement (R405). -/
def applyShadow (s : State) (p : Nat) (sel : FieldDef → Bool) : State :=
  let po := polder s p
  let hit := fun (k : Nat) => match fieldOf k with | some f => sel f | none => false
  let sec := po.shadow.foldl (fun c e => if hit e.1 then fieldPut c e.1 e.2 else c) po.sec
  let s := setPolder s p { po with sec := sec, shadow := tdrop po.shadow hit }
  if sec.placeDefault ≠ po.sec.placeDefault then dropXlat s p fun t => fld t.pte 6 2 == 0 else s

/-- Fields with point of effect IB (R48). -/
def applyIB (s : State) (p : Nat) : State := applyShadow s p fun f => !f.sync
/-- Fields with point of effect SYNC.C (R49). -/
def applySync (s : State) (p : Nat) : State := applyShadow s p fun f => f.sync
/-- Every pending shadow value (R50). -/
def applyAll (s : State) (p : Nat) : State := applyShadow s p fun _ => true

/-- A field write (R44–R47, R50): the status and the state. -/
def fieldWrite (s : State) (p off v : Nat) : Nat × State :=
  match fieldOf off with
  | none => (bsRange, s)
  | some f =>
    if !f.live then (bsSealed, s)
    else if off ≠ f.off || !fieldInRange off v then (bsRange, s)
    else
      let po := polder s p
      let s' := setPolder s p { po with shadow := tins po.shadow off (fieldClamp off v), liveWrites := (po.liveWrites + 1) % 2 ^ 32 }
      (bsOk, if quiesced s p then applyAll s' p else s')

/-- A field read (R51): the status and the value. -/
def fieldRead (s : State) (p off : Nat) (shadow : Bool) : Nat × Nat :=
  match fieldOf off with
  | none => (bsRange, 0)
  | some f =>
    if off ≠ f.off then (bsRange, 0)
    else
      let po := polder s p
      let v := fieldGet p po.sec off
      (bsOk, if shadow && f.live then (tfind po.shadow off).getD v else v)

/-- Do shadow values wait for SYNC.C, or for an invocation boundary (Table 2-14). -/
def shadowPend (po : Polder) (sync : Bool) : Bool :=
  po.shadow.any fun e => match fieldOf e.1 with | some f => f.sync == sync | none => false

end Sys2Proof.Machine
end

