-- ==== Sys2Proof/Machine/Errors.lean ====
section
/-! DEFINITION. Completion events (R518), the end of an invocation (R285–R290, R293), error classes and scopes (R530–R540), and
freezing a master (R394–R396). -/

namespace Sys2Proof.Machine

/-! ### Completion events -/

/-- The flags of a completion event (Table 15-7, byte 33). -/
structure DoneFlags where
  rearmed : Bool := false
  halted : Bool := false
  noNext : Bool := false
  error : Bool := false
  cancelled : Bool := false
  deriving DecidableEq, Repr

/-- Bytes 32–63 of a completion event (Table 15-7). -/
def doneBytes (r : StartReq) (f : DoneFlags) (fp dtStart dtEnd : Nat) : List Byte :=
  bytesLE 1 (r.slot % 16) ++
    bytesLE 1 (b2n f.rearmed + 2 * b2n f.halted + 4 * b2n f.noNext + 8 * b2n f.error + 16 * b2n f.cancelled + 32 * b2n r.host) ++
    bytesLE 1 fp ++ bytesLE 1 0 ++ bytesLE 4 (if r.host then r.cookie else 0) ++ bytesLE 8 dtStart ++ bytesLE 8 dtEnd ++ bytesLE 8 0

/-- The recipe in a slot. -/
def recipeAt (s : State) (p slot : Nat) : Option Recipe := tfind (polder s p).slots slot

/-- The index of the last descriptor of the recipe in a slot. -/
def lastDesc (s : State) (p slot : Nat) : Nat := ((recipeAt s p slot).map fun r => r.descCount - 1).getD 0

/-- Post the completion event of an invocation (R518). -/
def postDone (s : State) (p : Nat) (r : StartReq) (f : DoneFlags) (fp dtStart : Nat) : State :=
  let ls := lsDesc s p (lastDesc s p r.slot) 0 (leadOf s p)
  post s (mkRec s ls 1 0 (leadOf s p) 0 (doneBytes r f fp dtStart s.dt))

/-- A start that ends before its invocation: a CANCELLED completion (R289). -/
def postCancelled (s : State) (p : Nat) (r : StartReq) : State := postDone s p r { cancelled := true } 0 0

/-- A sluice's value. -/
def sluice (po : Polder) (n : Nat) : Bool := tget false po.sluices n

/-- Does some wort queue of the polder hold no entry. -/
def wortAny (s : State) (p : Nat) : Bool :=
  (List.range (nMembers s p * 16)).any fun k => (tget [] (polder s p).wort k).isEmpty

/-- Source 8 (WORT, Table 11-6): no invocation runs and every wort queue of the polder holds an entry. -/
def wortInt (s : State) (p : Nat) : State :=
  if (polder s p).run.isNone && named s p && !wortAny s p then setInt s p 8 else s

/-- Key of a byte of grist. -/
def gristKey (cd pos off : Nat) : Nat := (cd * 16 + pos) * 0x400000 + off

/-- Key of an element of an accumulation group. -/
def accKey (rank pos q p : Nat) : Nat := ((rank * 16 + pos) * 64 + q) * 65536 + p

/-- The grist and cask of every position outside a KEEP_MASK read as zero (R293). -/
def clearKeep (s : State) (p : Nat) (keep : Nat) : State :=
  let mem := members s p
  let gone := fun (pos : Nat) => !bit keep pos
  let s := { s with grist := tdrop s.grist fun k => mem.contains (k / 0x4000000) && gone (k / 0x400000 % 16) }
  let s := mem.foldl (fun s cd => modCd s cd fun c => { c with written := c.written &&& BitVec.ofNat 16 keep }) s
  modPolder s p fun po =>
    { po with groups := tmap Group.idle po.groups fun g => { g with acc := tdrop g.acc fun k => gone (k / 0x400000 % 16) } }

/-- What the re-arm of a completing invocation does (R285, R287): the armed start and the event's flags. -/
def rearm (po : Polder) (rc : Recipe) (r : StartReq) : Option StartReq × DoneFlags :=
  if !rc.nextV || !po.quies.isEmpty then (none, { error := false })
  else if rc.haltV && sluice po rc.haltSl then (none, { halted := true })
  else if (tfind po.slots rc.nextSlot).isNone then (none, { noNext := true })
  else (some { r with slot := rc.nextSlot }, { rearmed := true })

/-- A tag of a transaction of polder `p` that an ended invocation leaves without a receiver: a hub contribution, an update in flight. -/
def openTag (s : State) (p : Nat) (t : TagEntry) : Bool :=
  (match t.work with | .red k => k.p == p | _ => false) || s.fabric.flight.any fun f => f.win.p == p && f.tag == some t.num && f.win.src == t.src

/-- An ended invocation's open update windows and updates in flight (R117, R123) and hub reductions (R477) are discarded, with their tags. -/
def discardOpen (s : State) (p : Nat) : State :=
  let ts := (s.fabric.owners.flatMap fun o => o.2.tags).filter (openTag s p)
  let s := ts.foldl (fun s t => releaseTag s t.src t.num) s
  { s with fabric := { s.fabric with
      windows := s.fabric.windows.filter fun w => !(w.p == p)
      flight := s.fabric.flight.filter fun f => !(f.win.p == p)
      slots := s.fabric.slots.filter fun r => !(r.key.p == p)
      redWait := s.fabric.redWait.filter fun r => !(r.1.p == p) } }

/-- A class 1 end discards the groups the invocation opened too (R220). -/
def discardWork (s : State) (p : Nat) : State :=
  discardOpen (modPolder s p fun po => { po with groups := po.groups.filter fun e => e.2.byInstr }) p

/-- An invocation ends: the completion event, the re-arm unless it ends in error, POLDER_INV and its internal sluices; `held` after a class 1
end alone (R288). -/
def invOut (s : State) (p : Nat) (inv : Invocation) (rc : Option Recipe) (err held : Bool) : State :=
  let re : Option StartReq × DoneFlags := match rc with
    | some rc => if err then (none, { error := false }) else rearm (polder s p) rc inv.req
    | none => (none, { error := false })
  let s := postDone s p inv.req { re.2 with error := err } inv.flags.toNat inv.dtStart
  modPolder s p fun po =>
    { po with run := none, armed := re.1, held := po.held || held, invLast := po.invCur, invDone := true,
              invCur := (po.invCur + 1) % 2 ^ 24,
              sluices := tdrop po.sluices fun k => ((rc.map (·.internal)).getD []).contains k }

/-- What the end of an invocation tells: its descriptors leave the line for tags, and the lead core gets sources 0 and, with full queues, 8. -/
def invTell (s : State) (p : Nat) : State :=
  wortInt (setInt (dropWaiterAll s (descOf p)) p 0) p

/-- End the running invocation: re-arm or hold, the completion event, POLDER_INV, internal sluices and KEEP_MASK. `err` is a
class 1 end (R288); the class 1 record itself is posted by the caller. -/
def invEnd (s : State) (p : Nat) (err : Bool) : State :=
  let po := polder s p
  match po.run with
  | none => s
  | some inv =>
    let rc : Option Recipe := tfind po.slots inv.req.slot
    let s := clearKeep (invOut s p inv rc err err) p ((rc.map (·.keepMask.toNat)).getD 0)
    invTell (if err then discardWork s p else s) p

/-- A class 2 error ends the running invocation; no byte of grist or cask changes (R531). -/
def invStop (s : State) (p : Nat) : State :=
  let po := polder s p
  match po.run with
  | none => s
  | some inv => invTell (discardOpen (invOut s p inv (tfind po.slots inv.req.slot) true false) p) p

/-! ### Scopes and classes (R530–R540) -/

/-- The scope of an error: its LS.POLDER, or the device (R537). -/
def scopeOf (r : Record) : Nat := if r.ls.pol < 24 then r.ls.pol else 24

/-- Post the record of an error of class 1 to 3 and note it in its scope. -/
def postError (s : State) (r : Record) : State :=
  let (r', s) := postR s r
  modScope s (scopeOf r) fun sc => { sc with lastSeq := r'.seq, cur := some r' }

/-- Put an invocation's record, with the COUNT it has reached, in the place of its first detection in a pending list (R536). -/
def pendWith (e : Record) (l : List Record) : List Record := l.map fun r => if { r with count := e.count } = e then e else r

/-- The pending list of a scope, with what the running invocation's record has counted. -/
def pendNow (s : State) (k : Nat) : List Record :=
  match (polder s k).run.bind (·.err) with
  | some e => pendWith e (scopeAt s k).pend
  | none => (scopeAt s k).pend

/-- R531: every master of the polder freezes without a record, the running invocation ends with ERROR, every start and re-arm is
cancelled, FATAL is set. -/
def stopPolder (s : State) (p : Nat) : State :=
  let l := pendNow s p
  let s := invStop s p
  let po := polder s p
  let s := (po.armed.toList ++ po.pend).foldl (fun s r => postCancelled s p r) s
  let c := core s p
  let frz : FreezeInfo :=
    { pc := c.pc, user := c.user, ml := c.ml, vcode := 0, half2 := false, breach := c.breach, elem := 0xFFFFFFFF, addr := 0, inst := 0 }
  let s := modPolder s p fun po =>
    { po with armed := none, pend := [], frzCore := some (po.frzCore.getD frz), frzQueue := [0, 1, 2, 3],
              frzMover := List.range (nMembers s p) }
  modScope (setInt s p 6) p fun sc => { sc with pend := l, fatal := true }

/-- The containment of an error's class (Table 17-1). -/
def contain (s : State) (r : Record) : State :=
  if r.cls = 2 && r.ls.pol < 24 then stopPolder s r.ls.pol
  else if r.cls = 3 then
    modScope (polderNums.foldl (fun s p => if named s p then stopPolder s p else s) s) 24 fun sc => { sc with fatal := true }
  else s

/-- Start handling an error: the record of an invocation's class 1 error waits for the invocation's end (R536), every other posts
at once; then the containment. -/
def beginError (s : State) (r : Record) (inv : Bool) : State :=
  contain (if inv then modScope s (scopeOf r) fun sc => { sc with cur := some r } else postError s r) r

/-- The current error of a scope posts with PREEMPTED, unless its record is posted already (R538). -/
def preempt (s : State) (k : Nat) : State :=
  match (scopeAt s k).cur with
  | some c =>
    if c.seq = noSeq then
      let c := match (polder s k).run with
        | some inv => inv.err.getD c
        | none => c
      let s := postError s { c with preempted := true }
      if k < 24 then modPolder s k fun po => { po with run := po.run.map fun inv => { inv with err := none } } else s
    else s
  | none => s

/-- R539: the error that would be the 33rd pending becomes ERR_OVERFLOW; the current error posts PREEMPTED and each pending one
ESCALATED. -/
def escalate (s : State) (k : Nat) : State :=
  let pend := pendNow s k
  let s := preempt s k
  let s := pend.foldl (fun s r => postError s { r with escalated := true }) s
  let s := modScope s k fun sc => { sc with pend := [], overflow := true }
  let ls := if k < 24 then lsCore s k else lsDevice 31
  beginError s (mkRec s ls 0x70 (if k < 24 then 2 else 3) ls.src 0 (errBytes { extra := k })) false

/-- Detect an error (R537–R540). `inv`: it belongs to the polder's running invocation. A class 2 error of no polder is class 0
(R628). -/
def detect (s : State) (r : Record) (inv : Bool) : State :=
  let r := if r.cls = 2 && 24 ≤ r.ls.pol then { r with cls := 0 } else r
  let k := scopeOf r
  let sc := scopeAt s k
  if r.cls = 0 then post s r
  else if r.cls = 2 && sc.fatal then
    let (r', s) := postR s r
    modScope s k fun sc => { sc with lastSeq := r'.seq }
  else if r.cls = 3 then beginError ((List.range 25).foldl preempt s) r false
  else match sc.cur with
    | none => beginError s r inv
    | some c =>
      if c.cls < r.cls then beginError (preempt s k) r inv
      else if sc.pend.length < 32 then modScope s k fun sc => { sc with pend := sc.pend ++ [r] }
      else escalate s k

/-- A class 1 error of polder `p`'s running invocation (R536): the first supplies the record, later ones add to its COUNT; with no
invocation running the error posts its own record. -/
def detectInv (s : State) (p : Nat) (r : Record) : State :=
  match (polder s p).run with
  | none => detect s r false
  | some inv =>
    match inv.err with
    | some e => modPolder s p fun po => { po with run := some { inv with err := some { e with count := satInc e.count 0xFFFF } } }
    | none => detect (modPolder s p fun po => { po with run := some { inv with err := some r } }) r true

/-- The class 1 record of an ended invocation posts (R536): at once where its scope handles it, else when its turn comes. -/
def postInvError (s : State) (p : Nat) (e : Record) : State :=
  let sc := scopeAt s p
  match sc.cur with
  | some c => if c.seq = noSeq then postError s e
              else modScope s p fun sc => { sc with pend := pendWith e sc.pend }
  | none => postError s e

/-- End the running invocation in its ordinary or its class 1 form. -/
def finishInv (s : State) (p : Nat) : State :=
  match (polder s p).run with
  | none => s
  | some inv =>
    match inv.err with
    | some e => postInvError (invEnd s p true) p e
    | none => invEnd s p false

/-! ### Freezes (R394–R396) -/

/-- The violation codes of Table 11-17. -/
def vMode : Nat := 1
def vPerm : Nat := 2
def vOutside : Nat := 3
def vImage : Nat := 4
def vRfePriv : Nat := 5
def vDesc : Nat := 6
def vWortSew : Nat := 7
def vBreachFault : Nat := 8
def vCommand : Nat := 9

/-- The fields of a freeze record (Table 11-16). -/
structure FrzBody where
  master : Nat
  vcode : Nat
  user : Bool := false
  half2 : Bool := false
  breach : Bool := false
  elem : Nat := 0xFFFFFFFF
  pc : Nat := 0
  addr : Nat := 0
  inst : Nat := 0
  deriving DecidableEq, Repr

/-- Bytes 32–63 of a freeze record. -/
def frzBytes (b : FrzBody) : List Byte :=
  bytesLE 2 b.master ++ bytesLE 1 b.vcode ++ bytesLE 1 (b2n b.user + 2 * b2n b.half2 + 4 * b2n b.breach) ++ bytesLE 4 b.elem ++
    bytesLE 8 b.pc ++ bytesLE 8 (b.addr % 2 ^ 48) ++ bytesLE 4 b.inst ++ bytesLE 4 0

/-- Freeze the lead core of polder `p` (R394): its state is kept, nothing else changes, the record is class 1. -/
def freezeCore (s : State) (p : Nat) (vcode : Nat) (half2 : Bool) (elem addr : Nat) (inst : Word32) : State :=
  let c := core s p
  let info : FreezeInfo :=
    { pc := c.pc, user := c.user, ml := c.ml, vcode := vcode, half2 := half2, breach := c.breach, elem := elem, addr := addr % 2 ^ 48, inst := inst }
  let s := modPolder s p fun po => { po with frzCore := some info }
  let b : FrzBody :=
    { master := 0, vcode := vcode, user := c.user, half2 := half2, breach := c.breach, elem := elem, pc := c.pc, addr := addr, inst := inst.toNat }
  detect s (mkRec s (lsCore s p) 0x40 1 (leadOf s p) 0 (frzBytes b)) false

/-- Freeze a sequencer queue for descriptor `i` (R267, R394): the invocation ends with the record once its descriptors complete. -/
def freezeQueue (s : State) (p q i sub vcode addr : Nat) : State :=
  let s := modPolder s p fun po => { po with frzQueue := insertNat po.frzQueue q }
  let r := mkRec s (lsDesc s p i sub (leadOf s p)) 0x40 1 (leadOf s p) 0 (frzBytes { master := 0x1000 + q, vcode := vcode, addr := addr })
  setInt (detectInv s p r) p 6

/-- Freeze the mover of member rank `r`. -/
def freezeMover (s : State) (p rank i sub vcode addr : Nat) : State :=
  let s := modPolder s p fun po => { po with frzMover := insertNat po.frzMover rank }
  let cd := cdOfRank s p rank
  let r := mkRec s (lsDesc s p i sub cd) 0x40 1 cd 0 (frzBytes { master := 0x2000 + rank, vcode := vcode, addr := addr })
  setInt (detectInv s p r) p 6

/-- Freeze a command ring (R511). -/
def freezeRing (s : State) (h : CmdHdr) (vcode addr : Nat) : State :=
  let s' := modRing s h.ring fun r => { r with frozen := true }
  detect s' (mkRec s' (lsCmd s h) 0x40 1 24 0 (frzBytes { master := 0x3000 + h.ring, vcode := vcode, addr := addr })) false

/-- Freeze Reeve (R394). -/
def freezeReeve (s : State) (vcode addr : Nat) : State :=
  let s := { s with reeve := { s.reeve with frozen := true } }
  detect s (mkRec s (lsDevice 31) 0x40 1 31 0 (frzBytes { master := 0x4000, vcode := vcode, addr := addr })) false

/-- A record that waits for space stops the master that produced it (R517): the lead core of a polder. -/
def coreWaits (s : State) (p : Nat) : Bool :=
  s.port.evq.wait.any fun r => r.ls.pol == p && r.ls.ext && r.ls.src == leadOf s p

/-- R517 for a host ring. -/
def ringWaits (s : State) (r : Nat) : Bool := s.port.evq.wait.any fun x => x.ls.ext && x.ls.src == 24 && x.ls.sub == r

/-- R517 for Reeve. -/
def reeveWaits (s : State) : Bool := s.port.evq.wait.any fun x => x.ls.pol == 0xFF && x.ls.src == 31

end Sys2Proof.Machine
end

