-- ==== Sys2Proof/Machine/Flags.lean ====
section
/-! DEFINITION. The flag rules: FPCTL's sticky flags (R141), the adders' operations with the flags they raise (R426, R428), and
which flags an instruction family may raise. -/

namespace Sys2Proof.Machine

/-- OR flags into FPCTL [4:0] (R141). -/
def raise (fpctl : Word) (fl : Nat) : Word := fpctl ||| BitVec.ofNat 64 (fl % 32)

/-- FPCTL.RM. -/
def rmOf (fpctl : Word) : Nat := fld fpctl 8 3

/-- The element format of an OPFMT of Table 8-6: a number format, or none for bitwise 32 and 64 bits. -/
def opFmt : Nat → Option Nat
  | 0 => some 0 | 1 => some 1 | 2 => some 3 | 3 => some 14 | 4 => some 15 | _ => none

/-- Bytes of one element of an OPFMT (R425). -/
def opSize : Nat → Nat
  | 0 => 8 | 1 => 4 | 2 => 2 | 3 => 4 | 4 => 8 | 5 => 4 | _ => 8

/-- Is (OP, OPFMT) a row of Table 12-7. -/
def opValid (op fmt : Nat) : Bool := (op ≤ 2 && fmt ≤ 4) || ((op = 3 || op = 4) && (fmt = 5 || fmt = 6))

/-- One adder operation on one element (Table 12-7): the new element and the flags (R428). -/
def adderOp (op fmt old x c : Nat) : FRes :=
  match op with
  | 0 => match opFmt fmt with
    | some f => if fIsInt f then ⟨(old + x) % 2 ^ fBits f, 0⟩ else fAdd f 0 old x
    | none => ⟨old, 0⟩
  | 3 => ⟨x, 0⟩
  | 4 => ⟨if old = c then x else old, 0⟩
  | _ => match opFmt fmt with
    | some f =>
      if fIsInt f then
        let a := sext (fBits f) old
        let b := sext (fBits f) x
        ⟨if (op = 1 && b < a) || (op ≠ 1 && a < b) then x else old, 0⟩
      else ⟨fMaxMin (op ≠ 1) f old x, 0⟩
    | none => ⟨old, 0⟩

end Sys2Proof.Machine
end

