-- ==== Sys2Proof/Machine/Mem.lean ====
section
/-! DEFINITION. Near and far memory at their homes: the address map (R399–R401, R406), check codes (R411, R412), the near cache
(R413–R424) and the memory-side adders (R425–R429). `State.mem` holds the coherent bytes (R96, log 6). -/

namespace Sys2Proof.Machine

/-! ### The address map (Table 12-1) -/

def farBase : Nat := 0x10000000000
def reserveBase : Nat := 0x1FC00000000
def windowBase : Nat := 0xF0000000000

def isNear (pa : Nat) : Bool := pa < 0xC000000000
def isFar (pa : Nat) : Bool := farBase ≤ pa && pa < reserveBase
def isWindow (pa : Nat) : Bool := windowBase ≤ pa && pa < 2 ^ 44

/-- The die that is home of an address: its stack's CD, or the FM die of its 4 KiB unit (R401, R406). -/
def homeDie (pa : Nat) : Nat := if isNear pa then pa >>> 35 else 25 + (pa - farBase) / 4096 % 4

/-- The LPDDR5X package of a far-memory address, 0 to 31 over the device (R406). -/
def packageOf (pa : Nat) : Nat := (pa - farBase) / 4096 % 4 * 8 + (pa - farBase) / 4096 / 4 % 8

/-- The far-memory slice of an address. -/
def sliceOf (pa : Nat) : Nat := (pa - farBase) / 2 ^ 34

/-- The polder that owns an address, 0xFF for none (R32). -/
def paOwner (s : State) (pa : Nat) : Nat :=
  if isNear pa then (cdAt s (pa >>> 35)).polder else if isFar pa then tget 0xFF s.phiro.sliceOwner (sliceOf pa) else 0xFF

/-- R33, R400: an address outside the memory of polder `p`. -/
def outside (s : State) (p pa : Nat) : Bool := paOwner s pa ≠ p

/-! ### Paths (R461, R468–R470) -/

/-- The links of a die to a hub (Table 14-1); SRC encoding: 0–23 CDs, 24 NW, 25–28 FM dies, 31 MG. -/
def bundle (die hub : Nat) : List Nat :=
  if die < 24 then span (9 * die + 4 * hub) 4
  else if 25 ≤ die && die ≤ 28 then span (216 + 4 * (die - 25) + 2 * hub) 2
  else if die = 24 then [232 + hub] else [234 + hub]

/-- A link that is down (Table 14-6). -/
def linkDown (s : State) (k : Nat) : Bool := (linkAt s k).state == 5

/-- Has a die lost its whole bundle to a hub. -/
def bundleLost (s : State) (die hub : Nat) : Bool := (bundle die hub).all (linkDown s)

/-- The hubs in service. -/
def hubsIn (s : State) : List Nat := (if s.fabric.hub0 then [0] else []) ++ (if s.fabric.hub1 then [1] else [])

/-- The hub that a transaction takes: that of bit [8] of its address while both serve (R23), else the other (R25, R469, R470); none where no
hub in service joins the two dies. -/
def routeHub (s : State) (src home pa : Nat) : Option Nat :=
  let ok := fun (h : Nat) => (hubsIn s).contains h && !bundleLost s src h && !bundleLost s home h
  let h := pa / 256 % 2
  if ok h then some h else if ok (1 - h) then some (1 - h) else none

/-- The hub of a polder's issue broadcasts (R24, R25); none where no hub is in service. -/
def issueHub (s : State) (p : Nat) : Option Nat :=
  if (hubsIn s).length = 2 then some (leadOf s p % 2) else (hubsIn s).head?

/-- The record of a payload that a lost bundle ends with TX_LINK (R469, R485). -/
def lostRec (s : State) (ls : LS) (cd hub kind : Nat) : Record :=
  mkRec s ls 0x23 1 cd 0
    (fabBytes { link := 9 * cd + 4 * hub, status := 2, tag := lostTag s kind, dest := 29 + hub, deadline := s.dt + s.phiro.txnTimeout * dtUs })

/-- Can a request of one die reach the home of an address: a CD's own stack needs no hop. -/
def reach (s : State) (src home pa : Nat) : Bool := src == home || (routeHub s src home pa).isSome

/-! ### Requests -/

/-- Who asks a home for memory: issuing die, logical stamp, requester class of Table 2-7 where it allocates, polder, requester. -/
structure MemCtx where
  src : Nat
  ls : LS
  cls : Option Nat
  p : Nat
  req : Requester
  deriving DecidableEq, Repr

/-- Why a request failed: an uncorrectable codeword at an address (R412) or an address that no path reaches, which meets the same outcomes (R485), or
a dirty near-cache line lost (Table 12-6). -/
inductive MemErr where
  | uncorr (cw : Nat)
  | lost
  deriving DecidableEq, Repr

/-- Symbols in error of the codeword that holds an address. -/
def badAt (s : State) (pa : Nat) : Nat := tget 0 s.health.bad (pa / 32)
def setBad (s : State) (cw n : Nat) : State := { s with health := { s.health with bad := tset 0 s.health.bad cw n } }

/-- The codewords that [pa, pa+len) touches. -/
def codewords (pa len : Nat) : List Nat := if len = 0 then [] else span (pa / 32) ((pa + len - 1) / 32 - pa / 32 + 1)

/-- The codewords that [pa, pa+len) covers whole. -/
def coversCw (pa len cw : Nat) : Bool := pa ≤ cw * 32 && cw * 32 + 32 ≤ pa + len

/-! ### The near cache -/

def ncOf (s : State) (cd : Nat) : Nc := (cdAt s cd).nc
def modNc (s : State) (cd : Nat) (f : Nc → Nc) : State := modCd s cd fun c => { c with nc := f c.nc }

/-- The cells of an atom as listed. -/
def atomCells (m : Memory) (atom : Nat) : List Host.Cell := m.filter fun c => atom * 256 ≤ c.1 && c.1 < atom * 256 + 256

/-- Put listed cells back as the content of an atom. -/
def putAtom (m : Memory) (atom : Nat) (cells : List Host.Cell) : Memory :=
  cells.foldl (fun m c => mset m c.1 c.2) (mzero m (atom * 256) 256)

/-- A dirty line written to its stack replaces every codeword of its atom whole (R412). -/
def wbHealth (s : State) (l : NcLine) : State :=
  if l.dirty then (span (l.atom * 8) 8).foldl (fun s cw => setBad s cw 0) s else s

/-- Take lines out of a near cache with their bytes written back where dirty. -/
def ncDrop (s : State) (cd : Nat) (q : NcLine → Bool) : State :=
  let nc := ncOf s cd
  let s := (nc.lines.filter q).foldl wbHealth s
  modNc s cd fun nc => { nc with lines := nc.lines.filter fun l => !q l }

/-- Write back the dirty lines a test selects, leaving them valid and clean (R422). -/
def ncClean (s : State) (cd : Nat) (q : NcLine → Bool) : State :=
  let nc := ncOf s cd
  let s := (nc.lines.filter q).foldl wbHealth s
  modNc s cd fun nc => { nc with lines := nc.lines.map fun l => if q l then { l with dirty := false, stale := [] } else l }

/-- Discard every line without write-back (R419): a dirty line's bytes are lost and the stack's older ones show. -/
def ncDiscard (s : State) (cd : Nat) : State :=
  let s := (ncOf s cd).lines.foldl (fun s l => if l.dirty then { s with mem := putAtom s.mem l.atom l.stale } else s) s
  modNc s cd fun nc => { nc with lines := [] }

/-- The way in which a class allocates (R417): an invalid permitted way first, else the least recently used permitted one. -/
def ncWay (lines : List NcLine) (set mask : Nat) : Nat × Option NcLine :=
  let inSet := lines.filter fun l => !l.victim && l.atom % 16384 == set
  match (setBitsOf 16 mask).find? fun w => !inSet.any fun l => l.way == w with
  | some w => (w, none)
  | none => match (inSet.filter fun l => bit mask l.way).getLast? with
    | some l => (l.way, some l)
    | none => (0, none)

/-- The ways that requester class `c` of the CD's polder may allocate (R60); every way on a CD of no polder. -/
def wayMask (s : State) (cd c : Nat) : Nat :=
  let p := (cdAt s cd).polder
  if p < 24 then ((polder s p).sec.waymask.getD c 0xFFFF).toNat else 0xFFFF

/-- The built way behind a used way (Table 2-10): the way left out is served by way 16. -/
def builtWay (m : SpareMap) (way : Nat) : Nat := if way = m.wayOut then 16 else way

/-- The unit field of a near-cache way (Table 17-2). -/
def ncUnit (s : State) (cd way : Nat) : Nat := 0x4000 + builtWay (spareMap s cd) way

/-- Note a parity error on a clean line of a way, or that a way is due a swap (Table 17-6). -/
def wayHit (s : State) (key : Nat) : State :=
  { s with health := { s.health with wayHits := tset [] s.health.wayHits key (tget [] s.health.wayHits key ++ [s.dt]) } }
def wayBad (s : State) (key : Nat) : State := { s with health := { s.health with wayDue := insertNat s.health.wayDue key } }

/-- What a lookup found. -/
inductive NcHit where
  | miss
  | hit
  | lost
  deriving DecidableEq, Repr

/-- A line with a parity error (Table 12-6): a clean line is invalidated and refetched, a dirty one is lost with its polder. -/
def ncParity (s : State) (cd : Nat) (l : NcLine) (ls : LS) : NcHit × State :=
  let s' := modNc s cd fun nc => { nc with lines := nc.lines.filter fun x => x.atom ≠ l.atom }
  let addr := l.atom * 256
  if l.perr = 1 && !l.dirty then
    let s' := modNc s' cd fun nc => { nc with perrClean := satInc nc.perrClean 0xFFFF }
    let s' := wayHit s' (cd * 32 + l.way)
    let r := mkRec s' ls 0x12 0 cd (ncUnit s' cd l.way) (errBytes { addr := addr })
    (.miss, postCoalesced s' r addr)
  else
    let s' := wayBad (if l.dirty then { s' with mem := putAtom s'.mem l.atom l.stale } else s') (cd * 32 + l.way)
    let p := (cdAt s' cd).polder
    let ls := if p < 24 then { ls with pol := p } else lsDevice cd
    (.lost, detect s' (mkRec s' ls 0x12 2 cd (ncUnit s' cd l.way) (errBytes { addr := addr })) false)

/-- A line that a write-back cannot vouch for: dirty with a parity error, or with an error in its state bits (Table 12-6). -/
def lineLost (l : NcLine) : Bool := l.perr == 2 || (l.perr == 1 && l.dirty)

/-- Put a line into its set as most recently used; a replaced line enters the victim cache, whose oldest line leaves it when it
holds 128 (R414, R417): a line that its write-back cannot vouch for is lost (R418, R424). -/
def ncInsert (s : State) (cd mask : Nat) (l : NcLine) : State :=
  let lines := (ncOf s cd).lines
  let (w, out) := ncWay lines (l.atom % 16384) mask
  let l := { l with way := w, victim := false }
  match out with
  | none => modNc s cd fun nc => { nc with lines := l :: lines }
  | some o =>
    let lines := l :: { o with victim := true } :: lines.filter fun x => x.atom ≠ o.atom
    let s := modNc s cd fun nc => { nc with lines := lines }
    if 128 < (lines.filter (·.victim)).length then
      match (lines.filter (·.victim)).getLast? with
      | some v => if lineLost v then (ncParity s cd v (lsDevice cd)).2 else ncDrop s cd fun x => x.atom == v.atom
      | none => s
    else s

/-- Look an address up before its stack (R413): a hit moves the line to the front, and to its set from the victim cache. -/
def ncLookup (s : State) (pa : Nat) (cls : Option Nat) (ls : LS) : NcHit × State :=
  let cd := pa >>> 35
  if !isNear pa then (.miss, s)
  else match (ncOf s cd).lines.find? fun l => l.atom == pa / 256 with
    | none => (.miss, s)
    | some l =>
      if l.perr ≠ 0 then ncParity s cd l ls
      else
        let s' := modNc s cd fun nc => { nc with lines := nc.lines.filter fun x => x.atom ≠ l.atom }
        match l.victim, cls with
        | true, some c => (.hit, ncInsert s' cd (wayMask s cd c) l)
        | true, none => (.hit, s)
        | false, _ => (.hit, modNc s' cd fun nc => { nc with lines := l :: nc.lines })

/-- The first codeword of a list that cannot be corrected. -/
def firstBad (s : State) (cws : List Nat) : Option Nat := cws.find? fun cw => 2 ≤ badAt s (cw * 32)

/-- Does a miss of a class fill a line (R415): the cache is enabled, and every codeword of the atom that the fill reads (all but those of
`keep`) can be corrected (Table 12-3). -/
def ncFills (s : State) (pa : Nat) (cls : Option Nat) (keep : Nat → Bool) : Bool :=
  cls.isSome && isNear pa && (ncOf s (pa >>> 35)).state == 2 && (firstBad s ((span (pa / 256 * 8) 8).filter fun cw => !keep cw)).isNone

/-- Allocate the line of a miss for its class (R415), while the cache is enabled. -/
def ncAlloc (s : State) (pa : Nat) (cls : Option Nat) : State :=
  let cd := pa >>> 35
  match cls with
  | some c =>
    if isNear pa && (ncOf s cd).state == 2 then
      ncInsert s cd (wayMask s cd c) { atom := pa / 256, way := 0, victim := false, dirty := false, perr := 0, stale := [] }
    else s
  | none => s

/-- Mark the line of an address dirty before its bytes change; the stack keeps what it held. -/
def ncDirty (s : State) (pa : Nat) : State :=
  if isNear pa then
    let cells := atomCells s.mem (pa / 256)
    modNc s (pa >>> 35) fun nc => { nc with lines := nc.lines.map fun l =>
      if l.atom = pa / 256 && !l.dirty then { l with dirty := true, stale := cells } else l }
  else s

/-! ### Corrected reads -/

/-- Count a corrected read (R407, R411, R546) and post its MEM_CORR record. -/
def corrected (s : State) (m : MemCtx) (cw : Nat) : State :=
  let pa := cw * 32
  let frame := pa / 4096
  let h := s.health
  let h := if isFar pa then { h with frameErr := tset 0 h.frameErr frame (tget 0 h.frameErr frame + 1) } else h
  let h := if isNear pa then
      let key := (pa >>> 35) * 2 ^ 32 + Config.dramRow pa
      { h with rowHits := tset [] h.rowHits key (tget [] h.rowHits key ++ [s.dt]) }
    else h
  let s := { s with health := h }
  postCoalesced s (mkRec s m.ls 0x10 0 (homeDie pa) 0 (errBytes { addr := pa, reqClass := m.cls.getD 0xFF, symbols := 1 })) pa

/-- Post MEM_CORR for every corrected codeword of a list. -/
def correctAll (s : State) (m : MemCtx) (cws : List Nat) : State :=
  (cws.filter fun cw => badAt s (cw * 32) == 1).foldl (fun s cw => corrected s m cw) s

/-! ### Reads, writes and updates at the home: each within one atom -/

/-- An access to far memory wakes its package from self-refresh (R597). -/
def wakePackage (s : State) (pa : Nat) : State :=
  if isFar pa then { s with health := { s.health with selfRefresh := tset false s.health.selfRefresh (packageOf pa) false } } else s

/-- Does a home hold accesses to an address: its frame (R408) or its DRAM row (Table 17-5) is being copied. -/
def frameHeld (s : State) (pa : Nat) : Bool :=
  s.health.copying.contains (pa / 4096) || (isNear pa && (cdAt s (pa >>> 35)).rowCopy.contains (Config.dramRow pa))

/-- Read bytes of one atom at its home. -/
def readHome (s : State) (m : MemCtx) (pa len : Nat) : Except MemErr (List Byte) × State :=
  let s := wakePackage s pa
  if !reach s m.src (homeDie pa) pa then (.error (.uncorr pa), s) else
  match ncLookup s pa m.cls m.ls with
  | (.lost, s) => (.error .lost, s)
  | (.hit, s) => (.ok (mgetN s.mem pa len), s)
  | (.miss, s) =>
    match firstBad s (codewords pa len) with
    | some cw => (.error (.uncorr (cw * 32)), s)
    | none =>
      if ncFills s pa m.cls fun _ => false then
        let s := ncAlloc (correctAll s m (span (pa / 256 * 8) 8)) pa m.cls
        (.ok (mgetN s.mem pa len), s)
      else
        let s := correctAll s m (codewords pa len)
        (.ok (mgetN s.mem pa len), s)

/-- Read bytes of one atom; the request holds a tag of its die for its time in flight (R478). -/
def readAtom (s : State) (m : MemCtx) (pa len : Nat) : Except MemErr (List Byte) × State := readHome (tagPulse s m.src) m pa len

/-- Write bytes of one atom at its home: codewords covered whole are replaced with their check code, those covered in part are read, corrected
and merged (R402, R412). A write that fills a line changes the line, and the stack's codewords stay as they are until it is written back (R415). -/
def writeHome (s : State) (m : MemCtx) (pa : Nat) (data : List Byte) : Option MemErr × State :=
  let len := data.length
  let s := wakePackage s pa
  if !reach s m.src (homeDie pa) pa then (some (.uncorr pa), s) else
  match ncLookup s pa m.cls m.ls with
  | (.lost, s) => (some .lost, s)
  | (.hit, s) => let s := ncDirty s pa; (none, { s with mem := msetN s.mem pa data })
  | (.miss, s) =>
    let part := (codewords pa len).filter fun cw => !coversCw pa len cw
    match firstBad s part with
    | some cw => (some (.uncorr (cw * 32)), s)
    | none =>
      if ncFills s pa m.cls (coversCw pa len) then
        let s := correctAll s m ((span (pa / 256 * 8) 8).filter fun cw => !coversCw pa len cw)
        let s := ncDirty (ncAlloc s pa m.cls) pa
        (none, { s with mem := msetN s.mem pa data })
      else
        let s := correctAll s m part
        let s := (codewords pa len).foldl (fun s cw => setBad s cw 0) s
        (none, { s with mem := msetN s.mem pa data })

/-- Write bytes of one atom under a tag. -/
def writeAtom (s : State) (m : MemCtx) (pa : Nat) (data : List Byte) : Option MemErr × State := writeHome (tagPulse s m.src) m pa data

/-- What an update returns: old elements and the flags raised. -/
structure UpdRes where
  old : List Nat
  fl : Nat
  deriving DecidableEq, Repr

/-- The elements of a byte string. -/
def elemsOf (size : Nat) : Nat → List Byte → List Nat
  | 0, _ => []
  | n + 1, bs => natLE (bs.take size) :: elemsOf size n (bs.drop size)

/-- A memory-side update of consecutive elements of one atom, one indivisible step (R118, R425, R426). It allocates no line (R416). -/
def updateHome (s : State) (m : MemCtx) (pa op fmt : Nat) (xs : List Nat) (c : Nat) : Except MemErr UpdRes × State :=
  let sz := opSize fmt
  let len := sz * xs.length
  let s := wakePackage s pa
  let apply := fun (s : State) =>
    let old := elemsOf sz xs.length (mgetN s.mem pa len)
    let rs := (old.zip xs).map fun e => adderOp op fmt e.1 e.2 c
    let data := (rs.map fun r => bytesLE sz r.v).flatten
    (({ old := old, fl := rs.foldl (fun f r => f ||| r.fl) 0 } : UpdRes), { s with mem := msetN s.mem pa data })
  if !reach s m.src (homeDie pa) pa then (.error (.uncorr pa), s) else
  match ncLookup s pa none m.ls with
  | (.lost, s) => (.error .lost, s)
  | (.hit, s) => let (r, s) := apply (ncDirty s pa); (.ok r, s)
  | (.miss, s) =>
    match firstBad s (codewords pa len) with
    | some cw => (.error (.uncorr (cw * 32)), s)
    | none =>
      let s := correctAll s m (codewords pa len)
      let s := (codewords pa len).foldl (fun s cw => setBad s cw 0) s
      let (r, s) := apply s
      (.ok r, s)

/-- A memory-side update under a tag. -/
def updateAtom (s : State) (m : MemCtx) (pa op fmt : Nat) (xs : List Nat) (c : Nat) : Except MemErr UpdRes × State :=
  updateHome (tagPulse s m.src) m pa op fmt xs c

/-- The pieces of [pa, pa+len) within single atoms. -/
def atomPieces : Nat → Nat → Nat → List (Nat × Nat)
  | 0, _, _ => []
  | fuel + 1, pa, len =>
    if len = 0 then []
    else
      let n := min len (256 - pa % 256)
      (pa, n) :: atomPieces fuel (pa + n) (len - n)

/-- Every atom piece of a span. -/
def pieces (pa len : Nat) : List (Nat × Nat) := atomPieces (len / 256 + 2) pa len

/-- Read a contiguous physical span, atom by atom. -/
def readSpan (s : State) (m : MemCtx) : List (Nat × Nat) → Except MemErr (List Byte) × State
  | [] => (.ok [], s)
  | (pa, n) :: rest =>
    match readAtom s m pa n with
    | (.error e, s) => (.error e, s)
    | (.ok d, s) => match readSpan s m rest with
      | (.error e, s) => (.error e, s)
      | (.ok ds, s) => (.ok (d ++ ds), s)

/-- Write a span given as pieces with their bytes. -/
def writeSpan (s : State) (m : MemCtx) : List (Nat × Nat) → List Byte → Option MemErr × State
  | [], _ => (none, s)
  | (pa, n) :: rest, data =>
    match writeAtom s m pa (data.take n) with
    | (some e, s) => (some e, s)
    | (none, s) => writeSpan s m rest (data.drop n)

/-- The record of a request that no path reached: TX_LINK (R485, Table 14-8); the number and generation of its TAG are free values (log 3). -/
def unreachedRec (s : State) (m : MemCtx) (cls kind pa : Nat) : Record :=
  let lost := ([m.src, homeDie pa].flatMap fun d => [(d, 0), (d, 1)]).filter fun x => bundleLost s x.1 x.2
  mkRec s m.ls 0x23 cls m.src 0
    (fabBytes { link := match lost with | x :: _ => (bundle x.1 x.2).headD 0 | [] => 0xFFFF, status := 2,
                tag := lostTag s kind, dest := homeDie pa, addr := pa, deadline := s.dt + s.phiro.txnTimeout * dtUs })

/-- The record of a failed request of a kind (Table 14-4): MEM_UNCORR (Table 17-4), or TX_LINK where no path reached its home. -/
def failRec (s : State) (m : MemCtx) (cls kind cw : Nat) : Record :=
  if !reach s m.src (homeDie cw) cw then unreachedRec s m cls kind cw else
  mkRec s m.ls 0x11 cls (homeDie cw) 0 (errBytes { addr := cw, reqClass := m.cls.getD 0xFF, symbols := 2 })

/-- The record of a failed read, and of a failed write. -/
def uncorrRec (s : State) (m : MemCtx) (cls cw : Nat) : Record := failRec s m cls 0 cw
def uncorrRecW (s : State) (m : MemCtx) (cls cw : Nat) : Record := failRec s m cls 1 cw

end Sys2Proof.Machine
end

