-- ==== Sys2Proof/Machine/Xlat.lean ====
section
/-! DEFINITION. Address translation (chapter 13): PTEs, walks, the cached structures of Table 13-4, resolution of placement (R403),
and not-present faults. -/

namespace Sys2Proof.Machine

/-! ### PTEs (Table 13-3) -/

/-- Shift of a page of a leaf level (Table 13-2). -/
def pageShift : Nat → Nat
  | 0 => 39 | 1 => 30 | 2 => 21 | _ => 16

/-- Index of a virtual address at a level. -/
def vaIndex (va lvl : Nat) : Nat := if lvl = 3 then bits va 16 5 else bits va (pageShift lvl) 9

/-- ADDR as a physical or striped address. -/
def pteAddr (e : Word) : Nat := fld e 8 36 <<< 8
def pteV (e : Word) : Bool := bit e.toNat 0
def pteLeaf (e : Word) : Bool := bit e.toNat 1

/-- R435. -/
def malformed (s : State) (p : Nat) (e : Word) (lvl : Nat) : Bool :=
  let leaf := pteLeaf e
  fld e 44 12 ≠ 0 || fld e 6 2 == 3 || (leaf && lvl == 0) || (!leaf && lvl == 3) || (!leaf && fld e 2 6 ≠ 0) ||
    (if leaf then pteAddr e % 2 ^ pageShift lvl ≠ 0 else (lvl < 2 && pteAddr e % 4096 ≠ 0) || outside s p (pteAddr e))

/-- R437: may a request use a leaf. `access` has bit 0 read, bit 1 write, bit 2 fetch. -/
def admits (e : Word) (lvl access : Nat) (user : Bool) (cls : Nat) : Bool :=
  (!bit access 0 || bit e.toNat 2) && (!bit access 1 || bit e.toNat 3) && (!bit access 2 || bit e.toNat 4) &&
    (!user || bit e.toNat 5) && (lvl ≠ 3 || cls ≤ 2)

/-- R403: the physical address of a virtual address through a leaf; none is a violation OUTSIDE. -/
def resolve (s : State) (p : Nat) (e : Word) (lvl va : Nat) : Option Nat :=
  let a := pteAddr e + va % 2 ^ pageShift lvl
  let place := if fld e 6 2 = 0 then (polder s p).sec.placeDefault else fld e 6 2 - 1
  let n := nMembers s p
  if farBase ≤ a then some a
  else if place = 0 then some a
  else if n * 2 ^ 35 ≤ a then none
  else
    let u := a / 4096
    some (cdOfRank s p (u % n) * 2 ^ 35 + u / n * 4096 + a % 4096)

/-! ### Spaces and tags (Table 13-1) -/

/-- The root register of a request's space: its value. -/
def rootOf (s : State) (q : XlatReq) : Word :=
  if q.space = 0 then (polder s q.p).ptb else if q.space = 1 then (core s q.p).dtb else (core s q.p).itb

def isI (q : XlatReq) : Bool := q.space == 2

/-- A cached translation serves only requests that carry its tag (R431). -/
def tlbHit (q : XlatReq) (t : Tlb) : Bool :=
  t.p == q.p && t.asid == q.asid && t.ispace == isI q && t.page == q.va >>> pageShift t.level

/-- Look up, moving the entry to the front (least recently used goes last). -/
def tlbFind (q : XlatReq) (l : List Tlb) : Option (Tlb × List Tlb) :=
  match l.find? (tlbHit q) with
  | some t => some (t, t :: l.filter (· ≠ t))
  | none => none

/-- Insert at the front of a structure of `cap` entries. -/
def tlbPut (cap : Nat) (t : Tlb) (l : List Tlb) : List Tlb := (t :: l.filter (· ≠ t)).take cap

/-- The entry that caches a leaf for a request. -/
def tlbOf (q : XlatReq) (e : Word) (lvl : Nat) : Tlb :=
  { p := q.p, asid := q.asid, ispace := isI q, page := q.va >>> pageShift lvl, level := lvl, pte := e }

/-- A request of the lead core that uses the core's own copies: fetches and data, not vector accesses. -/
def isCore (q : XlatReq) : Bool := q.cls ≤ 1

/-- Fill the structures of R442 with a leaf for a request; a request of NW (`cd` 24) has no copy of a CD. -/
def fillLeaf (s : State) (q : XlatReq) (e : Word) (lvl : Nat) (ctu : Bool) : State :=
  let t := tlbOf q e lvl
  let x := s.xlat
  let x := if ctu then { x with central := tlbPut 32768 t x.central } else x
  let x := if (lvl = 1 || lvl = 2) && q.cd < 24 then { x with cdTlb := tset [] x.cdTlb q.cd (tlbPut 4096 t (tget [] x.cdTlb q.cd)) } else x
  let x := if isCore q then
      if isI q then { x with coreI := tset [] x.coreI q.cd (tlbPut 64 t (tget [] x.coreI q.cd)) }
      else { x with coreD := tset [] x.coreD q.cd (tlbPut 64 t (tget [] x.coreD q.cd)) }
    else x
  { s with xlat := x }

/-- Fill the walk cache of a request's CD with a level-1 non-leaf entry. -/
def fillWalk (s : State) (q : XlatReq) (e : Word) : State :=
  let w : WalkEntry := { p := q.p, asid := q.asid, ispace := isI q, region := q.va >>> 30, pte := e }
  let l := tget [] s.xlat.walkCache q.cd
  if 24 ≤ q.cd then s else { s with xlat := { s.xlat with walkCache := tset [] s.xlat.walkCache q.cd ((w :: l.filter (· ≠ w)).take 256) } }

/-! ### Walks (R436) -/

/-- How a walk ends. -/
inductive WalkEnd where
  | absent (pa lvl : Nat)
  | malformed (lvl : Nat)
  | leaf (e : Word) (lvl : Nat)
  | failed (pa lvl : Nat)
  deriving DecidableEq, Repr

/-- The context of a walk read: class 5 (R436), issued by the CTU on NW or by a CD. -/
def walkCtx (s : State) (q : XlatReq) (src : Nat) : MemCtx :=
  { src := src, ls := lsCore s q.p, cls := some 5, p := q.p, req := .walker q.p }

/-- Read one entry. -/
def readPte (s : State) (q : XlatReq) (src pa : Nat) : Option Word × State :=
  match readAtom s (walkCtx s q src) pa 8 with
  | (.ok d, s) => (some (toW (natLE d)), s)
  | (.error _, s) => (none, s)

/-- A walk's end with the non-leaf entries of levels 1 and 2 that it read. -/
structure Walked where
  fin : WalkEnd
  l1 : Option Word
  l2 : Option Word
  deriving DecidableEq, Repr

/-- Walk from the table `t` at level `lvl` down (R436). -/
def walkFrom (s : State) (q : XlatReq) : Nat → Nat → Nat → Option Word → Option Word → Walked × State
  | 0, _, _, l1, l2 => (⟨.malformed 3, l1, l2⟩, s)
  | fuel + 1, t, lvl, l1, l2 =>
    let pa := t + 8 * vaIndex q.va lvl
    match readPte s q 24 pa with
    | (none, s) => (⟨.failed pa lvl, l1, l2⟩, s)
    | (some e, s) =>
      if !pteV e then (⟨.absent pa lvl, l1, l2⟩, s)
      else if malformed s q.p e lvl then (⟨.malformed lvl, l1, l2⟩, s)
      else if pteLeaf e then (⟨.leaf e lvl, l1, l2⟩, s)
      else walkFrom s q fuel (pteAddr e) (lvl + 1) (if lvl = 1 then some e else l1) (if lvl = 2 then some e else l2)

/-- Is a request's space enabled: EN of its root (R432). -/
def spaceOn (s : State) (q : XlatReq) : Bool := bit (rootOf s q).toNat 0

/-- The root table of a request's space. -/
def rootTable (s : State) (q : XlatReq) : Nat := fld (rootOf s q) 12 32 <<< 12

/-- A walk from the root by the CTU; a root with EN 0 or outside the polder's memory is a permission fault (R432). -/
def walkRoot (s : State) (q : XlatReq) : Walked × State :=
  if !spaceOn s q || outside s q.p (rootTable s q) then (⟨.malformed 0, none, none⟩, s) else walkFrom s q 4 (rootTable s q) 0 none none

/-- A walk that goes on from a level-2 entry (R440). -/
def walkOn (s : State) (q : XlatReq) (l1 : Option Word) (e : Word) : Walked × State := walkFrom s q 1 (pteAddr e) 3 l1 (some e)

/-- The structures that a CTU walk's leaf fills for one request (R442). -/
def fillWalked (s : State) (q : XlatReq) (e : Word) (lvl : Nat) (l1 : Option Word) : State :=
  match l1 with
  | some w => fillWalk (fillLeaf s q e lvl true) q w
  | none => fillLeaf s q e lvl true

/-! ### The CTU's walkers and waiting list (R440, R441, R443) -/

/-- Do two requests miss together: the same tag and the same VA bits [47:21] (R440). -/
def sameMiss (a b : XlatReq) : Bool := a.p == b.p && a.asid == b.asid && isI a == isI b && a.va >>> 21 == b.va >>> 21

/-- CTU walkers that may be active: 32 of the 33 built while no more than one has failed (Table 13-4, R443). -/
def walkersMax (s : State) : Nat := min 32 (33 - s.xlat.walkersOut.length)

/-- The waiting list holds 4,096 requests, for a walk or for a resume (Table 13-4). -/
def waitFull (s : State) : Bool := 4096 ≤ s.xlat.waiting.length + (s.xlat.faults.map (·.waiters.length)).sum

/-- A miss joins the walk in flight, or the waiting list while it has room. -/
def joinMiss (s : State) (q : XlatReq) : State :=
  if s.xlat.walks.any fun w => w.reqs.contains q then s
  else if s.xlat.walks.any fun w => w.reqs.any (sameMiss q) then
    { s with xlat := { s.xlat with walks := s.xlat.walks.map fun w => if w.reqs.any (sameMiss q) then { w with reqs := w.reqs ++ [q] } else w } }
  else if waitFull s || s.xlat.waiting.contains q then s
  else { s with xlat := { s.xlat with waiting := s.xlat.waiting ++ [q] } }

/-- Does a miss have to wait: a walk in flight takes it, no walker is free, or the waiting list is full (R440, R441). -/
def missWaits (s : State) (q : XlatReq) : Bool :=
  (s.xlat.walks.any fun w => w.reqs.any (sameMiss q)) || walkersMax s ≤ s.xlat.walks.length || waitFull s

/-- What a translation gives its request; `busy`: it waits for a walk. -/
inductive XRes where
  | busy
  | ok (pa : Nat)
  | perm
  | outside
  | absent (pa lvl : Nat)
  | failed (pa : Nat)
  deriving DecidableEq, Repr

/-- Judge a request on a leaf (R437, R403, R33). -/
def judge (s : State) (q : XlatReq) (e : Word) (lvl : Nat) : XRes :=
  if !admits e lvl q.access q.user q.cls then .perm
  else match resolve s q.p e lvl q.va with
    | none => .outside
    | some pa => if outside s q.p pa then .outside else .ok pa

/-- The end of a walk for one request, with the structures of R442 filled at a leaf. -/
def walkResult (s : State) (q : XlatReq) (w : Walked) : XRes × State :=
  match w.fin with
  | .absent pa lvl => (.absent pa lvl, s)
  | .malformed _ => (.perm, s)
  | .failed pa _ => (.failed pa, s)
  | .leaf e lvl => let s := fillWalked s q e lvl w.l1; (judge s q e lvl, s)

/-- The CTU: its central TLB, else a walk from the root (R439, R442); `now`: for a request that joins no walk and waits for no walker (log 27). -/
def ctuWith (now : Bool) (s : State) (q : XlatReq) : XRes × State :=
  if !spaceOn s q then (.perm, s)
  else match tlbFind q s.xlat.central with
    | some (t, l) =>
      let s := fillLeaf { s with xlat := { s.xlat with central := l } } q t.pte t.level true
      (judge s q t.pte t.level, s)
    | none =>
      if !now && missWaits s q then (.busy, s)
      else let (w, s) := walkRoot s q; walkResult s q w

def ctuTranslate : State → XlatReq → XRes × State := ctuWith true

/-- The level-1 entry that a CD's walk cache holds on a request's path; it becomes the most recently used (R438). -/
def walkHit (s : State) (q : XlatReq) : Option WalkEntry × State :=
  let l := tget [] s.xlat.walkCache q.cd
  match l.find? fun w => w.p == q.p && w.asid == q.asid && w.ispace == isI q && w.region == q.va >>> 30 with
  | some w => (some w, { s with xlat := { s.xlat with walkCache := tset [] s.xlat.walkCache q.cd (w :: l.filter (· ≠ w)) } })
  | none => (none, s)

/-- The local walker of a CD: with the level-1 entry in the walk cache it reads the level-2 entry; a leaf that admits the request
resolves it, every other outcome goes to the CTU (R439). -/
def localWith (now : Bool) (s : State) (q : XlatReq) : XRes × State :=
  match walkHit s q with
  | (none, s) => ctuWith now s q
  | (some w, s) =>
    match readPte s q q.cd (pteAddr w.pte + 8 * vaIndex q.va 2) with
    | (none, s) => ctuWith now s q
    | (some e, s) =>
      if pteV e && !malformed s q.p e 2 && pteLeaf e && admits e 2 q.access q.user q.cls then
        let s := fillLeaf s q e 2 false
        (judge s q e 2, s)
      else ctuWith now s q

/-- The nearest copy of a request's translations. -/
def nearCopy (s : State) (q : XlatReq) : List Tlb :=
  if isCore q then (if isI q then tget [] s.xlat.coreI q.cd else tget [] s.xlat.coreD q.cd) else tget [] s.xlat.cdTlb q.cd

/-- Translate a request: its nearest copy, then a local walker (R438, R439); one whose space has EN 0 meets a permission fault (R432). -/
def translateWith (now : Bool) (s : State) (q : XlatReq) : XRes × State :=
  if !spaceOn s q then (.perm, s) else
  match tlbFind q (nearCopy s q) with
  | some (t, l) =>
    let x := if isCore q then
        (if isI q then { s.xlat with coreI := tset [] s.xlat.coreI q.cd l } else { s.xlat with coreD := tset [] s.xlat.coreD q.cd l })
      else { s.xlat with cdTlb := tset [] s.xlat.cdTlb q.cd l }
    let s := { s with xlat := x }
    (judge s q t.pte t.level, s)
  | none => localWith now s q

/-- Translate a request that waits where a walk in flight takes its miss or none can start. -/
def translate : State → XlatReq → XRes × State := translateWith false

/-- Translate a request that no event can hold back. -/
def translateNow : State → XlatReq → XRes × State := translateWith true

/-- Translate every piece of a virtual span, each at its own address; the first that fails decides. -/
def translateAll (s : State) (q : XlatReq) : List (Nat × Nat) → Except (XRes × Nat) (List (Nat × Nat)) × State
  | [] => (.ok [], s)
  | (va, n) :: rest =>
    match translate s { q with va := va } with
    | (.ok pa, s) => match translateAll s q rest with
      | (.ok l, s) => (.ok ((pa, n) :: l), s)
      | (.error e, s) => (.error e, s)
    | (e, s) => (.error (e, va), s)

/-! ### Not-present faults (R444, R445, R453) -/

/-- Bytes 32–63 of an XLT_NP record (Table 13-6) for the requests that reach the entry together, `q` the first; a request of NW lies on no CD. -/
def npBytes (fid : Nat) (q : XlatReq) (qs : List XlatReq) (pa lvl : Nat) : List Byte :=
  let reqBits := (q :: qs).foldl (fun b x => b ||| (if x.cd < 24 then 2 ^ x.cd else 0) ||| (if x.cls ≤ 3 then 2 ^ (24 + x.cls) else 0)) 0
  bytesLE 4 fid ++ bytesLE 4 reqBits ++ bytesLE 8 (q.va % 2 ^ 48 + (q.asid % 65536) <<< 48) ++ bytesLE 8 pa ++ bytesLE 1 lvl ++
    bytesLE 1 q.space ++ bytesLE 1 ((q :: qs).foldl (fun b x => b ||| x.access) 0) ++ bytesLE 5 0

/-- The walk of a request, and of those that joined it, ended at an absent entry: they join the open fault, or open one with a record (R444,
R445). The FAULT_ID. -/
def openFaults (s : State) (q : XlatReq) (qs : List XlatReq) (ls : LS) (pa lvl : Nat) : Nat × State :=
  match s.xlat.faults.find? fun f => f.pte == pa && f.p == q.p with
  | some f =>
    (f.fid, { s with xlat := { s.xlat with faults := s.xlat.faults.map fun g =>
        if g.fid = f.fid then { g with waiters := g.waiters ++ q :: qs } else g } })
  | none =>
    let fid := s.xlat.nextFid
    let f : NpFault := { fid := fid, p := q.p, pte := pa, level := lvl, waiters := q :: qs }
    let s := { s with xlat := { s.xlat with faults := s.xlat.faults ++ [f], nextFid := (fid + 1) % 2 ^ 32 } }
    (fid, post s (mkRec s ls 0x30 0 24 0 (npBytes fid q qs pa lvl)))

/-- One request's walk ended at an absent entry. -/
def openFault (s : State) (q : XlatReq) (ls : LS) (pa lvl : Nat) : Nat × State := openFaults s q [] ls pa lvl

/-- The XLT_WALK record of a walk read that failed (R452); the transaction status is TX_UNCORR, or TX_LINK where no path
reached it. -/
def walkRecSt (s : State) (ls : LS) (cls pa st : Nat) : Record := mkRec s ls 0x31 cls 24 0 (errBytes { addr := pa, reqClass := 5, extra := st })
def walkRec (s : State) (ls : LS) (cls pa : Nat) : Record := walkRecSt s ls cls pa (if reach s 24 (homeDie pa) pa then 3 else 2)

/-- Remove the waiting requests that a test selects; a fault left with none closes (R449). -/
def dropWaiters (s : State) (p : Nat) (q : XlatReq → Bool) : State :=
  let fs := s.xlat.faults.map fun f => if f.p = p then { f with waiters := f.waiters.filter fun w => !q w } else f
  { s with xlat := { s.xlat with faults := fs.filter fun f => !(f.p == p && f.waiters.isEmpty) } }

/-- A polder's requests in walks, at walkers and on the waiting list are gone (R449); a walk left with none frees its tag. -/
def dropRequests (s : State) (p : Nat) : State :=
  let keep := fun (l : List XlatReq) => l.filter fun q => q.p ≠ p
  let ended := fun (t : TagEntry) => s.xlat.walks.any fun w => t.work == .walk w.id && (keep w.reqs).isEmpty
  let s := ((owner s 24).tags.filter ended).foldl (fun s t => releaseTag s 24 t.num) s
  { s with xlat := { s.xlat with
      local_ := keep s.xlat.local_, waiting := keep s.xlat.waiting,
      walks := (s.xlat.walks.map fun w => { w with reqs := keep w.reqs }).filter fun w => !w.reqs.isEmpty } }

/-- The requests of descriptor `i` in walks, at walkers and on the waiting list are gone. -/
def dropDescReqs (s : State) (p i : Nat) : State :=
  let keep := fun (l : List XlatReq) => l.filter fun q => !(q.req == .descriptor p i || q.req == .descUpdate p i)
  { s with xlat := { s.xlat with
      local_ := keep s.xlat.local_, waiting := keep s.xlat.waiting, walks := s.xlat.walks.map fun w => { w with reqs := keep w.reqs } } }

/-- Is a physical address a byte of an admitted recipe image (R250): of polder `p`, or of any polder. -/
def inImageOf (po : Polder) (pa : Nat) : Bool :=
  po.slots.any fun e =>
    let r := e.2
    (List.range r.pages.length).any fun k =>
      let base := r.pages.getD k 0
      let va := (r.va / 4096 + k) * 4096 + (pa - base)
      base ≤ pa && pa < base + 4096 && r.va ≤ va && va < r.va + r.len

def inImage (s : State) (pa : Nat) : Bool := s.polders.any fun e => inImageOf e.2 pa

/-- Does a span of pieces touch an admitted image. -/
def imageHit (s : State) (l : List (Nat × Nat)) : Bool :=
  s.polders.any (fun e => !e.2.slots.isEmpty) && l.any fun x => (List.range x.2).any fun k => inImage s (x.1 + k)

end Sys2Proof.Machine
end

