-- ==== Sys2Proof/Machine/CoreOps.lean ====
section
/-! DEFINITION. The Coxel core's shared operations: registers and CSR images (chapters 9, 11), exception entry, Breach and return
(R382–R389), loads and stores through the store buffer and the data cache (R312–R315, R332–R336), fetch, and the issue of one
instruction (R378). -/

namespace Sys2Proof.Machine

/-! ### Registers -/

/-- A general register; g0 reads zero (R301). -/
def gpr (c : Core) (r : Reg) : Word := if r = 0 then 0 else tget 0 c.regs r.toNat

/-- Write a general register; a write to g0 is discarded (R301). -/
def setGpr (c : Core) (r : Reg) (v : Word) : Core := if r = 0 then c else { c with regs := tset 0 c.regs r.toNat v }

/-- Write a register of polder `p`'s lead core. -/
def putReg (s : State) (p : Nat) (r : Reg) (v : Word) : State := modCore s p fun c => setGpr c r v

def g31 : Reg := 31

/-- STATUS (Table 11-1). -/
def statusOf (c : Core) : Nat := c.ml <<< 8 + b2n c.breach <<< 4 + b2n c.user

/-- An instruction has completed: pc moves past it, INSTRET counts it, and the core stands in line for no tag. -/
def retire (s : State) (p : Nat) : State := modCore (leaveLine s p) p fun c => { c with pc := c.pc + 4, instret := c.instret + 1 }

/-- An instruction that set the pc itself has completed. -/
def retireTo (s : State) (p target : Nat) : State := modCore (leaveLine s p) p fun c => { c with pc := target, instret := c.instret + 1 }

/-- OR flags into FPCTL. -/
def raiseFlags (s : State) (p fl : Nat) : State := modCore s p fun c => { c with fpctl := raise c.fpctl fl }

/-! ### The core-local SRAM and D-space locations -/

def sramBase : Nat := 0xFFFFFFFF0000

/-- Where a D-space piece lies: the core-local SRAM or physical memory. -/
inductive Loc where
  | sram (off : Nat)
  | mem (pa : Nat)
  deriving DecidableEq, Repr

/-- The context of the core's memory requests. -/
def coreCtx (s : State) (p cls : Nat) (req : Requester) : MemCtx :=
  { src := leadOf s p, ls := lsCore s p, cls := some cls, p := p, req := req }

/-- A request of the lead core in D-space: the polder space while ASID is 0 (Table 13-1). -/
def dReq (s : State) (p va access cls : Nat) (user : Bool) : XlatReq :=
  let c := core s p
  { cd := leadOf s p, p := p, space := if c.asid = 0 then 0 else 1, asid := c.asid, va := va, access := access, user := user,
    req := .core p, cls := cls }

/-- A fetch in I-space. -/
def iReq (s : State) (p va : Nat) (user : Bool) : XlatReq :=
  let c := core s p
  { cd := leadOf s p, p := p, space := 2, asid := c.asid, va := va, access := 4, user := user, req := .core p, cls := 1 }

/-! ### Data cache (R332, R333) -/

def dceOn (c : Core) : Bool := bit c.cctl.toNat 1

/-- The cached bytes at a physical address, where their line is present. -/
def dcRead (c : Core) (pa len : Nat) : Option (List Byte) :=
  (c.dcache.find? fun l => l.line == pa / 64).map fun l => slice l.data (pa % 64) len

/-- A store that hits updates the line (R332). -/
def dcUpdate (c : Core) (pa : Nat) (data : List Byte) : Core :=
  { c with dcache := c.dcache.map fun l => if l.line = pa / 64 then { l with data := splice l.data (pa % 64) data } else l }

/-- Invalidate the lines that a span of physical addresses touches (R102, R320). -/
def dcInval (c : Core) (pa len : Nat) : Core :=
  { c with dcache := c.dcache.filter fun l => !(pa / 64 ≤ l.line && l.line ≤ (pa + len - 1) / 64) }

/-- Is the 64 B line of an address readable as a whole: in its near cache, or every codeword of it correctable. -/
def lineWhole (s : State) (pa : Nat) : Bool :=
  (isNear pa && (ncOf s (pa >>> 35)).lines.any fun l => l.atom == pa / 256) || (firstBad s (codewords (pa / 64 * 64) 64)).isNone

/-- Read `n` bytes at an address for a cache of the core that takes whole lines: the line where it is readable as a whole (R411, R412). The
bytes, and whether the line came. -/
def readLine (s : State) (m : MemCtx) (whole : Bool) (pa n : Nat) : Except MemErr (List Byte × Bool) × State :=
  if whole && lineWhole s pa then
    match readAtom s m (pa / 64 * 64) 64 with
    | (.ok d, s) => (.ok (slice d (pa % 64) n, true), s)
    | (.error e, s) => (.error e, s)
  else
    match readAtom s m pa n with
    | (.ok d, s) => (.ok (d, false), s)
    | (.error e, s) => (.error e, s)

/-- Allocate a line in its set: an invalid way, else a way by free choice (log 3). -/
def dcAlloc (s : State) (p pa : Nat) : State :=
  let c := core s p
  let line := pa / 64
  let inSet := c.dcache.filter fun l => l.line % 256 == line % 256
  let way := ((List.range 4).find? fun w => !inSet.any fun l => l.way == w).getD (Config.dcVictim s.free % 4)
  let keep := c.dcache.filter fun l => !(l.line % 256 == line % 256 && l.way == way)
  let s := { s with free := if inSet.length < 4 then s.free else s.free + 1 }
  setCore s p { c with dcache := { line := line, way := way, data := mgetN s.mem (line * 64) 64 } :: keep }

/-! ### Store buffer (R334–R336) -/

/-- The numeric place of an entry, to compare overlaps. -/
def sbKey (e : SbEntry) : Nat := if e.local_ then 2 ^ 60 + e.pa else e.pa
def locKey : Loc → Nat
  | .sram off => 2 ^ 60 + off
  | .mem pa => pa

def overlaps (a n b m : Nat) : Bool := a < b + m && b < a + n

/-- Write bytes of one atom to their home for the core: write-through, updating a line that hits; a write that fails is not applied
and its record posts (log 11). -/
def coreWrite (s : State) (p : Nat) (l : Loc) (data : List Byte) : State :=
  match l with
  | .sram off => modCore s p fun c => { c with localSram := msetN c.localSram off data }
  | .mem pa =>
    let s := modCore s p fun c => dcUpdate c pa data
    let m := coreCtx s p 0 (.core p)
    match writeAtom s m pa data with
    | (none, s) => s
    | (some (.uncorr cw), s) => detect s (uncorrRecW s m 1 cw) false
    | (some .lost, s) => s

/-- Drain the oldest entry. A store whose page an image has since been admitted into is a violation of the core, and does not take effect (R250). -/
def drainOne (s : State) (p : Nat) : State :=
  match (core s p).sb with
  | [] => s
  | e :: rest =>
    let s := modCore s p fun c => { c with sb := rest }
    if !e.local_ && imageHit s [(e.pa, e.data.length)] then
      let (w, s) := drawFree s
      freezeCore s p vImage false 0xFFFFFFFF e.va (w.setWidth 32)
    else coreWrite s p (if e.local_ then .sram e.pa else .mem e.pa) e.data

/-- Drain `n` entries, oldest first. -/
def drainN (p : Nat) : Nat → State → State
  | 0, s => s
  | n + 1, s => drainN p n (drainOne s p)

/-- Drain the whole buffer. -/
def drainAll (s : State) (p : Nat) : State := drainN p (core s p).sb.length s

/-- Drain every entry up to the newest that overlaps a span. -/
def drainOver (s : State) (p : Nat) (l : Loc) (n : Nat) : State :=
  let sb := (core s p).sb
  let after := (sb.reverse.findIdx fun e => overlaps (sbKey e) e.data.length (locKey l) n)
  drainN p (sb.length - after) s

/-- A store enters the buffer, which drains its oldest entries while fewer than `need` are free (R334). -/
def sbPush (s : State) (p : Nat) (need : Nat) (es : List SbEntry) : State :=
  let s := drainN p ((core s p).sb.length + need - 8) s
  modCore s p fun c => { c with sb := c.sb ++ es }

/-! ### Freezes and reset of the core -/

/-- A request of polder `p`'s lead core, its vector elements included. -/
def isCoreReq (p : Nat) (w : XlatReq) : Bool :=
  match w.req with
  | .core q => q == p
  | .coreAtomic q => q == p
  | .vector q _ => q == p
  | _ => false

/-- A core reset (R328): of the core nothing remains that software can see but its count of starts and its measurement (R580), which a
load clears; the SRAMs keep their bytes. Vector state reads zero (R340), array banks are empty (R177), and the groups that matrix
instructions opened are discarded (R220). -/
def coreReset (s : State) (p : Nat) : State :=
  let c := core s p
  let s := leaveLine (dropWaiters s p (isCoreReq p)) p
  let s := setCore s p
    { Core.reset with dtReset := s.dt, entrySram := c.entrySram, localSram := c.localSram, starts := c.starts, mCoxel := c.mCoxel }
  modPolder s p fun po => { po with frzCore := none, vregs := [], masks := [], vqueue := [], banks := [], groups := po.groups.filter fun e => !e.2.byInstr }

/-! ### Breach (R387) and exception entry (R382) -/

/-- The causes of Table 11-2. -/
def cResop : Nat := 0
def cIalign : Nat := 1
def cAddr : Nat := 2
def cAlign : Nat := 3
def cTrap : Nat := 4
def cMemerr : Nat := 5
def cViol : Nat := 6

/-- What an exception carries to its entry. -/
structure Exc where
  cause : Nat
  epc : Nat
  addr : Nat := 0
  inst : Word32 := 0
  code : Nat := 0
  half2 : Bool := false
  /-- the instruction word at PC, for the Breach frame -/
  word : Word32 := 0
  deriving DecidableEq, Repr

/-- A Breach frame (Table 11-12). -/
def breachFrame (s : State) (c : Core) (reason : Nat) (e : Exc) : List Byte :=
  bytesLE 8 e.epc ++ bytesLE 8 (statusOf c) ++ bytesLE 1 e.cause ++ bytesLE 1 reason ++ bytesLE 2 (e.code % 32 + 32 * b2n e.half2) ++
    bytesLE 4 e.word.toNat ++ bytesLE 8 e.addr ++ bytesLE 8 c.epc.toNat ++ bytesLE 8 c.estatus.toNat ++ bytesLE 8 (gpr c g31).toNat ++
    bytesLE 8 s.dt

/-- Breach (R387). -/
def breach (s : State) (p reason : Nat) (e : Exc) : State :=
  let c := core s p
  let b : Int := (c.bstk.toNat : Int) - 64
  if c.breach || b < (sramBase : Int) then freezeCore s p vBreachFault e.half2 0xFFFFFFFF e.addr e.word
  else
    let b := b.toNat
    let loc := Loc.sram (b - sramBase)
    let s := leaveLine (if c.sb.any fun x => overlaps (sbKey x) x.data.length (locKey loc) 64 then drainOver s p loc 64 else s) p
    let c := core s p
    setCore s p
      { setGpr { c with localSram := msetN c.localSram (b - sramBase) (breachFrame s c reason e) } g31 (toW b) with
        bstk := toW b, bpriv := c.user, breach := true, user := false, ml := 7, pc := 0x800, waiting := false, npWait := none }

/-- An exception frame (Table 11-9). -/
def excFrame (c : Core) : List Byte :=
  bytesLE 8 c.epc.toNat ++ bytesLE 8 c.estatus.toNat ++ bytesLE 4 c.ecause.toNat ++ bytesLE 4 c.einst.toNat ++ bytesLE 8 c.eaddr.toNat

/-- The place of 32 bytes at `f` for an access in a mode, where they are present and permitted. -/
def framePlace (s : State) (p f access : Nat) (user : Bool) : Option Loc × State :=
  if sramBase ≤ f then (if user then none else some (.sram (f - sramBase)), s)
  else
    match translateNow s (dReq s p f access 0 user) with
    | (.ok pa, s) => (if bit access 1 && imageHit s [(pa, 32)] then none else some (.mem pa), s)
    | (_, s) => (none, s)

/-- Exception entry (R382), one indivisible step. -/
def enter (s : State) (p : Nat) (e : Exc) : State :=
  let c := core s p
  if c.breach then freezeCore s p vBreachFault e.half2 0xFFFFFFFF e.addr e.word
  else if e.cause < 64 && c.ml == 7 then breach s p 1 e
  else if 16 ≤ c.shadow.length then breach s p 3 e
  else
    let g := (gpr c g31).toNat
    let f := g - 32
    if g % 32 ≠ 0 || g < 32 || 2 ^ 48 ≤ f then breach s p 2 e
    else match framePlace s p f 2 c.user with
      | (none, s) => breach s p 2 e
      | (some loc, s) =>
        let s := if (core s p).sb.any fun x => overlaps (sbKey x) x.data.length (locKey loc) 32 then drainOver s p loc 32 else s
        let s := leaveLine (coreWrite s p loc (excFrame c)) p
        modCore s p fun c =>
          { setGpr c g31 (toW f) with
            shadow := c.shadow ++ [c.user], estatus := toW (c.ml <<< 8 + b2n c.user), epc := toW (e.epc / 4 * 4), eaddr := toW (e.addr % 2 ^ 48),
            einst := toW e.inst.toNat, ecause := toW ((e.code % 32) <<< 8 + b2n e.half2 <<< 7 + e.cause), user := false, ml := 7,
            pc := 0x1000 + 16 * e.cause, waiting := false, npWait := none }

/-- A synchronous cause of the instruction at pc with word `w`. EINST is written by cause 0 and 6 alone (Table 11-2). -/
def raiseExc (s : State) (p cause addr code : Nat) (half2 : Bool) (w : Word32) : State :=
  enter s p { cause := cause, epc := (core s p).pc, addr := addr, inst := if cause = cResop then w else 0, code := code, half2 := half2, word := w }

/-- Why an instruction did not perform (R378): among others it stands in line for a tag (R480), or a home holds its access (R408). -/
inductive Stop where
  | stall (w : Waiter)
  | hold
  | exc (cause addr : Nat) (half2 : Bool)
  | violate (vcode addr : Nat) (half2 : Bool)
  | wait (q : XlatReq) (pa lvl : Nat)
  | uncorr (cw addr : Nat) (half2 : Bool)
  | walk (pa addr : Nat) (half2 : Bool)
  | lost
  deriving DecidableEq, Repr

/-- A violation in Breach freezes with BREACH_FAULT (R388). -/
def violate (s : State) (p vcode : Nat) (half2 : Bool) (elem addr : Nat) (w : Word32) : State :=
  freezeCore s p (if (core s p).breach then vBreachFault else vcode) half2 elem addr w

/-- The outcome of a stop: the exception, the freeze, or the not-present wait. -/
def stopCore (s : State) (p : Nat) (w : Word32) : Stop → State
  | .exc cause addr h2 => raiseExc s p cause addr 0 h2 w
  | .violate v addr h2 => violate s p v h2 0xFFFFFFFF addr w
  | .wait q pa lvl => modCore (openFault s q (lsCore s p) pa lvl).2 p fun c => { c with npWait := some w }
  | .uncorr cw addr h2 => raiseExc (detect s (uncorrRec s (coreCtx s p 0 (.core p)) 1 cw) false) p cMemerr addr 0 h2 w
  | .walk pa addr h2 => raiseExc (detect s (walkRec s (lsCore s p) 1 pa) false) p cMemerr addr 0 h2 w
  | .lost => s
  | .stall w => addWaiter s (leadOf s p) w
  | .hold => s

/-- The core's next request of a kind may issue: a tag of its die is free for it, and the home of its address takes it now (R408, R480). -/
def mayAsk (s : State) (p kind pa : Nat) : Option Stop :=
  if frameHeld s pa then some .hold
  else if tagFor s (leadOf s p) (.core p) then none
  else some (.stall { kind := kind, dest := homeDie pa, addr := pa, ls := lsCore s p, req := .core p, first := false, granted := false })

/-- A request of the core's vector instructions. -/
def isVecReq (p : Nat) (r : Requester) : Bool := match r with | .vector q _ => q == p | _ => false

/-- May `n` of the core's buffered stores drain now. -/
def mayDrain (s : State) (p n : Nat) : Option Stop :=
  (((core s p).sb.take n).filter (!·.local_)).findSome? fun e => mayAsk s p 1 e.pa

/-! ### D-space accesses -/

/-- Where one half of an access lies (R299, R300, R378). -/
def place (s : State) (p va n access cls : Nat) (h2 : Bool) : Except Stop Loc × State :=
  let c := core s p
  if sramBase ≤ va then (if c.user then .error (.violate vMode va h2) else .ok (.sram (va - sramBase)), s)
  else
    let q := { dReq s p va access cls c.user with half2 := h2 }
    match translate s q with
    | (.ok pa, s) => (if bit access 1 && imageHit s [(pa, n)] then .error (.violate vImage va h2) else .ok (.mem pa), s)
    | (.perm, s) => (.error (.violate vPerm va h2), s)
    | (.outside, s) => (.error (.violate vOutside va h2), s)
    | (.absent pa lvl, s) => (.error (.wait q pa lvl), s)
    | (.failed pa, s) => (.error (.walk pa va h2), s)
    | (.busy, s) => (.error .hold, joinMiss s q)

/-- The halves of an access: split at the 8-byte boundary it crosses (R313). -/
def halves (va size : Nat) : List (Nat × Nat) :=
  if va % 8 + size ≤ 8 then [(va, size)] else [(va, 8 - va % 8), (va / 8 * 8 + 8, va % 8 + size - 8)]

/-- The first non-canonical half, lower first (R300, R378). -/
def badHalf (hs : List (Nat × Nat)) : Option (Nat × Bool) :=
  match hs with
  | [] => none
  | (va, _) :: rest => if 2 ^ 48 ≤ va then some (va, false) else match rest with
    | (vb, _) :: _ => if 2 ^ 48 ≤ vb then some (vb, true) else none
    | [] => none

/-- Place every piece before any performs; `nx` marks the pieces after the first as the upper half. -/
def placeAll (s : State) (p access cls : Nat) (nx : Bool) : List (Nat × Nat) → Bool → Except Stop (List (Loc × Nat)) × State
  | [], _ => (.ok [], s)
  | (va, n) :: rest, h2 =>
    match place s p va n access cls h2 with
    | (.error e, s) => (.error e, s)
    | (.ok l, s) => match placeAll s p access cls nx rest nx with
      | (.error e, s) => (.error e, s)
      | (.ok ls, s) => (.ok ((l, n) :: ls), s)

/-- Read one half: from the newest store that holds it whole, else the data cache or memory once overlapping stores have drained
(R335). -/
def readHalf (s : State) (p : Nat) (l : Loc) (n : Nat) (va : Nat) (h2 : Bool) : Except Stop (List Byte) × State :=
  let sb := (core s p).sb
  match sb.reverse.find? fun e => overlaps (sbKey e) e.data.length (locKey l) n with
  | some e =>
    if sbKey e ≤ locKey l && locKey l + n ≤ sbKey e + e.data.length then (.ok (slice e.data (locKey l - sbKey e) n), s)
    else match mayDrain s p sb.length with
      | some x => (.error x, s)
      | none => rd (drainOver s p l n)
  | none => rd s
where
  rd (s : State) : Except Stop (List Byte) × State :=
    match l with
    | .sram off => (.ok (mgetN (core s p).localSram off n), s)
    | .mem pa =>
      match (if dceOn (core s p) then dcRead (core s p) pa n else none) with
      | some d => (.ok d, s)
      | none =>
        match mayAsk s p 0 pa with
        | some x => (.error x, s)
        | none =>
          match readLine s (coreCtx s p 0 (.core p)) (dceOn (core s p)) pa n with
          | (.ok (d, whole), s) => (.ok d, if whole then dcAlloc s p pa else s)
          | (.error (.uncorr cw), s) => (.error (.uncorr cw va h2), s)
          | (.error .lost, s) => (.error .lost, s)

/-- Read every half. -/
def readHalves (s : State) (p : Nat) (nx : Bool) : List (Loc × Nat) → List (Nat × Nat) → Bool → Except Stop (List Byte) × State
  | (l, n) :: ls, (va, _) :: vs, h2 =>
    match readHalf s p l n va h2 with
    | (.error e, s) => (.error e, s)
    | (.ok d, s) => match readHalves s p nx ls vs nx with
      | (.error e, s) => (.error e, s)
      | (.ok ds, s) => (.ok (d ++ ds), s)
  | _, _, _ => (.ok [], s)

/-- A load of `size` bytes (R312, R313). -/
def loadData (s : State) (p va size : Nat) : Except Stop Nat × State :=
  let hs := halves va size
  match badHalf hs with
  | some (a, h2) => (.error (.exc cAddr a h2), s)
  | none => match placeAll s p 1 0 true hs false with
    | (.error e, s) => (.error e, s)
    | (.ok ls, s) => match readHalves s p true ls hs false with
      | (.error e, s) => (.error e, s)
      | (.ok d, s) => (.ok (natLE d), s)

/-- The buffer entries of a store. -/
def sbEntries : List (Loc × Nat) → List (Nat × Nat) → List Byte → List SbEntry
  | (l, n) :: ls, (va, _) :: vs, data =>
    (match l with
      | .sram off => { va := va, pa := off, local_ := true, data := data.take n }
      | .mem pa => { va := va, pa := pa, local_ := false, data := data.take n }) :: sbEntries ls vs (data.drop n)
  | _, _, _ => []

/-- A store of `size` bytes enters the store buffer (R312, R313, R334). -/
def storeData (s : State) (p va size : Nat) (v : Nat) : Option Stop × State :=
  let hs := halves va size
  match badHalf hs with
  | some (a, h2) => (some (.exc cAddr a h2), s)
  | none => match placeAll s p 2 0 true hs false with
    | (.error e, s) => (some e, s)
    | (.ok ls, s) => match mayDrain s p ((core s p).sb.length + hs.length - 8) with
      | some x => (some x, s)
      | none => (none, sbPush s p hs.length (sbEntries ls hs (bytesLE size v)))

/-! ### Interrupts -/

/-- The level of source `n` in MLDEF (Table 11-7). -/
def levelOf (c : Core) (n : Nat) : Nat := fld c.mldef (3 * n) 3

/-- An admissible source (R380). -/
def admissible (c : Core) (n : Nat) : Bool := c.intPend.getLsbD n && c.intEn.getLsbD n && c.ml < levelOf c n

/-- The source taken: highest level, then lowest number (R381). -/
def pickInt (c : Core) : Option Nat :=
  (List.range 16).foldl (fun best n =>
    if admissible c n then match best with
      | some b => if levelOf c b < levelOf c n then some n else some b
      | none => some n
    else best) none

/-! ### Fetch and issue -/

/-- May the lead core of polder `p` issue an instruction now: it is started, not frozen, not in WAIT, its record does not wait
(R517), RST_N is not held low (R613), no Breach request or interrupt comes first (R381, R390), and no not-present wait holds it (R444). -/
def coreReady (s : State) (p : Nat) : Bool :=
  let c := core s p
  named s p && !halted s && c.started && (polder s p).frzCore.isNone && !c.waiting && c.npWait.isNone && c.redWait.isNone && !coreWaits s p && !(polder s p).resetting &&
    !(c.breachReq && !c.breach) && (pickInt c).isNone

def iceOn (c : Core) : Bool := bit c.cctl.toNat 0

/-- The instruction cache takes a line (R332), while it is enabled (R327). -/
def icFill (c : Core) (line : Nat) : Core :=
  let others := c.icache.filter (· ≠ line)
  let setOthers := others.filter (· % 256 == line % 256)
  { c with icache := if iceOn c then line :: others.filter (fun l => l % 256 ≠ line % 256) ++ setOthers.take 3 else c.icache }

/-- Does the core hold a line of instructions. -/
def holdsLine (c : Core) (line : Nat) : Bool := (iceOn c && c.icache.contains line) || c.lineBuf.contains line

/-- The line buffer holds the line being fetched and, with LBP, the next one of the page (R332, log 27), which is read where the core does not
hold it and it is readable as a whole. -/
def lineFollow (s : State) (p line : Nat) : State :=
  let c := core s p
  let pa := (line + 1) * 64
  let put := fun (s : State) (l : List Nat) => modCore s p fun c => { c with lineBuf := l }
  if !bit c.cctl.toNat 2 || pa % 4096 = 0 then put s [line]
  else if holdsLine c (line + 1) then put s [line, line + 1]
  else if !lineWhole s pa || (mayAsk s p 0 pa).isSome then put s [line]
  else match readAtom s (coreCtx s p 1 (.core p)) pa 64 with
    | (.ok _, s) => put s [line, line + 1]
    | (_, s) => put s [line]

/-- The outcome of a fetch that brought no word: the word that a record or frame would carry is a free value (log 3). -/
def fetchStop (s : State) (p : Nat) (e : Stop) : State :=
  let (f, s) := drawFree s
  stopCore s p (f.setWidth 32) e

/-- Fetch at pc (R298, R303): none when the instruction may go on, else the state after the stop. -/
def fetch (s : State) (p : Nat) : Option State × State :=
  let c := core s p
  if 2 ^ 48 ≤ c.pc then (some (fetchStop s p (.exc cAddr c.pc false)), s)
  else if c.pc < 0x4000 then (none, s)
  else
    let q := iReq s p c.pc c.user
    match translate s q with
    | (.perm, s) => (some (fetchStop s p (.violate vPerm c.pc false)), s)
    | (.outside, s) => (some (fetchStop s p (.violate vOutside c.pc false)), s)
    | (.absent pa lvl, s) => (some (fetchStop s p (.wait q pa lvl)), s)
    | (.failed pa, s) => (some (fetchStop s p (.walk pa c.pc false)), s)
    | (.busy, s) => (some (joinMiss s q), s)
    | (.ok pa, s) =>
      if holdsLine c (pa / 64) then (none, lineFollow s p (pa / 64))
      else match mayAsk s p 0 pa with
        | some x => (some (stopCore s p 0 x), s)
        | none => match readLine s (coreCtx s p 1 (.core p)) true pa 4 with
          | (.error (.uncorr cw), s) => (some (fetchStop s p (.uncorr cw c.pc false)), s)
          | (.error .lost, s) => (some s, s)
          | (.ok (_, whole), s) => (none, if whole then lineFollow (modCore s p fun c => icFill c (pa / 64)) p (pa / 64) else s)

/-- Issue one instruction with word `w`: where the core is not ready the event does not occur; a fetch that stops has its own
outcome; else the instruction's effect. -/
def issue (s : State) (p : Nat) (f : State → State) : State :=
  if coreReady s p then match fetch s p with
    | (some s', _) => s'
    | (none, s) => f s
  else s

/-- The mode check of a K-only instruction (R321). -/
def kOnly (p : Nat) (w : Word32) (f : State → State) (s : State) : State :=
  if (core s p).user then violate s p vMode false 0xFFFFFFFF 0 w else f s

/-- An instruction that writes one register from a value of the core. -/
def compute (p : Nat) (rd : Reg) (f : Core → Word) (s : State) : State := retire (putReg s p rd (f (core s p))) p

/-- An instruction that writes one register and raises flags. -/
def computeFp (p : Nat) (rd : Reg) (f : Core → FRes) (s : State) : State :=
  let r := f (core s p)
  retire (raiseFlags (putReg s p rd (toW r.v)) p r.fl) p

end Sys2Proof.Machine
end

