-- ==== Sys2Proof/Machine/CoreWord.lean ====
section
/-! DEFINITION. The 32-bit words of the Coxel core's instructions (R303, R304, R344; Tables 9-2 to 9-8, 10-4 to 10-13): an encoder and
a decoder written from the same tables. A FUNC[6] of 1 outside majors 0x39 and 0x3A names no instruction of format V. -/

namespace Sys2Proof.Machine

/-- Formats R and X. -/
def wR (major : BitVec 6) (gd ga gb : Reg) (func : BitVec 11) : Word32 := (major ++ gd ++ ga ++ gb ++ func : BitVec (6 + 5 + 5 + 5 + 11))
/-- Formats I, M and B. -/
def wI (major : BitVec 6) (gd ga : Reg) (imm : BitVec 16) : Word32 := (major ++ gd ++ ga ++ imm : BitVec (6 + 5 + 5 + 16))
/-- Format J. -/
def wJ (major : BitVec 6) (off : BitVec 26) : Word32 := (major ++ off : BitVec (6 + 26))
/-- Format C. -/
def wC (gd ga : Reg) (csr : BitVec 12) (op : BitVec 4) : Word32 := ((0x2C : BitVec 6) ++ gd ++ ga ++ csr ++ op : BitVec (6 + 5 + 5 + 12 + 4))
/-- Format V (Table 10-4). -/
def wV (major : BitVec 6) (o : VOp) (func : BitVec 6) : Word32 :=
  (major ++ o.vd ++ o.va ++ o.vb ++ BitVec.ofBool o.vm ++ o.mreg ++ BitVec.ofBool o.s ++ func : BitVec (6 + 5 + 5 + 5 + 1 + 3 + 1 + 6))
/-- FUNC of a floating-point instruction: bit 10 the precision (R311). -/
def fpFunc (single : Bool) (op : BitVec 11) : BitVec 11 := (BitVec.ofBool single).setWidth 11 <<< 10 ||| op
/-- The CSR number of format C. -/
def csrOf (imm : BitVec 16) : BitVec 12 := imm.extractLsb' 4 12

/-- The fields of a word in every format. -/
structure WordFields where
  w : Word32
  gd : Reg
  ga : Reg
  gb : Reg
  fn : BitVec 11
  imm : BitVec 16
  o : VOp
  f6 : BitVec 6
  deriving DecidableEq, Repr

/-- Cut a word into its fields (Tables 9-2 and 10-4). -/
def wordFields (w : Word32) : WordFields :=
  { w := w, gd := w.extractLsb' 21 5, ga := w.extractLsb' 16 5, gb := w.extractLsb' 11 5, fn := w.extractLsb' 0 11, imm := w.extractLsb' 0 16,
    o := { s := w.getLsbD 6, vm := w.getLsbD 10, mreg := w.extractLsb' 7 3, vd := w.extractLsb' 21 5, va := w.extractLsb' 16 5,
           vb := w.extractLsb' 11 5 },
    f6 := w.extractLsb' 0 6 }

/-- The word of a core instruction. -/
def coreWord (i : Instr) : Option Word32 :=
  match i with
  | .add _ gd ga gb => some (wR 0x1 gd ga gb 0x0)
  | .sub _ gd ga gb => some (wR 0x1 gd ga gb 0x1)
  | .and_ _ gd ga gb => some (wR 0x1 gd ga gb 0x2)
  | .or_ _ gd ga gb => some (wR 0x1 gd ga gb 0x3)
  | .xor_ _ gd ga gb => some (wR 0x1 gd ga gb 0x4)
  | .sll _ gd ga gb => some (wR 0x1 gd ga gb 0x5)
  | .srl _ gd ga gb => some (wR 0x1 gd ga gb 0x6)
  | .sra _ gd ga gb => some (wR 0x1 gd ga gb 0x7)
  | .slt _ gd ga gb => some (wR 0x1 gd ga gb 0x8)
  | .sltu _ gd ga gb => some (wR 0x1 gd ga gb 0x9)
  | .min _ gd ga gb => some (wR 0x1 gd ga gb 0xa)
  | .max _ gd ga gb => some (wR 0x1 gd ga gb 0xb)
  | .minu _ gd ga gb => some (wR 0x1 gd ga gb 0xc)
  | .maxu _ gd ga gb => some (wR 0x1 gd ga gb 0xd)
  | .addW _ gd ga gb => some (wR 0x1 gd ga gb 0x100)
  | .subW _ gd ga gb => some (wR 0x1 gd ga gb 0x101)
  | .sllW _ gd ga gb => some (wR 0x1 gd ga gb 0x105)
  | .srlW _ gd ga gb => some (wR 0x1 gd ga gb 0x106)
  | .sraW _ gd ga gb => some (wR 0x1 gd ga gb 0x107)
  | .mul _ gd ga gb => some (wR 0x2 gd ga gb 0x0)
  | .mulh _ gd ga gb => some (wR 0x2 gd ga gb 0x1)
  | .mulhu _ gd ga gb => some (wR 0x2 gd ga gb 0x2)
  | .div _ gd ga gb => some (wR 0x2 gd ga gb 0x4)
  | .divu _ gd ga gb => some (wR 0x2 gd ga gb 0x5)
  | .rem _ gd ga gb => some (wR 0x2 gd ga gb 0x6)
  | .remu _ gd ga gb => some (wR 0x2 gd ga gb 0x7)
  | .mulW _ gd ga gb => some (wR 0x2 gd ga gb 0x100)
  | .divW _ gd ga gb => some (wR 0x2 gd ga gb 0x104)
  | .divuW _ gd ga gb => some (wR 0x2 gd ga gb 0x105)
  | .remW _ gd ga gb => some (wR 0x2 gd ga gb 0x106)
  | .remuW _ gd ga gb => some (wR 0x2 gd ga gb 0x107)
  | .crcb _ gd ga gb => some (wR 0x3 gd ga gb 0x20)
  | .crcbC _ gd ga gb => some (wR 0x3 gd ga gb 0x21)
  | .outW _ gd ga gb => some (wR 0x1f gd ga gb 0x0)
  | .outD _ gd ga gb => some (wR 0x1f gd ga gb 0x1)
  | .clz _ gd ga => some (wR 0x3 gd ga 0 0x0)
  | .ctz _ gd ga => some (wR 0x3 gd ga 0 0x1)
  | .popc _ gd ga => some (wR 0x3 gd ga 0 0x2)
  | .par _ gd ga => some (wR 0x3 gd ga 0 0x3)
  | .brev _ gd ga => some (wR 0x3 gd ga 0 0x4)
  | .bswap _ gd ga => some (wR 0x3 gd ga 0 0x5)
  | .clzW _ gd ga => some (wR 0x3 gd ga 0 0x100)
  | .ctzW _ gd ga => some (wR 0x3 gd ga 0 0x101)
  | .popcW _ gd ga => some (wR 0x3 gd ga 0 0x102)
  | .parW _ gd ga => some (wR 0x3 gd ga 0 0x103)
  | .brevW _ gd ga => some (wR 0x3 gd ga 0 0x104)
  | .bswapW _ gd ga => some (wR 0x3 gd ga 0 0x105)
  | .crc32 _ gd ga gb sz => some (wR 3 gd ga gb (0x10 + sz.setWidth 11))
  | .crc32c _ gd ga gb sz => some (wR 3 gd ga gb (0x14 + sz.setWidth 11))
  | .fadd _ sg gd ga gb => some (wR 4 gd ga gb (fpFunc sg 0x0))
  | .fsub _ sg gd ga gb => some (wR 4 gd ga gb (fpFunc sg 0x1))
  | .fmul _ sg gd ga gb => some (wR 4 gd ga gb (fpFunc sg 0x2))
  | .fdiv _ sg gd ga gb => some (wR 4 gd ga gb (fpFunc sg 0x3))
  | .fma _ sg gd ga gb => some (wR 4 gd ga gb (fpFunc sg 0x5))
  | .fmin _ sg gd ga gb => some (wR 4 gd ga gb (fpFunc sg 0x6))
  | .fmax _ sg gd ga gb => some (wR 4 gd ga gb (fpFunc sg 0x7))
  | .feq _ sg gd ga gb => some (wR 4 gd ga gb (fpFunc sg 0x8))
  | .flt _ sg gd ga gb => some (wR 4 gd ga gb (fpFunc sg 0x9))
  | .fle _ sg gd ga gb => some (wR 4 gd ga gb (fpFunc sg 0xa))
  | .fsgnj _ sg gd ga gb => some (wR 4 gd ga gb (fpFunc sg 0xd))
  | .fsqrt _ sg gd ga => some (wR 4 gd ga 0 (fpFunc sg 0x4))
  | .fneg _ sg gd ga => some (wR 4 gd ga 0 (fpFunc sg 0xb))
  | .fabs _ sg gd ga => some (wR 4 gd ga 0 (fpFunc sg 0xc))
  | .fkind _ sg gd ga => some (wR 4 gd ga 0 (fpFunc sg 0xe))
  | .fcvtF _ sg gd ga => some (wR 4 gd ga 0 (fpFunc sg 0x10))
  | .fcvtL _ sg gd ga => some (wR 4 gd ga 0 (fpFunc sg 0x11))
  | .fcvtLz _ sg gd ga => some (wR 4 gd ga 0 (fpFunc sg 0x12))
  | .fcvtWi _ sg gd ga => some (wR 4 gd ga 0 (fpFunc sg 0x13))
  | .fcvtWz _ sg gd ga => some (wR 4 gd ga 0 (fpFunc sg 0x14))
  | .icvt _ sg gd ga => some (wR 4 gd ga 0 (fpFunc sg 0x18))
  | .ucvt _ sg gd ga => some (wR 4 gd ga 0 (fpFunc sg 0x19))
  | .addi _ gd ga imm => some (wI 0x5 gd ga imm)
  | .andi _ gd ga imm => some (wI 0x6 gd ga imm)
  | .ori _ gd ga imm => some (wI 0x7 gd ga imm)
  | .xori _ gd ga imm => some (wI 0x8 gd ga imm)
  | .slti _ gd ga imm => some (wI 0xa gd ga imm)
  | .shori _ gd ga imm => some (wI 0xc gd ga imm)
  | .ldB _ gd ga imm => some (wI 0x10 gd ga imm)
  | .ldBu _ gd ga imm => some (wI 0x11 gd ga imm)
  | .ldH _ gd ga imm => some (wI 0x12 gd ga imm)
  | .ldHu _ gd ga imm => some (wI 0x13 gd ga imm)
  | .ldW _ gd ga imm => some (wI 0x14 gd ga imm)
  | .ldWu _ gd ga imm => some (wI 0x15 gd ga imm)
  | .ldD _ gd ga imm => some (wI 0x16 gd ga imm)
  | .stB _ gd ga imm => some (wI 0x18 gd ga imm)
  | .stH _ gd ga imm => some (wI 0x19 gd ga imm)
  | .stW _ gd ga imm => some (wI 0x1a gd ga imm)
  | .stD _ gd ga imm => some (wI 0x1b gd ga imm)
  | .inW _ gd ga imm => some (wI 0x1d gd ga imm)
  | .inD _ gd ga imm => some (wI 0x1e gd ga imm)
  | .setvl _ gd ga imm => some (wI 0x38 gd ga imm)
  | .lui _ gd imm => some (wI 9 gd 0 imm)
  | .slli _ gd ga sh => some (wI 0xB gd ga (0x0 + sh.setWidth 16))
  | .srli _ gd ga sh => some (wI 0xB gd ga (0x40 + sh.setWidth 16))
  | .srai _ gd ga sh => some (wI 0xB gd ga (0x80 + sh.setWidth 16))
  | .amoadd _ gd ga gb dbl => some (wR 0x1C gd ga gb (0x0 + (BitVec.ofBool dbl).setWidth 11))
  | .amoswap _ gd ga gb dbl => some (wR 0x1C gd ga gb (0x2 + (BitVec.ofBool dbl).setWidth 11))
  | .amocas _ gd ga gb dbl => some (wR 0x1C gd ga gb (0x4 + (BitVec.ofBool dbl).setWidth 11))
  | .beq _ ga gb off => some (wI 0x20 ga gb off)
  | .bne _ ga gb off => some (wI 0x21 ga gb off)
  | .blt _ ga gb off => some (wI 0x22 ga gb off)
  | .bge _ ga gb off => some (wI 0x23 ga gb off)
  | .bltu _ ga gb off => some (wI 0x24 ga gb off)
  | .bgeu _ ga gb off => some (wI 0x25 ga gb off)
  | .jmp _ off => some (wJ 0x26 off)
  | .call _ off => some (wJ 0x27 off)
  | .jr _ ga => some (wR 0x28 0 ga 0 0)
  | .callr _ gd ga => some (wR 0x28 gd ga 0 1)
  | .csrr _ gd csr => some (wC gd 0 csr 0)
  | .csrw _ gd ga csr => some (wC gd ga csr 1)
  | .csrs _ gd ga csr => some (wC gd ga csr 2)
  | .csrc _ gd ga csr => some (wC gd ga csr 3)
  | .syncC _ => some (wR 0x2D 0 0 0 0)
  | .syncI _ => some (wR 0x2D 0 0 0 1)
  | .fence _ => some (wR 0x2D 0 0 0 2)
  | .wait _ => some (wR 0x2D 0 0 0 3)
  | .rfe _ => some (wR 0x2D 0 0 0 4)
  | .dcInvall _ => some (wR 0x2D 0 0 0 9)
  | .trap _ ga => some (wR 0x2D 0 ga 0 5)
  | .dcInv _ ga => some (wR 0x2D 0 ga 0 8)
  | .mlds _ gm gb => some (wR 0x30 gm 0 gb 1)
  | .mstream _ gm ga => some (wR 0x30 gm ga 0 2)
  | .mma8 _ gm ga gb => some (wR 0x30 gm ga gb 3)
  | .vfadd _ o => some (wV 0x39 o 0x0)
  | .vfsub _ o => some (wV 0x39 o 0x1)
  | .vfmul _ o => some (wV 0x39 o 0x2)
  | .vfdiv _ o => some (wV 0x39 o 0x3)
  | .vfsqrt _ o => some (wV 0x39 o 0x4)
  | .vfma _ o => some (wV 0x39 o 0x5)
  | .vfnma _ o => some (wV 0x39 o 0x6)
  | .vfmin _ o => some (wV 0x39 o 0x7)
  | .vfmax _ o => some (wV 0x39 o 0x8)
  | .vfeq _ o => some (wV 0x39 o 0x9)
  | .vflt _ o => some (wV 0x39 o 0xa)
  | .vfle _ o => some (wV 0x39 o 0xb)
  | .vfneg _ o => some (wV 0x39 o 0xc)
  | .vfabs _ o => some (wV 0x39 o 0xd)
  | .vfsgnj _ o => some (wV 0x39 o 0xe)
  | .vfkind _ o => some (wV 0x39 o 0xf)
  | .vadd _ o => some (wV 0x3a o 0x0)
  | .vsub _ o => some (wV 0x3a o 0x1)
  | .vmul _ o => some (wV 0x3a o 0x2)
  | .vmulh _ o => some (wV 0x3a o 0x3)
  | .vmulhu _ o => some (wV 0x3a o 0x4)
  | .vand _ o => some (wV 0x3a o 0x5)
  | .vor _ o => some (wV 0x3a o 0x6)
  | .vxor _ o => some (wV 0x3a o 0x7)
  | .vsll _ o => some (wV 0x3a o 0x8)
  | .vsrl _ o => some (wV 0x3a o 0x9)
  | .vsra _ o => some (wV 0x3a o 0xa)
  | .vmin _ o => some (wV 0x3a o 0xb)
  | .vmax _ o => some (wV 0x3a o 0xc)
  | .vminu _ o => some (wV 0x3a o 0xd)
  | .vmaxu _ o => some (wV 0x3a o 0xe)
  | .vsadd _ o => some (wV 0x3a o 0xf)
  | .vssub _ o => some (wV 0x3a o 0x10)
  | .vsaddu _ o => some (wV 0x3a o 0x11)
  | .vssubu _ o => some (wV 0x3a o 0x12)
  | .vmseq _ o => some (wV 0x3a o 0x13)
  | .vmslt _ o => some (wV 0x3a o 0x14)
  | .vmsltu _ o => some (wV 0x3a o 0x15)
  | .vsel _ o => some (wV 0x3a o 0x16)
  | .vmv _ o => some (wV 0x3a o 0x17)
  | .vld _ o => some (wV 0x3b o 0x0)
  | .vlds _ o => some (wV 0x3b o 0x1)
  | .vldx _ o => some (wV 0x3b o 0x2)
  | .vldff _ o => some (wV 0x3b o 0x3)
  | .vldg _ o => some (wV 0x3b o 0x4)
  | .vldm _ o => some (wV 0x3b o 0x5)
  | .vst _ o => some (wV 0x3b o 0x8)
  | .vsts _ o => some (wV 0x3b o 0x9)
  | .vstx _ o => some (wV 0x3b o 0xa)
  | .vstg _ o => some (wV 0x3b o 0xc)
  | .vstm _ o => some (wV 0x3b o 0xd)
  | .vperm _ o => some (wV 0x3c o 0x0)
  | .vslideup _ o => some (wV 0x3c o 0x1)
  | .vslidedn _ o => some (wV 0x3c o 0x2)
  | .vcompress _ o => some (wV 0x3c o 0x3)
  | .viota _ o => some (wV 0x3c o 0x4)
  | .vredAdd _ o => some (wV 0x3c o 0x8)
  | .vredMin _ o => some (wV 0x3c o 0x9)
  | .vredMax _ o => some (wV 0x3c o 0xa)
  | .vredMinu _ o => some (wV 0x3c o 0xb)
  | .vredMaxu _ o => some (wV 0x3c o 0xc)
  | .vscanAdd _ o => some (wV 0x3c o 0x10)
  | .vscanMin _ o => some (wV 0x3c o 0x11)
  | .vscanMax _ o => some (wV 0x3c o 0x12)
  | .vscanMinu _ o => some (wV 0x3c o 0x13)
  | .vscanMaxu _ o => some (wV 0x3c o 0x14)
  | .vmand _ o => some (wV 0x3c o 0x18)
  | .vmor _ o => some (wV 0x3c o 0x19)
  | .vmxor _ o => some (wV 0x3c o 0x1a)
  | .vmandn _ o => some (wV 0x3c o 0x1b)
  | .vpopc _ o => some (wV 0x3c o 0x1c)
  | .vfirst _ o => some (wV 0x3c o 0x1d)
  | .vredFadd _ o => some (wV 0x3c o 0x28)
  | .vredFmin _ o => some (wV 0x3c o 0x29)
  | .vredFmax _ o => some (wV 0x3c o 0x2a)
  | .vscanFadd _ o => some (wV 0x3c o 0x30)
  | .vscanFmin _ o => some (wV 0x3c o 0x31)
  | .vscanFmax _ o => some (wV 0x3c o 0x32)
  | .vexp _ o => some (wV 0x3d o 0x0)
  | .vlog _ o => some (wV 0x3d o 0x1)
  | .vrsqrt _ o => some (wV 0x3d o 0x2)
  | .vtanh _ o => some (wV 0x3d o 0x3)
  | .verf _ o => some (wV 0x3d o 0x4)
  | .vsigm _ o => some (wV 0x3d o 0x5)
  | .vsilu _ o => some (wV 0x3d o 0x6)
  | .vgelu _ o => some (wV 0x3d o 0x7)
  | .vcvtF _ o => some (wV 0x3d o 0x10)
  | .vcvtFs _ o => some (wV 0x3d o 0x11)
  | .vcvtI _ o => some (wV 0x3d o 0x12)
  | .vcvtIz _ o => some (wV 0x3d o 0x13)
  | .vcvtU _ o => some (wV 0x3d o 0x14)
  | .vcvtUz _ o => some (wV 0x3d o 0x15)
  | .vqmx _ o => some (wV 0x3d o 0x18)
  | .vdqmx _ o => some (wV 0x3d o 0x19)
  | .vpopw _ o => some (wV 0x3e o 0x0)
  | .vpopwNb _ o => some (wV 0x3e o 0x1)
  | .vpushw _ o => some (wV 0x3e o 0x2)
  | .vmvX _ o => some (wV 0x3e o 0x8)
  | .vmvS _ o => some (wV 0x3e o 0x9)
  | .vwait _ => some (wR 0x3E 0 0 0 0x10)
  | .reservedOpcode _ w => some w
  | .bsfDataWrite _ o => some (wR 0x1F o.gd o.ga o.gb ((BitVec.ofBool o.dbl).setWidth 11))
  | .rcpAdmit _ o => some (wR 0x1F o.gd o.ga o.gb ((BitVec.ofBool o.dbl).setWidth 11))
  | .rcpWithdraw _ o => some (wR 0x1F o.gd o.ga o.gb ((BitVec.ofBool o.dbl).setWidth 11))
  | .invStartWrite _ o => some (wR 0x1F o.gd o.ga o.gb ((BitVec.ofBool o.dbl).setWidth 11))
  | .slCtlSet _ o => some (wR 0x1F o.gd o.ga o.gb ((BitVec.ofBool o.dbl).setWidth 11))
  | .slCtlClear _ o => some (wR 0x1F o.gd o.ga o.gb ((BitVec.ofBool o.dbl).setWidth 11))
  | .timerCmpWrite _ o => some (wR 0x1F o.gd o.ga o.gb ((BitVec.ofBool o.dbl).setWidth 11))
  | .ttWindowWrite _ _ o => some (wR 0x1F o.gd o.ga o.gb ((BitVec.ofBool o.dbl).setWidth 11))
  | .bsfDataRead _ o => some (wI (if o.dbl then 0x1E else 0x1D) o.gd o.ga o.disp)
  | _ => none

/-- Does a word of major 0x1 name an instruction. -/
def ok01 (x : WordFields) : Bool :=
  [0x0, 0x1, 0x2, 0x3, 0x4, 0x5, 0x6, 0x7, 0x8, 0x9, 0xa, 0xb, 0xc, 0xd, 0x100, 0x101, 0x105, 0x106, 0x107].contains x.fn.toNat

/-- Does a word of major 0x2 name an instruction. -/
def ok02 (x : WordFields) : Bool :=
  [0x0, 0x1, 0x2, 0x4, 0x5, 0x6, 0x7, 0x100, 0x104, 0x105, 0x106, 0x107].contains x.fn.toNat

/-- Does a word of major 0x3 name an instruction. -/
def ok03 (x : WordFields) : Bool :=
  [0x20, 0x21].contains x.fn.toNat ||
    ([0x0, 0x1, 0x2, 0x3, 0x4, 0x5, 0x100, 0x101, 0x102, 0x103, 0x104, 0x105].contains x.fn.toNat && x.gb == 0) ||
    (x.fn &&& 0x7FC == 0x10) ||
    (x.fn &&& 0x7FC == 0x14)

/-- Does a word of major 0x4 name an instruction. -/
def ok04 (x : WordFields) : Bool :=
  (x.fn &&& 0x3FF == 0x0) ||
    (x.fn &&& 0x3FF == 0x1) ||
    (x.fn &&& 0x3FF == 0x2) ||
    (x.fn &&& 0x3FF == 0x3) ||
    (x.fn &&& 0x3FF == 0x5) ||
    (x.fn &&& 0x3FF == 0x6) ||
    (x.fn &&& 0x3FF == 0x7) ||
    (x.fn &&& 0x3FF == 0x8) ||
    (x.fn &&& 0x3FF == 0x9) ||
    (x.fn &&& 0x3FF == 0xa) ||
    (x.fn &&& 0x3FF == 0xd) ||
    (x.fn &&& 0x3FF == 0x4 && x.gb == 0) ||
    (x.fn &&& 0x3FF == 0xb && x.gb == 0) ||
    (x.fn &&& 0x3FF == 0xc && x.gb == 0) ||
    (x.fn &&& 0x3FF == 0xe && x.gb == 0) ||
    (x.fn &&& 0x3FF == 0x10 && x.gb == 0) ||
    (x.fn &&& 0x3FF == 0x11 && x.gb == 0) ||
    (x.fn &&& 0x3FF == 0x12 && x.gb == 0) ||
    (x.fn &&& 0x3FF == 0x13 && x.gb == 0) ||
    (x.fn &&& 0x3FF == 0x14 && x.gb == 0) ||
    (x.fn &&& 0x3FF == 0x18 && x.gb == 0) ||
    (x.fn &&& 0x3FF == 0x19 && x.gb == 0)

/-- Does a word of major 0x9 name an instruction. -/
def ok09 (x : WordFields) : Bool :=
  (x.ga == 0)

/-- Does a word of major 0xb name an instruction. -/
def ok0B (x : WordFields) : Bool :=
  (x.imm &&& 0xFFC0 == 0x0) ||
    (x.imm &&& 0xFFC0 == 0x40) ||
    (x.imm &&& 0xFFC0 == 0x80)

/-- Does a word of major 0x1c name an instruction. -/
def ok1C (x : WordFields) : Bool :=
  (x.fn &&& 0x7FE == 0x0) ||
    (x.fn &&& 0x7FE == 0x2) ||
    (x.fn &&& 0x7FE == 0x4)

/-- Does a word of major 0x1f name an instruction. -/
def ok1F (x : WordFields) : Bool :=
  [0x0, 0x1].contains x.fn.toNat

/-- Does a word of major 0x28 name an instruction. -/
def ok28 (x : WordFields) : Bool :=
  (x.fn == 0 && x.gd == 0 && x.gb == 0) ||
    (x.fn == 1 && x.gb == 0)

/-- Does a word of major 0x2c name an instruction. -/
def ok2C (x : WordFields) : Bool :=
  (x.imm.setWidth 4 == (0 : BitVec 4) && x.ga == 0) ||
    (x.imm.setWidth 4 == (1 : BitVec 4)) ||
    (x.imm.setWidth 4 == (2 : BitVec 4)) ||
    (x.imm.setWidth 4 == (3 : BitVec 4))

/-- Does a word of major 0x2d name an instruction. -/
def ok2D (x : WordFields) : Bool :=
  (x.fn == 0 && x.gd == 0 && x.ga == 0 && x.gb == 0) ||
    (x.fn == 1 && x.gd == 0 && x.ga == 0 && x.gb == 0) ||
    (x.fn == 2 && x.gd == 0 && x.ga == 0 && x.gb == 0) ||
    (x.fn == 3 && x.gd == 0 && x.ga == 0 && x.gb == 0) ||
    (x.fn == 4 && x.gd == 0 && x.ga == 0 && x.gb == 0) ||
    (x.fn == 9 && x.gd == 0 && x.ga == 0 && x.gb == 0) ||
    (x.fn == 5 && x.gd == 0 && x.gb == 0) ||
    (x.fn == 8 && x.gd == 0 && x.gb == 0)

/-- Does a word of major 0x30 name an instruction. -/
def ok30 (x : WordFields) : Bool :=
  (x.fn == 1 && x.ga == 0) ||
    (x.fn == 2 && x.gb == 0) ||
    (x.fn == 3)

/-- Does a word of major 0x39 name an instruction. -/
def ok39 (x : WordFields) : Bool :=
  [0x0, 0x1, 0x2, 0x3, 0x4, 0x5, 0x6, 0x7, 0x8, 0x9, 0xa, 0xb, 0xc, 0xd, 0xe, 0xf].contains x.f6.toNat

/-- Does a word of major 0x3a name an instruction. -/
def ok3A (x : WordFields) : Bool :=
  [0x0, 0x1, 0x2, 0x3, 0x4, 0x5, 0x6, 0x7, 0x8, 0x9, 0xa, 0xb, 0xc, 0xd, 0xe, 0xf, 0x10, 0x11, 0x12, 0x13, 0x14, 0x15, 0x16, 0x17].contains x.f6.toNat

/-- Does a word of major 0x3b name an instruction. -/
def ok3B (x : WordFields) : Bool :=
  [0x0, 0x1, 0x2, 0x3, 0x4, 0x5, 0x8, 0x9, 0xa, 0xc, 0xd].contains x.f6.toNat && !x.o.s

/-- Does a word of major 0x3c name an instruction. -/
def ok3C (x : WordFields) : Bool :=
  [0x0, 0x1, 0x2, 0x3, 0x4, 0x8, 0x9, 0xa, 0xb, 0xc, 0x10, 0x11, 0x12, 0x13, 0x14, 0x18, 0x19, 0x1a, 0x1b, 0x1c, 0x1d, 0x28, 0x29, 0x2a, 0x30, 0x31, 0x32].contains x.f6.toNat && !x.o.s

/-- Does a word of major 0x3d name an instruction. -/
def ok3D (x : WordFields) : Bool :=
  [0x0, 0x1, 0x2, 0x3, 0x4, 0x5, 0x6, 0x7, 0x10, 0x11, 0x12, 0x13, 0x14, 0x15, 0x18, 0x19].contains x.f6.toNat && !x.o.s

/-- Does a word of major 0x3e name an instruction. -/
def ok3E (x : WordFields) : Bool :=
  [0x0, 0x1, 0x2, 0x8, 0x9].contains x.f6.toNat && !x.o.s ||
    (x.w == 0xF8000010#32)

/-- Does a word name an instruction of chapters 9 and 10, with its unused fields zero; a word that does not is a reserved opcode
(R305). The fields that format V leaves unused are judged by the meanings. -/
def namesInstr (w : Word32) : Bool :=
  let x := wordFields w
  match (w.extractLsb' 26 6 : BitVec 6).toNat with
  | 0x1 => ok01 x
  | 0x2 => ok02 x
  | 0x3 => ok03 x
  | 0x4 => ok04 x
  | 0x5 => true
  | 0x6 => true
  | 0x7 => true
  | 0x8 => true
  | 0x9 => ok09 x
  | 0xa => true
  | 0xb => ok0B x
  | 0xc => true
  | 0x10 => true
  | 0x11 => true
  | 0x12 => true
  | 0x13 => true
  | 0x14 => true
  | 0x15 => true
  | 0x16 => true
  | 0x18 => true
  | 0x19 => true
  | 0x1a => true
  | 0x1b => true
  | 0x1c => ok1C x
  | 0x1d => true
  | 0x1e => true
  | 0x1f => ok1F x
  | 0x20 => true
  | 0x21 => true
  | 0x22 => true
  | 0x23 => true
  | 0x24 => true
  | 0x25 => true
  | 0x26 => true
  | 0x27 => true
  | 0x28 => ok28 x
  | 0x2c => ok2C x
  | 0x2d => ok2D x
  | 0x30 => ok30 x
  | 0x38 => true
  | 0x39 => ok39 x
  | 0x3a => ok3A x
  | 0x3b => ok3B x
  | 0x3c => ok3C x
  | 0x3d => ok3D x
  | 0x3e => ok3E x
  | _ => false

end Sys2Proof.Machine
end

