-- ==== Sys2Proof/Machine/Scalar.lean ====
section
/-! DEFINITION. Scalar arithmetic, bit, CRC-step, floating-point and immediate instructions of the lead core (R304, R306–R308, R311;
Tables 9-3 to 9-5). -/

namespace Sys2Proof.Machine

/-! ### Integer operations (Table 9-4) -/

/-- The low 32 bits. -/
def lo32 (a : Word) : Word32 := a.setWidth 32
/-- A .W result is written sign-extended (R306). -/
def sx32 (x : Word32) : Word := x.signExtend 64
/-- The .W bit instructions zero-extend (R306). -/
def zx32 (x : Word32) : Word := x.setWidth 64

def aluSll (a b : Word) : Word := a <<< (b.toNat % 64)
def aluSrl (a b : Word) : Word := a >>> (b.toNat % 64)
def aluSra (a b : Word) : Word := a.sshiftRight (b.toNat % 64)
def aluSlt (a b : Word) : Word := if a.slt b then 1 else 0
def aluSltu (a b : Word) : Word := if a < b then 1 else 0
def aluMin (a b : Word) : Word := if b.slt a then b else a
def aluMax (a b : Word) : Word := if a.slt b then b else a
def aluMinu (a b : Word) : Word := if b < a then b else a
def aluMaxu (a b : Word) : Word := if a < b then b else a
def aluMulh (a b : Word) : Word := ((a.signExtend 128 * b.signExtend 128) >>> 64).setWidth 64
def aluMulhu (a b : Word) : Word := ((a.setWidth 128 * b.setWidth 128) >>> 64).setWidth 64

/-- R307: division by zero gives all ones, and the remainder is the dividend; −2^(n−1) ÷ −1 gives itself and remainder 0. -/
def divS {n : Nat} (a b : BitVec n) : BitVec n := if b = 0 then -1 else a.sdiv b
def divU {n : Nat} (a b : BitVec n) : BitVec n := if b = 0 then -1 else a / b
def remS {n : Nat} (a b : BitVec n) : BitVec n := if b = 0 then a else a.srem b
def remU {n : Nat} (a b : BitVec n) : BitVec n := if b = 0 then a else a % b

/-- Counts over the low `n` bits. -/
def clzN (n v : Nat) : Nat := if v = 0 then n else n - 1 - Nat.log2 v
def ctzN (n v : Nat) : Nat := ((List.range n).find? (bit v)).getD n

/-- Bytes of an `n`-byte value reversed. -/
def swapN (n v : Nat) : Nat := natBE (bytesLE n v)

/-- CRC32 and CRC32C of n = 1, 2, 4 or 8 bytes of gb (R308). -/
def crcStep (poly : Nat) (a b : Word) (sz : BitVec 2) : Word :=
  toW (crcBytes poly (a.toNat % 2 ^ 32) (bytesLE (2 ^ sz.toNat) b.toNat))

/-! ### Floating point (Table 9-5) -/

/-- The format of a precision bit and the operand's bits in it (R302). -/
def fpF (single : Bool) : Nat := if single then 1 else 0
def fpArg (single : Bool) (a : Word) : Nat := if single then a.toNat % 2 ^ 32 else a.toNat

/-- A binary operation rounded in FPCTL.RM. -/
def fp2 (single : Bool) (op : Nat → Nat → Nat → Nat → FRes) (ga gb : Reg) (c : Core) : FRes :=
  op (fpF single) (rmOf c.fpctl) (fpArg single (gpr c ga)) (fpArg single (gpr c gb))

/-- A comparison (R134). -/
def fpC (single : Bool) (kind : Nat) (ga gb : Reg) (c : Core) : FRes :=
  fCmp (fpF single) kind (fpArg single (gpr c ga)) (fpArg single (gpr c gb))

/-- FMIN and FMAX with their flags (R135, R136). -/
def fpMM (single isMax : Bool) (ga gb : Reg) (c : Core) : FRes :=
  let a := fpArg single (gpr c ga)
  let b := fpArg single (gpr c gb)
  ⟨fMaxMin isMax (fpF single) a b, fSnanFlag (fpF single) a b⟩

/-- A sign-bit operation (R130): the sign of the result from both signs. -/
def fpSign (single : Bool) (f : Bool → Bool → Bool) (ga gb : Reg) (c : Core) : FRes :=
  let a := fpArg single (gpr c ga)
  let b := fpArg single (gpr c gb)
  let sg := fSign (fpF single)
  ⟨a % sg + (if f (decide (sg ≤ a)) (decide (sg ≤ b)) then sg else 0), 0⟩

/-- Conversion to an integer of `n` bits, sign-extended to 64, in FPCTL.RM or truncating. -/
def fpToInt (single trunc : Bool) (n : Nat) (ga : Reg) (c : Core) : FRes :=
  let r := fToInt (if trunc then 1 else rmOf c.fpctl) (intLo true n) (intHi true n) (fDec (fpF single) (fpArg single (gpr c ga)))
  ⟨toBits 64 r.1, r.2⟩

/-! ### The instructions -/

/-- ADD (R306). -/
def execAdd (p : Nat) (gd ga gb : Reg) (s : State) : Result :=
  done (issue s p (compute p gd fun c => (gpr c ga) + (gpr c gb)))

/-- SUB (R306). -/
def execSub (p : Nat) (gd ga gb : Reg) (s : State) : Result :=
  done (issue s p (compute p gd fun c => (gpr c ga) - (gpr c gb)))

/-- AND (R306). -/
def execAnd (p : Nat) (gd ga gb : Reg) (s : State) : Result :=
  done (issue s p (compute p gd fun c => (gpr c ga) &&& (gpr c gb)))

/-- OR (R306). -/
def execOr (p : Nat) (gd ga gb : Reg) (s : State) : Result :=
  done (issue s p (compute p gd fun c => (gpr c ga) ||| (gpr c gb)))

/-- XOR (R306). -/
def execXor (p : Nat) (gd ga gb : Reg) (s : State) : Result :=
  done (issue s p (compute p gd fun c => (gpr c ga) ^^^ (gpr c gb)))

/-- SLL (R306). -/
def execSll (p : Nat) (gd ga gb : Reg) (s : State) : Result :=
  done (issue s p (compute p gd fun c => aluSll (gpr c ga) (gpr c gb)))

/-- SRL (R306). -/
def execSrl (p : Nat) (gd ga gb : Reg) (s : State) : Result :=
  done (issue s p (compute p gd fun c => aluSrl (gpr c ga) (gpr c gb)))

/-- SRA (R306). -/
def execSra (p : Nat) (gd ga gb : Reg) (s : State) : Result :=
  done (issue s p (compute p gd fun c => aluSra (gpr c ga) (gpr c gb)))

/-- SLT (R306). -/
def execSlt (p : Nat) (gd ga gb : Reg) (s : State) : Result :=
  done (issue s p (compute p gd fun c => aluSlt (gpr c ga) (gpr c gb)))

/-- SLTU (R306). -/
def execSltu (p : Nat) (gd ga gb : Reg) (s : State) : Result :=
  done (issue s p (compute p gd fun c => aluSltu (gpr c ga) (gpr c gb)))

/-- MIN (R306). -/
def execMin (p : Nat) (gd ga gb : Reg) (s : State) : Result :=
  done (issue s p (compute p gd fun c => aluMin (gpr c ga) (gpr c gb)))

/-- MAX (R306). -/
def execMax (p : Nat) (gd ga gb : Reg) (s : State) : Result :=
  done (issue s p (compute p gd fun c => aluMax (gpr c ga) (gpr c gb)))

/-- MINU (R306). -/
def execMinu (p : Nat) (gd ga gb : Reg) (s : State) : Result :=
  done (issue s p (compute p gd fun c => aluMinu (gpr c ga) (gpr c gb)))

/-- MAXU (R306). -/
def execMaxu (p : Nat) (gd ga gb : Reg) (s : State) : Result :=
  done (issue s p (compute p gd fun c => aluMaxu (gpr c ga) (gpr c gb)))

/-- ADD_W (R306). -/
def execAddW (p : Nat) (gd ga gb : Reg) (s : State) : Result :=
  done (issue s p (compute p gd fun c => sx32 (lo32 (gpr c ga) + lo32 (gpr c gb))))

/-- SUB_W (R306). -/
def execSubW (p : Nat) (gd ga gb : Reg) (s : State) : Result :=
  done (issue s p (compute p gd fun c => sx32 (lo32 (gpr c ga) - lo32 (gpr c gb))))

/-- SLL_W (R306). -/
def execSllW (p : Nat) (gd ga gb : Reg) (s : State) : Result :=
  done (issue s p (compute p gd fun c => sx32 (lo32 (gpr c ga) <<< ((gpr c gb).toNat % 32))))

/-- SRL_W (R306). -/
def execSrlW (p : Nat) (gd ga gb : Reg) (s : State) : Result :=
  done (issue s p (compute p gd fun c => sx32 (lo32 (gpr c ga) >>> ((gpr c gb).toNat % 32))))

/-- SRA_W (R306). -/
def execSraW (p : Nat) (gd ga gb : Reg) (s : State) : Result :=
  done (issue s p (compute p gd fun c => sx32 ((lo32 (gpr c ga)).sshiftRight ((gpr c gb).toNat % 32))))

/-- MUL (R306). -/
def execMul (p : Nat) (gd ga gb : Reg) (s : State) : Result :=
  done (issue s p (compute p gd fun c => (gpr c ga) * (gpr c gb)))

/-- MULH (R306). -/
def execMulh (p : Nat) (gd ga gb : Reg) (s : State) : Result :=
  done (issue s p (compute p gd fun c => aluMulh (gpr c ga) (gpr c gb)))

/-- MULHU (R306). -/
def execMulhu (p : Nat) (gd ga gb : Reg) (s : State) : Result :=
  done (issue s p (compute p gd fun c => aluMulhu (gpr c ga) (gpr c gb)))

/-- DIV (R307). -/
def execDiv (p : Nat) (gd ga gb : Reg) (s : State) : Result :=
  done (issue s p (compute p gd fun c => divS (gpr c ga) (gpr c gb)))

/-- DIVU (R307). -/
def execDivu (p : Nat) (gd ga gb : Reg) (s : State) : Result :=
  done (issue s p (compute p gd fun c => divU (gpr c ga) (gpr c gb)))

/-- REM (R307). -/
def execRem (p : Nat) (gd ga gb : Reg) (s : State) : Result :=
  done (issue s p (compute p gd fun c => remS (gpr c ga) (gpr c gb)))

/-- REMU (R307). -/
def execRemu (p : Nat) (gd ga gb : Reg) (s : State) : Result :=
  done (issue s p (compute p gd fun c => remU (gpr c ga) (gpr c gb)))

/-- MUL_W (R306). -/
def execMulW (p : Nat) (gd ga gb : Reg) (s : State) : Result :=
  done (issue s p (compute p gd fun c => sx32 (lo32 (gpr c ga) * lo32 (gpr c gb))))

/-- DIV_W (R307). -/
def execDivW (p : Nat) (gd ga gb : Reg) (s : State) : Result :=
  done (issue s p (compute p gd fun c => sx32 (divS (lo32 (gpr c ga)) (lo32 (gpr c gb)))))

/-- DIVU_W (R307). -/
def execDivuW (p : Nat) (gd ga gb : Reg) (s : State) : Result :=
  done (issue s p (compute p gd fun c => sx32 (divU (lo32 (gpr c ga)) (lo32 (gpr c gb)))))

/-- REM_W (R307). -/
def execRemW (p : Nat) (gd ga gb : Reg) (s : State) : Result :=
  done (issue s p (compute p gd fun c => sx32 (remS (lo32 (gpr c ga)) (lo32 (gpr c gb)))))

/-- REMU_W (R307). -/
def execRemuW (p : Nat) (gd ga gb : Reg) (s : State) : Result :=
  done (issue s p (compute p gd fun c => sx32 (remU (lo32 (gpr c ga)) (lo32 (gpr c gb)))))

/-- CLZ (R306). -/
def execClz (p : Nat) (gd ga : Reg) (s : State) : Result :=
  done (issue s p (compute p gd fun c => toW (clzN 64 (gpr c ga).toNat)))

/-- CTZ (R306). -/
def execCtz (p : Nat) (gd ga : Reg) (s : State) : Result :=
  done (issue s p (compute p gd fun c => toW (ctzN 64 (gpr c ga).toNat)))

/-- POPC (R306). -/
def execPopc (p : Nat) (gd ga : Reg) (s : State) : Result :=
  done (issue s p (compute p gd fun c => toW (popcount 64 (gpr c ga).toNat)))

/-- PAR (R306). -/
def execPar (p : Nat) (gd ga : Reg) (s : State) : Result :=
  done (issue s p (compute p gd fun c => toW (popcount 64 (gpr c ga).toNat % 2)))

/-- BREV (R306). -/
def execBrev (p : Nat) (gd ga : Reg) (s : State) : Result :=
  done (issue s p (compute p gd fun c => toW (revBits 64 (gpr c ga).toNat)))

/-- BSWAP (R306). -/
def execBswap (p : Nat) (gd ga : Reg) (s : State) : Result :=
  done (issue s p (compute p gd fun c => toW (swapN 8 (gpr c ga).toNat)))

/-- CLZ_W (R306). -/
def execClzW (p : Nat) (gd ga : Reg) (s : State) : Result :=
  done (issue s p (compute p gd fun c => toW (clzN 32 (lo32 (gpr c ga)).toNat)))

/-- CTZ_W (R306). -/
def execCtzW (p : Nat) (gd ga : Reg) (s : State) : Result :=
  done (issue s p (compute p gd fun c => toW (ctzN 32 (lo32 (gpr c ga)).toNat)))

/-- POPC_W (R306). -/
def execPopcW (p : Nat) (gd ga : Reg) (s : State) : Result :=
  done (issue s p (compute p gd fun c => toW (popcount 32 (lo32 (gpr c ga)).toNat)))

/-- PAR_W (R306). -/
def execParW (p : Nat) (gd ga : Reg) (s : State) : Result :=
  done (issue s p (compute p gd fun c => toW (popcount 32 (lo32 (gpr c ga)).toNat % 2)))

/-- BREV_W (R306). -/
def execBrevW (p : Nat) (gd ga : Reg) (s : State) : Result :=
  done (issue s p (compute p gd fun c => toW (revBits 32 (lo32 (gpr c ga)).toNat)))

/-- BSWAP_W (R306). -/
def execBswapW (p : Nat) (gd ga : Reg) (s : State) : Result :=
  done (issue s p (compute p gd fun c => toW (swapN 4 (lo32 (gpr c ga)).toNat)))

/-- CRC32 (R308). -/
def execCrc32 (p : Nat) (gd ga gb : Reg) (sz : BitVec 2) (s : State) : Result :=
  done (issue s p (compute p gd fun c => crcStep polyCrc32 (gpr c ga) (gpr c gb) sz))

/-- CRC32C (R308). -/
def execCrc32c (p : Nat) (gd ga gb : Reg) (sz : BitVec 2) (s : State) : Result :=
  done (issue s p (compute p gd fun c => crcStep polyCrc32c (gpr c ga) (gpr c gb) sz))

/-- FADD (R311). -/
def execFadd (p : Nat) (single : Bool) (gd ga gb : Reg) (s : State) : Result :=
  done (issue s p (computeFp p gd (fp2 single fAdd ga gb)))

/-- FSUB (R311). -/
def execFsub (p : Nat) (single : Bool) (gd ga gb : Reg) (s : State) : Result :=
  done (issue s p (computeFp p gd (fp2 single fSub ga gb)))

/-- FMUL (R311). -/
def execFmul (p : Nat) (single : Bool) (gd ga gb : Reg) (s : State) : Result :=
  done (issue s p (computeFp p gd (fp2 single fMul ga gb)))

/-- FDIV (R311). -/
def execFdiv (p : Nat) (single : Bool) (gd ga gb : Reg) (s : State) : Result :=
  done (issue s p (computeFp p gd (fp2 single fDiv ga gb)))

/-- FSQRT (R311). -/
def execFsqrt (p : Nat) (single : Bool) (gd ga : Reg) (s : State) : Result :=
  done (issue s p (computeFp p gd fun c => fSqrt (fpF single) (rmOf c.fpctl) (fpArg single (gpr c ga))))

/-- FMA (R311). -/
def execFma (p : Nat) (single : Bool) (gd ga gb : Reg) (s : State) : Result :=
  done (issue s p (computeFp p gd fun c =>
    fMulAdd (fpF single) (rmOf c.fpctl) (fpArg single (gpr c ga)) (fpArg single (gpr c gb)) (fpArg single (gpr c gd))))

/-- FMIN (R311). -/
def execFmin (p : Nat) (single : Bool) (gd ga gb : Reg) (s : State) : Result :=
  done (issue s p (computeFp p gd (fpMM single false ga gb)))

/-- FMAX (R311). -/
def execFmax (p : Nat) (single : Bool) (gd ga gb : Reg) (s : State) : Result :=
  done (issue s p (computeFp p gd (fpMM single true ga gb)))

/-- FEQ (R311). -/
def execFeq (p : Nat) (single : Bool) (gd ga gb : Reg) (s : State) : Result :=
  done (issue s p (computeFp p gd (fpC single 0 ga gb)))

/-- FLT (R311). -/
def execFlt (p : Nat) (single : Bool) (gd ga gb : Reg) (s : State) : Result :=
  done (issue s p (computeFp p gd (fpC single 1 ga gb)))

/-- FLE (R311). -/
def execFle (p : Nat) (single : Bool) (gd ga gb : Reg) (s : State) : Result :=
  done (issue s p (computeFp p gd (fpC single 2 ga gb)))

/-- FNEG (R311). -/
def execFneg (p : Nat) (single : Bool) (gd ga : Reg) (s : State) : Result :=
  done (issue s p (computeFp p gd (fpSign single (fun a _ => !a) ga 0)))

/-- FABS (R311). -/
def execFabs (p : Nat) (single : Bool) (gd ga : Reg) (s : State) : Result :=
  done (issue s p (computeFp p gd (fpSign single (fun _ _ => false) ga 0)))

/-- FSGNJ (R311). -/
def execFsgnj (p : Nat) (single : Bool) (gd ga gb : Reg) (s : State) : Result :=
  done (issue s p (computeFp p gd (fpSign single (fun _ b => b) ga gb)))

/-- FKIND (R311). -/
def execFkind (p : Nat) (single : Bool) (gd ga : Reg) (s : State) : Result :=
  done (issue s p (computeFp p gd fun c => ⟨fKind (fpF single) (fpArg single (gpr c ga)), 0⟩))

/-- FCVT_F (R311). -/
def execFcvtF (p : Nat) (single : Bool) (gd ga : Reg) (s : State) : Result :=
  done (issue s p (computeFp p gd fun c =>
    fConv (fpF !single) (fpF single) (rmOf c.fpctl) false (fpArg (!single) (gpr c ga))))

/-- FCVT_L (R311). -/
def execFcvtL (p : Nat) (single : Bool) (gd ga : Reg) (s : State) : Result :=
  done (issue s p (computeFp p gd (fpToInt single false 64 ga)))

/-- FCVT_LZ (R311). -/
def execFcvtLz (p : Nat) (single : Bool) (gd ga : Reg) (s : State) : Result :=
  done (issue s p (computeFp p gd (fpToInt single true 64 ga)))

/-- FCVT_WI (R311). -/
def execFcvtWi (p : Nat) (single : Bool) (gd ga : Reg) (s : State) : Result :=
  done (issue s p (computeFp p gd (fpToInt single false 32 ga)))

/-- FCVT_WZ (R311). -/
def execFcvtWz (p : Nat) (single : Bool) (gd ga : Reg) (s : State) : Result :=
  done (issue s p (computeFp p gd (fpToInt single true 32 ga)))

/-- ICVT (R311). -/
def execIcvt (p : Nat) (single : Bool) (gd ga : Reg) (s : State) : Result :=
  done (issue s p (computeFp p gd fun c => fEnc (fpF single) (rmOf c.fpctl) false (ofInt (gpr c ga).toInt)))

/-- UCVT (R311). -/
def execUcvt (p : Nat) (single : Bool) (gd ga : Reg) (s : State) : Result :=
  done (issue s p (computeFp p gd fun c => fEnc (fpF single) (rmOf c.fpctl) false (ofInt ((gpr c ga).toNat : Int))))

/-- ADDI (R304). -/
def execAddi (p : Nat) (gd ga : Reg) (imm : BitVec 16) (s : State) : Result :=
  done (issue s p (compute p gd fun c => (gpr c ga) + imm.signExtend 64))

/-- ANDI (R304). -/
def execAndi (p : Nat) (gd ga : Reg) (imm : BitVec 16) (s : State) : Result :=
  done (issue s p (compute p gd fun c => (gpr c ga) &&& imm.setWidth 64))

/-- ORI (R304). -/
def execOri (p : Nat) (gd ga : Reg) (imm : BitVec 16) (s : State) : Result :=
  done (issue s p (compute p gd fun c => (gpr c ga) ||| imm.setWidth 64))

/-- XORI (R304). -/
def execXori (p : Nat) (gd ga : Reg) (imm : BitVec 16) (s : State) : Result :=
  done (issue s p (compute p gd fun c => (gpr c ga) ^^^ imm.setWidth 64))

/-- SLTI (R304). -/
def execSlti (p : Nat) (gd ga : Reg) (imm : BitVec 16) (s : State) : Result :=
  done (issue s p (compute p gd fun c => aluSlt (gpr c ga) (imm.signExtend 64)))

/-- SHORI (R304). -/
def execShori (p : Nat) (gd ga : Reg) (imm : BitVec 16) (s : State) : Result :=
  done (issue s p (compute p gd fun c => ((gpr c ga) <<< 16) ||| imm.setWidth 64))

/-- LUI (R304). -/
def execLui (p : Nat) (gd : Reg) (imm : BitVec 16) (s : State) : Result :=
  done (issue s p (compute p gd fun _ => imm.signExtend 64 <<< 16))

/-- SLLI (R304). -/
def execSlli (p : Nat) (gd ga : Reg) (sh : BitVec 6) (s : State) : Result :=
  done (issue s p (compute p gd fun c => (gpr c ga) <<< sh.toNat))

/-- SRLI (R304). -/
def execSrli (p : Nat) (gd ga : Reg) (sh : BitVec 6) (s : State) : Result :=
  done (issue s p (compute p gd fun c => (gpr c ga) >>> sh.toNat))

/-- SRAI (R304). -/
def execSrai (p : Nat) (gd ga : Reg) (sh : BitVec 6) (s : State) : Result :=
  done (issue s p (compute p gd fun c => (gpr c ga).sshiftRight sh.toNat))

end Sys2Proof.Machine
end

