-- ==== Sys2Proof/Machine/ScalarMem.lean ====
section
/-! DEFINITION. Loads, stores, atomics and the block CRC of the lead core (R309, R310, R312–R315). -/

namespace Sys2Proof.Machine

/-- The address of an access in M form: ga + sign_extend(disp16) (R312). -/
def mAddr (c : Core) (ga : Reg) (disp : BitVec 16) : Nat := (gpr c ga + disp.signExtend 64).toNat

/-- A load of `size` bytes, sign- or zero-extended (R312). -/
def doLoad (p : Nat) (gd ga : Reg) (disp : BitVec 16) (size : Nat) (signed : Bool) (w : Word32) (s : State) : State :=
  match loadData s p (mAddr (core s p) ga disp) size with
  | (.ok v, s) => retire (putReg s p gd (if signed then toWi (sext (8 * size) v) else toW v)) p
  | (.error e, s) => stopCore s p w e

/-- A store of `size` bytes (R312). -/
def doStore (p : Nat) (gs ga : Reg) (disp : BitVec 16) (size : Nat) (w : Word32) (s : State) : State :=
  let c := core s p
  match storeData s p (mAddr c ga disp) size (gpr c gs).toNat with
  | (none, s) => retire s p
  | (some e, s) => stopCore s p w e

/-- One update at a home, or at the core-local SRAM, which acts as its own home (log 12): the old value, or the stop. -/
def amoAt (s : State) (p : Nat) (l : Loc) (va op fmt x cmp : Nat) : Except Stop Nat × State :=
  match l with
  | .sram off =>
    let sz := opSize fmt
    let old := natLE (mgetN (core s p).localSram off sz)
    (.ok old, modCore s p fun c => { c with localSram := msetN c.localSram off (bytesLE sz (adderOp op fmt old x cmp).v) })
  | .mem pa =>
    match mayAsk s p 2 pa with
    | some x => (.error x, s)
    | none =>
    match updateAtom s (coreCtx s p 0 (.coreAtomic p)) pa op fmt [x] cmp with
    | (.ok r, s) => (.ok (r.old.headD 0), s)
    | (.error (.uncorr cw), s) => (.error (.uncorr cw va false), s)
    | (.error .lost, s) => (.error .lost, s)

/-- An atomic (R315): canonical, then alignment, then translation for reading and writing; the store buffer drains and the data-cache
line of its address is invalidated before it issues. A word's result is sign-extended. -/
def doAmo (p : Nat) (gd ga gb : Reg) (dbl : Bool) (op fmt : Nat) (w : Word32) (s : State) : State :=
  let c := core s p
  let va := (gpr c ga).toNat
  let sz := if dbl then 8 else 4
  if 2 ^ 48 ≤ va then raiseExc s p cAddr va 0 false w
  else if va % sz ≠ 0 then raiseExc s p cAlign va 0 false w
  else
    match place s p va sz 3 0 false with
    | (.error e, s) => stopCore s p w e
    | (.ok l, s) =>
      match mayDrain s p 8 with
      | some x => stopCore s p w x
      | none =>
      let s := drainAll s p
      let s := match l with
        | .mem pa => modCore s p fun c => dcInval c pa sz
        | .sram _ => s
      match amoAt s p l va op fmt ((gpr c gb).toNat % 2 ^ (8 * sz)) ((gpr c gd).toNat % 2 ^ (8 * sz)) with
      | (.error e, s) => stopCore s p w e
      | (.ok old, s) => retire (putReg s p gd (toWi (sext (8 * sz) old))) p

/-- The OPFMT of an atomic that adds, and of one that moves bits (Table 8-6). -/
def amoFmtAdd (dbl : Bool) : Nat := if dbl then 4 else 3
def amoFmtBits (dbl : Bool) : Nat := if dbl then 6 else 5

/-- FUNC of an atomic (Table 9-3). -/
def amoFunc (dbl : Bool) (k : BitVec 11) : BitVec 11 := k <<< 1 + (BitVec.ofBool dbl).setWidth 11

/-- The pieces of a byte range within aligned 8-byte words. -/
def bytePieces : Nat → Nat → Nat → List (Nat × Nat)
  | 0, _, _ => []
  | fuel + 1, va, n =>
    if n = 0 then []
    else
      let k := min n (8 - va % 8)
      (va, k) :: bytePieces fuel (va + k) (n - k)

/-- CRCB and CRCB.C (R309, R310): every byte is translated and checked before any is read. -/
def doCrcb (p : Nat) (gd ga gb : Reg) (poly : Nat) (w : Word32) (s : State) : State :=
  let c := core s p
  let ps := bytePieces 40 (gpr c ga).toNat (min (gpr c gb).toNat 256)
  match ps.find? fun x => 2 ^ 48 < x.1 + x.2 with
  | some (va, _) => raiseExc s p cAddr (max va (2 ^ 48)) 0 false w
  | none =>
    match placeAll s p 1 0 false ps false with
    | (.error e, s) => stopCore s p w e
    | (.ok ls, s) =>
      match readHalves s p false ls ps false with
      | (.error e, s) => stopCore s p w e
      | (.ok d, s) =>
        retire (if ps.isEmpty then s else putReg s p gd (toW (crcBytes poly ((gpr c gd).toNat % 2 ^ 32) d))) p

/-! ### The instructions -/

/-- LD_B (R312). -/
def execLdB (p : Nat) (gd ga : Reg) (disp : BitVec 16) (s : State) : Result :=
  done (issue s p (doLoad p gd ga disp 1 true (wI 0x10 gd ga disp)))

/-- LD_BU (R312). -/
def execLdBu (p : Nat) (gd ga : Reg) (disp : BitVec 16) (s : State) : Result :=
  done (issue s p (doLoad p gd ga disp 1 false (wI 0x11 gd ga disp)))

/-- LD_H (R312). -/
def execLdH (p : Nat) (gd ga : Reg) (disp : BitVec 16) (s : State) : Result :=
  done (issue s p (doLoad p gd ga disp 2 true (wI 0x12 gd ga disp)))

/-- LD_HU (R312). -/
def execLdHu (p : Nat) (gd ga : Reg) (disp : BitVec 16) (s : State) : Result :=
  done (issue s p (doLoad p gd ga disp 2 false (wI 0x13 gd ga disp)))

/-- LD_W (R312). -/
def execLdW (p : Nat) (gd ga : Reg) (disp : BitVec 16) (s : State) : Result :=
  done (issue s p (doLoad p gd ga disp 4 true (wI 0x14 gd ga disp)))

/-- LD_WU (R312). -/
def execLdWu (p : Nat) (gd ga : Reg) (disp : BitVec 16) (s : State) : Result :=
  done (issue s p (doLoad p gd ga disp 4 false (wI 0x15 gd ga disp)))

/-- LD_D (R312). -/
def execLdD (p : Nat) (gd ga : Reg) (disp : BitVec 16) (s : State) : Result :=
  done (issue s p (doLoad p gd ga disp 8 true (wI 0x16 gd ga disp)))

/-- ST_B (R312). -/
def execStB (p : Nat) (gs ga : Reg) (disp : BitVec 16) (s : State) : Result :=
  done (issue s p (doStore p gs ga disp 1 (wI 0x18 gs ga disp)))

/-- ST_H (R312). -/
def execStH (p : Nat) (gs ga : Reg) (disp : BitVec 16) (s : State) : Result :=
  done (issue s p (doStore p gs ga disp 2 (wI 0x19 gs ga disp)))

/-- ST_W (R312). -/
def execStW (p : Nat) (gs ga : Reg) (disp : BitVec 16) (s : State) : Result :=
  done (issue s p (doStore p gs ga disp 4 (wI 0x1a gs ga disp)))

/-- ST_D (R312). -/
def execStD (p : Nat) (gs ga : Reg) (disp : BitVec 16) (s : State) : Result :=
  done (issue s p (doStore p gs ga disp 8 (wI 0x1b gs ga disp)))

/-- AMOADD (R315). -/
def execAmoadd (p : Nat) (gd ga gb : Reg) (dbl : Bool) (s : State) : Result :=
  done (issue s p (doAmo p gd ga gb dbl 0 (amoFmtAdd dbl) (wR 0x1C gd ga gb (amoFunc dbl 0))))

/-- AMOSWAP (R315). -/
def execAmoswap (p : Nat) (gd ga gb : Reg) (dbl : Bool) (s : State) : Result :=
  done (issue s p (doAmo p gd ga gb dbl 3 (amoFmtBits dbl) (wR 0x1C gd ga gb (amoFunc dbl 1))))

/-- AMOCAS (R315). -/
def execAmocas (p : Nat) (gd ga gb : Reg) (dbl : Bool) (s : State) : Result :=
  done (issue s p (doAmo p gd ga gb dbl 4 (amoFmtBits dbl) (wR 0x1C gd ga gb (amoFunc dbl 2))))

/-- CRCB (R309). -/
def execCrcb (p : Nat) (gd ga gb : Reg) (s : State) : Result :=
  done (issue s p (doCrcb p gd ga gb polyCrc32 (wR 0x3 gd ga gb 0x20)))

/-- CRCB_C (R309). -/
def execCrcbC (p : Nat) (gd ga gb : Reg) (s : State) : Result :=
  done (issue s p (doCrcb p gd ga gb polyCrc32c (wR 0x3 gd ga gb 0x21)))

end Sys2Proof.Machine
end

