-- ==== Sys2Proof/Machine/System.lean ====
section
/-! DEFINITION. Control flow, CSR and system instructions of the lead core, and the core's own events: interrupts, the timer, the
store buffer's drain, Breach requests and reset (R305, R320–R328, R380–R391). -/

namespace Sys2Proof.Machine

/-! ### Control flow (R320) -/

/-- A branch: the offset counts words from the branch's own address. -/
def doBranch (p : Nat) (taken : Word → Word → Bool) (ga gb : Reg) (off : BitVec 16) (s : State) : State :=
  let c := core s p
  if taken (gpr c ga) (gpr c gb) then retireTo s p (toW c.pc + off.signExtend 64 * 4).toNat else retire s p

/-- The target of a J form. -/
def jTarget (c : Core) (off : BitVec 26) : Nat := (toW c.pc + off.signExtend 64 * 4).toNat

/-- JR and CALLR: IALIGN, then ADDR (R378); the link register is written only when the jump succeeds. -/
def doJump (p : Nat) (link : Option Reg) (ga : Reg) (w : Word32) (s : State) : State :=
  let c := core s p
  let t := (gpr c ga).toNat
  if t % 4 ≠ 0 then raiseExc s p cIalign t 0 false w
  else if 2 ^ 48 ≤ t then raiseExc s p cAddr t 0 false w
  else
    let s := match link with
      | some r => putReg s p r (toW (c.pc + 4))
      | none => s
    retireTo s p t

/-! ### CSRs (Table 9-9) -/

/-- VLMAX(SEW) for VTYPE's SEW code `k`, SEW being 8 << k (R338). -/
def vlMax (s : State) (p k : Nat) : Nat := 1024 * nMembers s p * (polder s p).sec.vslots * 64 / (8 <<< k)

/-- The SEW code in effect. -/
def sewCode (c : Core) : Nat := fld c.vtype 0 3

/-- The CSR numbers of Table 9-9. -/
def csrKnown (n : Nat) : Bool :=
  n ≤ 3 || n == 0x10 || n == 0x11 || (0x100 ≤ n && n ≤ 0x107) || (0x110 ≤ n && n ≤ 0x112) || n == 0x120 || n == 0x130 ||
    (0x140 ≤ n && n ≤ 0x143) || n == 0x150

/-- The CSRs whose U column is not "no". -/
def csrUser (n : Nat) : Bool := n ≤ 3 || n == 0x10 || n == 0x11 || n == 0x150

/-- CORE_ID (Table 9-11): of an unassigned CD, RANK holds 0 (R6). -/
def coreId (s : State) (p : Nat) : Nat :=
  let cd := leadOf s p
  let k := (cdAt s cd).rank
  (cdAt s cd).polder <<< 16 + (if 24 ≤ k then 0 else k) <<< 8 + cd

/-- The edges of a die's ACLK in `n` units of DT from `t` (Table 9-9); which units hold one is the clock's (log 3). -/
def aclkCycles (die : Nat) : Nat → Nat → Nat
  | 0, _ => 0
  | n + 1, t => b2n (Config.aclkEdge die t) + aclkCycles die n (t + 1)

/-- The value in effect of a CSR (R325). -/
def csrRead (s : State) (p n : Nat) : Word :=
  let c := core s p
  if n = 0 then toW (aclkCycles (leadOf s p) (s.dt - c.dtReset) c.dtReset) else if n = 1 then c.instret else if n = 2 then toW s.dt else if n = 3 then c.fpctl
  else if n = 0x10 then toW c.vl else if n = 0x11 then c.vtype else if n = 0x100 then toW (statusOf c) else if n = 0x101 then c.estatus
  else if n = 0x102 then c.epc else if n = 0x103 then c.ecause else if n = 0x104 then c.eaddr else if n = 0x105 then c.einst
  else if n = 0x106 then c.bstk else if n = 0x107 then c.mldef else if n = 0x110 then c.itb else if n = 0x111 then c.dtb
  else if n = 0x112 then toW c.asid else if n = 0x120 then c.cctl else if n = 0x130 then toW (coreId s p)
  else if 0x140 ≤ n && n ≤ 0x143 then tget 0 c.scratch (n - 0x140) else if n = 0x150 then c.iostat.setWidth 64 else 0

/-- Set FPCTL under R9 and R10: an undefined RM keeps the old one; `w1c` clears the flags written as 1. -/
def putFpctl (old v : Word) (w1c : Bool) : Word :=
  let rm := if fld v 8 3 ≤ 3 then fld v 8 3 else fld old 8 3
  let fl := if w1c then fld old 0 5 - (fld old 0 5 &&& fld v 0 5) else fld old 0 5
  toW (rm <<< 8 + fl)

/-- Set VTYPE under R9 (Table 10-2): each undefined field value is ignored. -/
def putVtype (old v : Word) : Word :=
  let mew := if fld v 13 3 = 7 then fld old 13 3 else fld v 13 3
  let sew := if 4 ≤ fld v 0 3 then fld old 0 3 else fld v 0 3
  toW (mew <<< 13 + fld v 3 1 <<< 3 + sew)

/-- The writable bits of a CSR that SYNC.C applies. -/
def syncMask (n : Nat) : Word :=
  if n = 0x107 then 0xFFFFFFFFFFFF else if n = 0x112 then 0xFFFF else if n = 0x120 then 7 else 0xFFFFFFFF001

/-- Write a CSR: RW fields take `v`; `w1c` is false for CSRS and CSRC, which leave other access codes alone (R323). -/
def csrWrite (s : State) (p n : Nat) (v : Word) (w1c : Bool) : State :=
  modCore s p fun c =>
    if n = 3 then { c with fpctl := putFpctl c.fpctl v w1c }
    else if n = 0x10 then { c with vl := min v.toNat (vlMax s p (sewCode c)) }
    else if n = 0x11 then
      let c := { c with vtype := putVtype c.vtype v }
      { c with vl := min c.vl (vlMax s p (sewCode c)) }
    else if n = 0x100 then (if c.breach then c else { c with ml := fld v 8 3 })
    else if n = 0x101 then { c with estatus := v &&& 0x701 }
    else if n = 0x102 then { c with epc := v &&& (~~~ 3) }
    else if n = 0x103 then { c with ecause := v &&& 0x1FFF }
    else if n = 0x104 then { c with eaddr := v &&& 0xFFFFFFFFFFFF }
    else if n = 0x105 then { c with einst := v &&& 0xFFFFFFFF }
    else if n = 0x106 then { c with bstk := v &&& 0xFFFFFFFFFFC0 }
    else if n = 0x107 || n = 0x110 || n = 0x111 || n = 0x112 || n = 0x120 then { c with pendCsr := tins c.pendCsr n (v &&& syncMask n) }
    else if 0x140 ≤ n && n ≤ 0x143 then { c with scratch := tset 0 c.scratch (n - 0x140) v }
    else c

/-- A CSR instruction: an absent number traps (R323), U mode's refusals freeze, else old value to gd and the write `f`. -/
def doCsr (p : Nat) (gd : Reg) (n : Nat) (w : Word32) (f : Word → State → State) (s : State) : State :=
  if !csrKnown n then raiseExc s p cResop 0 0 false w
  else if (core s p).user && !csrUser n then violate s p vMode false 0xFFFFFFFF 0 w
  else
    let old := csrRead s p n
    retire (putReg (f old s) p gd old) p

/-! ### SYNC.C (R326, R327) -/

/-- Apply one pending CSR value. CCTL's change of ICE or DCE from 0 to 1 invalidates that cache. -/
def applyCsr (c : Core) (n : Nat) (v : Word) : Core :=
  if n = 0x107 then { c with mldef := v } else if n = 0x110 then { c with itb := v } else if n = 0x111 then { c with dtb := v }
  else if n = 0x112 then { c with asid := v.toNat }
  else
    { c with cctl := v,
             icache := if !bit c.cctl.toNat 0 && bit v.toNat 0 then [] else c.icache,
             dcache := if !bit c.cctl.toNat 1 && bit v.toNat 1 then [] else c.dcache }

/-- An instruction that waits for the store buffer to drain goes on once its stores can leave (R336, R408, R480). -/
def drained (p : Nat) (f : State → State) (s : State) : State :=
  match mayDrain s p 8 with
  | some x => stopCore s p 0 x
  | none => f (drainAll s p)

/-- SYNC.C, once the buffer has drained: apply pending CSRs and the polder's live fields, discard the line buffer. -/
def doSyncC (p : Nat) (s : State) : State :=
  let s := modCore s p fun c => { c.pendCsr.foldl (fun c e => applyCsr c e.1 e.2) c with pendCsr := [], lineBuf := [] }
  retire (applySync s p) p

/-- SYNC.I, once the buffer has drained: invalidate the instruction cache and the line buffer (Table 9-7). -/
def doSyncI (p : Nat) (s : State) : State :=
  retire (modCore s p fun c => { c with icache := [], lineBuf := [] }) p

/-- WAIT: complete, and issue nothing until an interrupt or a Breach request is taken (R391). -/
def doWait (p : Nat) (s : State) : State := modCore (retire s p) p fun c => { c with waiting := true }

/-- DC.INV (Table 9-7): an unmapped address is no fault; the core-local SRAM is not cached. -/
def doDcInv (p : Nat) (ga : Reg) (w : Word32) (s : State) : State :=
  let c := core s p
  let va := (gpr c ga).toNat
  if 2 ^ 48 ≤ va then raiseExc s p cAddr va 0 false w
  else match place s p va 1 0 0 false with
    | (.ok (.mem pa), s) => retire (modCore s p fun c => dcInval c pa 1) p
    | (.ok (.sram _), s) => retire s p
    | (.error (.wait ..), s) => retire s p
    | (.error e, s) => stopCore s p w e

/-! ### RFE (R386, R389) -/

/-- Take the five registers of an exception frame. -/
def popFrame (c : Core) (d : List Byte) : Core :=
  { c with epc := toW (leAt d 0 8 / 4 * 4), estatus := toW (leAt d 8 8) &&& 0x701, ecause := toW (leAt d 16 4) &&& 0x1FFF,
           einst := toW (leAt d 20 4), eaddr := toW (leAt d 24 8 % 2 ^ 48) }

/-- The 32 bytes at g31, read in K mode. -/
def readFrame (s : State) (p g : Nat) : Option (List Byte) × State :=
  if g % 32 ≠ 0 || 2 ^ 48 ≤ g then (none, s)
  else match framePlace s p g 1 false with
    | (none, s) => (none, s)
    | (some l, s) =>
      let s := if (core s p).sb.any fun x => overlaps (sbKey x) x.data.length (locKey l) 32 then drainOver s p l 32 else s
      match l with
      | .sram off => (some (mgetN (core s p).localSram off 32), s)
      | .mem pa =>
        match readAtom s (coreCtx s p 0 (.core p)) pa 32 with
        | (.ok d, s) => (some d, s)
        | (.error (.uncorr cw), s) => (none, detect s (uncorrRec s (coreCtx s p 0 (.core p)) 1 cw) false)
        | (.error .lost, s) => (none, s)

/-- RFE outside Breach (R386). The frame's "cause" byte of a RFE_FRAME escalation is not stated: a free value (log 3). -/
def rfeNormal (p : Nat) (w : Word32) (s : State) : State :=
  let c := core s p
  let s := leaveLine s p
  if c.shadow.getLast? == some true && !bit c.estatus.toNat 0 then violate s p vRfePriv false 0xFFFFFFFF 0 w
  else match readFrame s p (gpr c g31).toNat with
    | (none, s) =>
      let (f, s) := drawFree s
      breach s p 4 { cause := f.toNat % 128, epc := c.pc, word := w }
    | (some d, s) =>
      modCore s p fun c =>
        { setGpr (popFrame c d) g31 (gpr c g31 + 32) with
          pc := c.epc.toNat, ml := fld c.estatus 8 3, user := bit c.estatus.toNat 0, shadow := c.shadow.dropLast, instret := c.instret + 1 }

/-- RFE in Breach (R389): pc, STATUS and g31 come from the frame at BSTK. A BSTK outside the SRAM has no frame: a fault inside
Breach. -/
def rfeBreach (p : Nat) (w : Word32) (s : State) : State :=
  let b := (core s p).bstk.toNat
  if b < sramBase then freezeCore s p vBreachFault false 0xFFFFFFFF 0 w
  else
    let loc := Loc.sram (b - sramBase)
    let s := if (core s p).sb.any fun x => overlaps (sbKey x) x.data.length (locKey loc) 64 then drainOver s p loc 64 else s
    let s := leaveLine s p
    let c := core s p
    let d := mgetN c.localSram (b - sramBase) 64
    let st := leAt d 8 8
    if c.bpriv && !bit st 0 then freezeCore s p vBreachFault false 0xFFFFFFFF 0 w
    else
      setCore s p
        { setGpr c g31 (toW (leAt d 48 8)) with
          pc := leAt d 0 8 / 4 * 4, user := bit st 0, breach := bit st 4, ml := if bit st 4 then 7 else bits st 8 3,
          bstk := toW ((b + 64) % 2 ^ 48), instret := c.instret + 1 }

/-- RFE. -/
def doRfe (p : Nat) (w : Word32) (s : State) : State := if (core s p).breach then rfeBreach p w s else rfeNormal p w s

/-! ### Events of the core -/

/-- May the lead core act at an instruction boundary: in a WAIT or a not-present wait it may, with a result on its way it may not
(R331). -/
def coreLive (s : State) (p : Nat) : Bool :=
  named s p && !halted s && (core s p).started && (core s p).redWait.isNone && (polder s p).frzCore.isNone && !coreWaits s p && !(polder s p).resetting

/-- The instruction word at pc for a Breach frame whose event is no instruction's: as memory holds it, a free value where it cannot
be read. -/
def peekWord (s : State) (p : Nat) : Word32 × State :=
  let pc := (core s p).pc
  if pc < 0x4000 then (BitVec.ofNat 32 (natLE (mgetN (core s p).entrySram pc 4)), s)
  else match (translateNow s (iReq s p pc (core s p).user)).1 with
    | .ok pa => (BitVec.ofNat 32 (natLE (mgetN s.mem pa 4)), s)
    | _ => let (f, s) := drawFree s; (f.setWidth 32, s)

/-- Withdraw the instruction that waits (R391); vector instructions that the members have accepted go on waiting (R346). -/
def withdrawWait (s : State) (p : Nat) : State :=
  let s := leaveLine s p
  if (core s p).npWait.isSome then dropWaiters s p fun q => isCoreReq p q && !(isVecReq p q.req && !(polder s p).vqueue.isEmpty) else s

/-- An interrupt is taken (R380, R381, R391). -/
def takeInterrupt (p : Nat) (s : State) : State :=
  if coreLive s p && !((core s p).breachReq && !(core s p).breach) then
    match pickInt (core s p) with
    | some n =>
      let s := withdrawWait s p
      let (w, s) := peekWord s p
      enter s p { cause := 64 + n, epc := (core s p).pc, word := w }
    | none => s
  else s

/-- A Breach request is taken (R390). -/
def takeBreachReq (p : Nat) (s : State) : State :=
  if coreLive s p && (core s p).breachReq && !(core s p).breach then
    let s := withdrawWait s p
    let (w, s) := peekWord s p
    breach (modCore s p fun c => { c with breachReq := false }) p 5 { cause := 0x7F, epc := (core s p).pc, word := w }
  else s

/-- DT reaches TIMER_CMP (Table 11-6); the event brings DT forward (log 2). -/
def timerFires (p : Nat) (s : State) : State :=
  let c := core s p
  if named s p && c.timerCmp ≠ 0 && !c.timerHit then
    setInt (modCore (advanceTo s c.timerCmp) p fun c => { c with timerHit := true }) p 2
  else s

/-! ### The instructions -/

/-- BEQ (R320). -/
def execBeq (p : Nat) (ga gb : Reg) (off : BitVec 16) (s : State) : Result := done (issue s p (doBranch p (fun a b => a == b) ga gb off))

/-- BNE (R320). -/
def execBne (p : Nat) (ga gb : Reg) (off : BitVec 16) (s : State) : Result := done (issue s p (doBranch p (fun a b => a != b) ga gb off))

/-- BLT (R320). -/
def execBlt (p : Nat) (ga gb : Reg) (off : BitVec 16) (s : State) : Result := done (issue s p (doBranch p (fun a b => a.slt b) ga gb off))

/-- BGE (R320). -/
def execBge (p : Nat) (ga gb : Reg) (off : BitVec 16) (s : State) : Result := done (issue s p (doBranch p (fun a b => !a.slt b) ga gb off))

/-- BLTU (R320). -/
def execBltu (p : Nat) (ga gb : Reg) (off : BitVec 16) (s : State) : Result := done (issue s p (doBranch p (fun a b => a.ult b) ga gb off))

/-- BGEU (R320). -/
def execBgeu (p : Nat) (ga gb : Reg) (off : BitVec 16) (s : State) : Result := done (issue s p (doBranch p (fun a b => !a.ult b) ga gb off))

/-- JMP (R320). -/
def execJmp (p : Nat) (off : BitVec 26) (s : State) : Result :=
  done (issue s p fun s => retireTo s p (jTarget (core s p) off))

/-- CALL (R320): g30 takes the address of the next instruction. -/
def execCall (p : Nat) (off : BitVec 26) (s : State) : Result :=
  done (issue s p fun s => retireTo (putReg s p 30 (toW ((core s p).pc + 4))) p (jTarget (core s p) off))

/-- JR (R320). -/
def execJr (p : Nat) (ga : Reg) (s : State) : Result := done (issue s p (doJump p none ga (wR 0x28 0 ga 0 0)))

/-- CALLR (R320). -/
def execCallr (p : Nat) (gd ga : Reg) (s : State) : Result := done (issue s p (doJump p (some gd) ga (wR 0x28 gd ga 0 1)))

/-- CSRR (R323). -/
def execCsrr (p : Nat) (gd : Reg) (csr : BitVec 12) (s : State) : Result :=
  done (issue s p (doCsr p gd csr.toNat (wC gd 0 csr 0) fun _ s => s))

/-- CSRW (R323). -/
def execCsrw (p : Nat) (gd ga : Reg) (csr : BitVec 12) (s : State) : Result :=
  done (issue s p (doCsr p gd csr.toNat (wC gd ga csr 1) fun _ s => csrWrite s p csr.toNat (gpr (core s p) ga) true))

/-- CSRS (R323). -/
def execCsrs (p : Nat) (gd ga : Reg) (csr : BitVec 12) (s : State) : Result :=
  done (issue s p (doCsr p gd csr.toNat (wC gd ga csr 2) fun old s => csrWrite s p csr.toNat (old ||| gpr (core s p) ga) false))

/-- CSRC (R323). -/
def execCsrc (p : Nat) (gd ga : Reg) (csr : BitVec 12) (s : State) : Result :=
  done (issue s p (doCsr p gd csr.toNat (wC gd ga csr 3) fun old s => csrWrite s p csr.toNat (old &&& ~~~ (gpr (core s p) ga)) false))

/-- SYNC_C (R326). -/
def execSyncC (p : Nat) (s : State) : Result := done (issue s p (kOnly p (wR 0x2D 0 0 0 0) (drained p (doSyncC p))))

/-- SYNC_I (R320). -/
def execSyncI (p : Nat) (s : State) : Result := done (issue s p (kOnly p (wR 0x2D 0 0 0 1) (drained p (doSyncI p))))

/-- FENCE (R336). -/
def execFence (p : Nat) (s : State) : Result := done (issue s p (drained p fun s => retire s p))

/-- WAIT (R320). -/
def execWait (p : Nat) (s : State) : Result := done (issue s p (kOnly p (wR 0x2D 0 0 0 3) (doWait p)))

/-- RFE (R386, R389). -/
def execRfe (p : Nat) (s : State) : Result := done (issue s p (kOnly p (wR 0x2D 0 0 0 4) (doRfe p (wR 0x2D 0 0 0 4))))

/-- TRAP (R320): cause 4 with the ga field as its code. -/
def execTrap (p : Nat) (code : Reg) (s : State) : Result :=
  done (issue s p fun s => raiseExc s p cTrap 0 code.toNat false (wR 0x2D 0 code 0 5))

/-- DC_INV (R320). -/
def execDcInv (p : Nat) (ga : Reg) (s : State) : Result := done (issue s p (doDcInv p ga (wR 0x2D 0 ga 0 8)))

/-- DC_INVALL (R320). -/
def execDcInvall (p : Nat) (s : State) : Result :=
  done (issue s p (kOnly p (wR 0x2D 0 0 0 9) fun s => retire (modCore s p fun c => { c with dcache := [] }) p))

/-- RESERVED_OPCODE (R305): a word that names no instruction traps; any other word is some other row's. -/
def execReservedOpcode (p : Nat) (word : Word32) (s : State) : Result :=
  done (if namesInstr word then s else issue s p fun s => raiseExc s p cResop 0 0 false word)

/-- INTERRUPT (R381). -/
def execInterrupt (p : Nat) (s : State) : Result := done (takeInterrupt p s)

/-- TIMER (R380). -/
def execTimer (p : Nat) (s : State) : Result := done (timerFires p s)

/-- STORE_BUFFER_DRAIN (R334). -/
def execStoreBufferDrain (p : Nat) (s : State) : Result := done (if named s p && (mayDrain s p 1).isNone then leaveLine (drainOne s p) p else s)

/-- BREACH_REQUEST_TAKEN (R390). -/
def execBreachRequestTaken (p : Nat) (s : State) : Result := done (takeBreachReq p s)

/-- CORE_RESET (R328). -/
def execCoreReset (p : Nat) (s : State) : Result := done (if named s p then coreReset s p else s)

end Sys2Proof.Machine
end

