-- ==== Sys2Proof/Machine/Vector.lean ====
section
/-! DEFINITION. The vector extension I (chapter 10): element placement, the issue checks, SETVL, arithmetic, permutes, masks,
reductions and scans. -/

namespace Sys2Proof.Machine

/-! ### Vector state (R337–R339) -/

/-- Element `e` of register `r` at SEW code `k` (SEW = 8 << k), with `L` lanes. -/
def vGet (po : Polder) (L k r e : Nat) : Nat :=
  let i := e / L
  let per := 64 / (8 <<< k)
  bits (tget 0 po.vregs ((r * 8 + i / per) * 24576 + e % L)).toNat ((8 <<< k) * (i % per)) (8 <<< k)

/-- Write one element. -/
def vPut (L k r : Nat) (po : Polder) (e v : Nat) : Polder :=
  let i := e / L
  let per := 64 / (8 <<< k)
  let put := fun (w : Word) => toW (setBits w.toNat ((8 <<< k) * (i % per)) (8 <<< k) v)
  { po with vregs := tmod 0 po.vregs ((r * 8 + i / per) * 24576 + e % L) put }

/-- The mask bit of element `e` of mask register `m`. -/
def mGet (po : Polder) (m e : Nat) : Bool := tget false po.masks (m * 2 ^ 21 + e)
def mPut (m : Nat) (po : Polder) (e : Nat) (b : Bool) : Polder := { po with masks := tset false po.masks (m * 2 ^ 21 + e) b }

/-- What a vector instruction sees: the polder, the core, the lanes and the SEW code. -/
structure VCtx where
  po : Polder
  c : Core
  L : Nat
  k : Nat
  deriving DecidableEq, Repr

def vctx (s : State) (p : Nat) : VCtx :=
  { po := polder s p, c := core s p, L := 1024 * nMembers s p, k := sewCode (core s p) }

/-- Bits of an element. -/
def VCtx.sew (x : VCtx) : Nat := 8 <<< x.k
/-- Element `e` of a register at SEW. -/
def VCtx.get (x : VCtx) (r : Reg) (e : Nat) : Nat := vGet x.po x.L x.k r.toNat e
/-- The low SEW bits of a general register. -/
def VCtx.scalar (x : VCtx) (r : Reg) : Nat := (gpr x.c r).toNat % 2 ^ x.sew
/-- Operand b: an element of vb, or gb in the .S forms (R351). -/
def VCtx.opB (x : VCtx) (o : VOp) (e : Nat) : Nat := if o.s then x.scalar o.vb else x.get o.vb e
/-- The active elements (R343). -/
def VCtx.active (x : VCtx) (o : VOp) : List Nat := (List.range x.c.vl).filter fun e => !o.vm || mGet x.po o.mreg.toNat e
/-- The floating-point format at SEW and VTYPE.ALT; none at SEW 8 (R345, R351). -/
def VCtx.fp (x : VCtx) : Option Nat :=
  if x.k = 3 then some 0 else if x.k = 2 then some 1 else if x.k = 1 then some (if bit x.c.vtype.toNat 3 then 3 else 2) else none

/-- Has the polder a format switched on (R57). -/
def fmtOn (po : Polder) (f : Nat) : Bool := 14 ≤ f || bit po.sec.formats.toNat f

/-- A floating-point instruction that R345 or R57 traps. -/
def VCtx.fpBad (x : VCtx) : Bool := match x.fp with | some f => !fmtOn x.po f | none => true

/-! ### Issue checks (R345) -/

/-- How an instruction's table treats VM. -/
inductive VmRule where
  | allowed
  | must
  | never
  deriving DecidableEq, Repr

/-- VM against its rule; MK is unused, hence zero, where VM is 0 and no rule uses it. -/
def vmBad (r : VmRule) (o : VOp) : Bool := (r == .must && !o.vm) || (r == .never && o.vm) || (!o.vm && o.mreg ≠ 0)

/-! ### The vector queue (R346) -/

/-- How a vector instruction runs: at its issue, every member's queue empty; at its issue behind others that the members hold; or performed by
the members from their queues. -/
inductive VMode where
  | issue
  | push
  | run
  deriving DecidableEq, Repr

/-- A vector instruction as it runs: its major opcode and function (Table 9-3), its operands, and how it runs. -/
structure VI where
  maj : BitVec 6
  func : BitVec 6
  op : VOp
  mode : VMode
  deriving DecidableEq, Repr

/-- Its word. -/
def VI.w (v : VI) : Word32 := wV v.maj v.op v.func

/-- The instructions that a member's queue holds. -/
def vqMax : Nat := 32

/-- The members accept an instruction into their queues, which completes it on the lead core (R346). -/
def vPush (s : State) (p : Nat) (v : VI) : State :=
  let c := core s p
  let e : VqEntry := { maj := v.maj, func := v.func, op := v.op, regs := c.regs, vl := c.vl, vtype := c.vtype, fpctl := c.fpctl, asid := c.asid, user := c.user }
  retire (modPolder s p fun po => { po with vqueue := po.vqueue ++ [e] }) p

/-- The lead core's instruction reaches the members of its polder through the issue broadcast (R30, R472), which takes the next issue sequence
number and holds a tag of the lead until the hub acknowledges it; a polder of one CD needs none (R31). The core waits where no hub serves or no
tag is free; where a member has lost its bundle the broadcast ends with TX_LINK and the instruction does nothing (R469, log 30). -/
def castInstr (p : Nat) (f : State → State) (s : State) : State :=
  let o := leadOf s p
  if nMembers s p ≤ 1 then f s
  else match issueHub s p with
    | none => s
    | some h =>
      match (members s p).find? fun m => bundleLost s m h with
      | some m => retire (detect s (lostRec s (lsCore s p) m h 5) false) p
      | none =>
        let w : Waiter := { kind := 5, dest := 29 + h, addr := 0, ls := lsCore s p, req := .core p, first := false, granted := false }
        if !tagFor s o (.core p) then addWaiter s o w
        else match takeTag s o { kind := 5, dest := 29 + h, addr := 0, ls := lsCore s p, req := .core p } with
          | some (_, s) => f (leaveLine (modPolder s p fun po => { po with issueSeq := (po.issueSeq + 1) % 2 ^ 32 }) p)
          | none => addWaiter s o w

/-- An instruction whose issue checks have passed: it performs, or joins the queue. -/
def vGo (p : Nat) (v : VI) (f : State → State) (s : State) : State :=
  match v.mode with
  | .issue => castInstr p (fun s => retire (f s) p) s
  | .push => castInstr p (fun s => vPush s p v) s
  | .run => f s

/-- A vector instruction: its issue checks trap in the lead core, else its effect completes (R346). -/
def doV (p : Nat) (v : VI) (bad : VCtx → Bool) (body : VCtx → State → State) (s : State) : State :=
  let x := vctx s p
  if v.mode ≠ .run && bad x then raiseExc s p cResop 0 0 false v.w else vGo p v (body x) s

/-- The lead core issues a vector instruction; it stalls while the queues are full. -/
def vIssue (p : Nat) (body : VMode → State → State) (s : State) : State :=
  issue s p fun s =>
    let n := (polder s p).vqueue.length
    if n = 0 then body .issue s else if n < vqMax then body .push s else s

/-- The lead core issues a vector instruction whose result it awaits, or which waits to start (R346): it waits for those before it. -/
def vAlone (p : Nat) (f : State → State) (s : State) : State := issue s p fun s => if (polder s p).vqueue.isEmpty then f s else s

/-- Write elements of a register. -/
def putElems (s : State) (p : Nat) (x : VCtx) (r : Reg) (l : List (Nat × Nat)) : State :=
  modPolder s p fun po => l.foldl (fun po e => vPut x.L x.k r.toNat po e.1 e.2) po

/-- Write bits of a mask register. -/
def putMask (s : State) (p m : Nat) (l : List (Nat × Bool)) : State :=
  modPolder s p fun po => l.foldl (fun po e => mPut m po e.1 e.2) po

/-- The flags of a list of results. -/
def flagsOf (l : List (Nat × FRes)) : Nat := l.foldl (fun f e => f ||| e.2.fl) 0

/-! ### Element-wise shapes -/

/-- A floating-point operation on a, b and the destination's old element. `un` marks one operand, with vb and S zero. -/
def vFp (p : Nat) (v : VI) (o : VOp) (un : Bool) (f : Nat → Nat → Nat → Nat → Nat → FRes) (s : State) : State :=
  doV p v (fun x => x.fpBad || vmBad .allowed o || (un && (o.s || o.vb ≠ 0)))
    (fun x s =>
      let rs := (x.active o).map fun e => (e, f (x.fp.getD 0) (rmOf x.c.fpctl) (x.get o.va e) (x.opB o e) (x.get o.vd e))
      raiseFlags (putElems s p x o.vd (rs.map fun r => (r.1, r.2.v))) p (flagsOf rs)) s

/-- A floating-point comparison into m[vd]. -/
def vFpCmp (p : Nat) (v : VI) (o : VOp) (kind : Nat) (s : State) : State :=
  doV p v (fun x => x.fpBad || vmBad .allowed o || 7 < o.vd.toNat)
    (fun x s =>
      let rs := (x.active o).map fun e => (e, fCmp (x.fp.getD 0) kind (x.get o.va e) (x.opB o e))
      raiseFlags (putMask s p o.vd.toNat (rs.map fun r => (r.1, r.2.v == 1))) p (flagsOf rs)) s

/-- An integer operation on SEW-bit a and b. -/
def vInt (p : Nat) (v : VI) (o : VOp) (f : Nat → Nat → Nat → Nat) (s : State) : State :=
  doV p v (fun _ => vmBad .allowed o)
    (fun x s => putElems s p x o.vd ((x.active o).map fun e => (e, f x.sew (x.get o.va e) (x.opB o e)))) s

/-- An integer comparison into m[vd]. -/
def vIntCmp (p : Nat) (v : VI) (o : VOp) (f : Nat → Nat → Nat → Bool) (s : State) : State :=
  doV p v (fun _ => vmBad .allowed o || 7 < o.vd.toNat)
    (fun x s => putMask s p o.vd.toNat ((x.active o).map fun e => (e, f x.sew (x.get o.va e) (x.opB o e)))) s

/-! ### Integer operations (Table 10-8), modulo 2^n -/

def iAdd (n a b : Nat) : Nat := (a + b) % 2 ^ n
def iSub (n a b : Nat) : Nat := (a + 2 ^ n - b) % 2 ^ n
def iMul (n a b : Nat) : Nat := a * b % 2 ^ n
def iMulh (n a b : Nat) : Nat := toBits n (sext n a * sext n b / (2 ^ n : Nat))
def iMulhu (n a b : Nat) : Nat := a * b / 2 ^ n
def iSll (n a b : Nat) : Nat := a <<< (b % n) % 2 ^ n
def iSrl (n a b : Nat) : Nat := a >>> (b % n)
def iSra (n a b : Nat) : Nat := toBits n (sext n a / (2 ^ (b % n) : Nat))
def iMin (n a b : Nat) : Nat := if sext n b < sext n a then b else a
def iMax (n a b : Nat) : Nat := if sext n a < sext n b then b else a
/-- Saturate an exact value to the signed or unsigned range of n bits. -/
def iSat (signed : Bool) (n : Nat) (v : Int) : Nat := toBits n (min (max v (intLo signed n)) (intHi signed n))

/-! ### Reductions and scans (R363–R366) -/

/-- A combining operation on SEW-bit values, with its flags. -/
abbrev Comb := Nat → Nat → FRes

/-- The fixed tree over a list (R364): the left part is the largest power of two below its length. -/
def vTree (op : Comb) : Nat → List Nat → FRes
  | 0, l => ⟨l.headD 0, 0⟩
  | fuel + 1, l =>
    if l.length ≤ 1 then ⟨l.headD 0, 0⟩
    else
      let h := 2 ^ Nat.log2 (l.length - 1)
      let a := vTree op fuel (l.take h)
      let b := vTree op fuel (l.drop h)
      let r := op a.v b.v
      ⟨r.v, a.fl ||| b.fl ||| r.fl⟩

/-- prefix(h, n) of R365 over the first n elements of a segment: blocks of descending powers of two. -/
def vPrefix (op : Comb) : Nat → Option FRes → List Nat → FRes
  | 0, acc, _ => acc.getD ⟨0, 0⟩
  | b + 1, acc, l =>
    if 2 ^ b ≤ l.length then
      let t := vTree op 22 (l.take (2 ^ b))
      let r : FRes := match acc with
        | some a => let r := op a.v t.v; ⟨r.v, a.fl ||| t.fl ||| r.fl⟩
        | none => t
      vPrefix op b (some r) (l.drop (2 ^ b))
    else vPrefix op b acc l

/-- A reduction begins: its result is on its way to gd (R350). -/
def redStart (s : State) (p : Nat) (gd : Reg) (v fl : Nat) : State :=
  modCore s p fun c => { c with redWait := some { gd := gd, value := toW v, fl := fl } }

/-- As doV, for an instruction whose result returns later (R346, R350). -/
def doVRed (p : Nat) (v : VI) (bad : VCtx → Bool) (res : VCtx → Reg × FRes) (s : State) : State :=
  let x := vctx s p
  if bad x then raiseExc s p cResop 0 0 false v.w else castInstr p (fun s => redStart s p (res x).1 (res x).2.v (res x).2.fl) s

/-- A reduction (R364): op(gs, tree(0, VL)); with VL 0, gs unchanged. The SEW-bit result is zero-extended (log 14). -/
def vRed (p : Nat) (v : VI) (o : VOp) (fp : Bool) (ident : VCtx → Nat) (op : VCtx → Comb) (s : State) : State :=
  doVRed p v (fun x => o.s || vmBad .allowed o || (fp && x.fpBad))
    (fun x =>
      if x.c.vl = 0 then (o.vd, ⟨(gpr x.c o.vb).toNat, 0⟩)
      else
        let act := fun e => !o.vm || mGet x.po o.mreg.toNat e
        let t := vTree (op x) 22 ((List.range x.c.vl).map fun e => if act e then x.get o.va e else ident x)
        let r := op x (x.scalar o.vb) t.v
        (o.vd, ⟨r.v, t.fl ||| r.fl⟩)) s

/-- The first element of e's segment (R365). -/
def segHead (x : VCtx) (o : VOp) (e : Nat) : Nat :=
  if o.vm then ((List.range (e + 1)).reverse.find? fun h => mGet x.po o.mreg.toNat h).getD 0 else 0

/-- A scan (R365). -/
def vScan (p : Nat) (v : VI) (o : VOp) (fp : Bool) (op : VCtx → Comb) (s : State) : State :=
  doV p v (fun x => o.s || vmBad .allowed o || o.vb ≠ 0 || (fp && x.fpBad))
    (fun x s =>
      let rs := (List.range x.c.vl).map fun e =>
        let h := segHead x o e
        (e, vPrefix (op x) 21 none ((span h (e - h + 1)).map fun i => x.get o.va i))
      raiseFlags (putElems s p x o.vd (rs.map fun r => (r.1, r.2.v))) p (flagsOf rs)) s

def cAdd (x : VCtx) : Comb := fun a b => ⟨iAdd x.sew a b, 0⟩
def cMin (x : VCtx) : Comb := fun a b => ⟨iMin x.sew a b, 0⟩
def cMax (x : VCtx) : Comb := fun a b => ⟨iMax x.sew a b, 0⟩
def cMinu (_ : VCtx) : Comb := fun a b => ⟨min a b, 0⟩
def cMaxu (_ : VCtx) : Comb := fun a b => ⟨max a b, 0⟩
def cFadd (x : VCtx) : Comb := fun a b => fAdd (x.fp.getD 0) (rmOf x.c.fpctl) a b
def cFmin (x : VCtx) : Comb := fun a b => ⟨fMaxMin false (x.fp.getD 0) a b, fSnanFlag (x.fp.getD 0) a b⟩
def cFmax (x : VCtx) : Comb := fun a b => ⟨fMaxMin true (x.fp.getD 0) a b, fSnanFlag (x.fp.getD 0) a b⟩

/-! ### Permutes and masks (Table 10-10) -/

/-- A permute shape: static checks and the new elements. -/
def vMove (p : Nat) (v : VI) (o : VOp) (rule : VmRule) (bad : Bool) (res : VCtx → List (Nat × Nat)) (s : State) : State :=
  doV p v (fun _ => o.s || vmBad rule o || bad) (fun x s => putElems s p x o.vd (res x)) s

/-- A mask operation on elements below VL. -/
def vMaskOp (p : Nat) (v : VI) (o : VOp) (f : Bool → Bool → Bool) (s : State) : State :=
  doV p v (fun _ => o.s || vmBad .never o || 7 < o.vd.toNat || 7 < o.va.toNat || 7 < o.vb.toNat)
    (fun x s => putMask s p o.vd.toNat
      ((List.range x.c.vl).map fun e => (e, f (mGet x.po o.va.toNat e) (mGet x.po o.vb.toNat e)))) s

/-- The set bits of m[MK] among elements below n. -/
def maskCount (x : VCtx) (o : VOp) (n : Nat) : Nat := ((List.range n).filter fun e => mGet x.po o.mreg.toNat e).length

/-- A count or search over m[MK]. -/
def vMaskRed (p : Nat) (v : VI) (o : VOp) (f : VCtx → Nat) (s : State) : State :=
  doVRed p v (fun _ => o.s || vmBad .must o || o.va ≠ 0 || o.vb ≠ 0) (fun x => (o.vd, ⟨f x, 0⟩)) s

/-! ### SETVL (R341) -/

/-- An imm16 that is a defined VTYPE[15:0]. -/
def vtypeOk (imm : BitVec 16) : Bool := bits imm.toNat 4 9 == 0 && bits imm.toNat 13 3 ≠ 7 && bits imm.toNat 0 3 < 4

def doSetvl (p : Nat) (gd ga : Reg) (imm : BitVec 16) (w : Word32) (s : State) : State :=
  if !vtypeOk imm then raiseExc s p cResop 0 0 false w
  else
    let n := (gpr (core s p) ga).toNat
    let vl := min n (vlMax s p (bits imm.toNat 0 3))
    retire (putReg (modCore s p fun c => { c with vtype := imm.setWidth 64, vl := vl }) p gd (toW (n - vl))) p

/-! ### The instructions -/

/-- SETVL (R341). -/
def execSetvl (p : Nat) (gd ga : Reg) (imm : BitVec 16) (s : State) : Result :=
  done (issue s p (doSetvl p gd ga imm (wI 0x38 gd ga imm)))

/-- VFADD (R351). -/
def vfaddBody (p : Nat) (o : VOp) (m : VMode) : State → State :=
  vFp p ⟨0x39, 0x0, o, m⟩ o false fun f rm a b _ => fAdd f rm a b

/-- VFADD (R351). -/
def execVfadd (p : Nat) (o : VOp) (s : State) : Result := done (vIssue p (vfaddBody p o) s)

/-- VFSUB (R351). -/
def vfsubBody (p : Nat) (o : VOp) (m : VMode) : State → State :=
  vFp p ⟨0x39, 0x1, o, m⟩ o false fun f rm a b _ => fSub f rm a b

/-- VFSUB (R351). -/
def execVfsub (p : Nat) (o : VOp) (s : State) : Result := done (vIssue p (vfsubBody p o) s)

/-- VFMUL (R351). -/
def vfmulBody (p : Nat) (o : VOp) (m : VMode) : State → State :=
  vFp p ⟨0x39, 0x2, o, m⟩ o false fun f rm a b _ => fMul f rm a b

/-- VFMUL (R351). -/
def execVfmul (p : Nat) (o : VOp) (s : State) : Result := done (vIssue p (vfmulBody p o) s)

/-- VFDIV (R351). -/
def vfdivBody (p : Nat) (o : VOp) (m : VMode) : State → State :=
  vFp p ⟨0x39, 0x3, o, m⟩ o false fun f rm a b _ => fDiv f rm a b

/-- VFDIV (R351). -/
def execVfdiv (p : Nat) (o : VOp) (s : State) : Result := done (vIssue p (vfdivBody p o) s)

/-- VFSQRT (R351). -/
def vfsqrtBody (p : Nat) (o : VOp) (m : VMode) : State → State :=
  vFp p ⟨0x39, 0x4, o, m⟩ o true fun f rm a _ _ => fSqrt f rm a

/-- VFSQRT (R351). -/
def execVfsqrt (p : Nat) (o : VOp) (s : State) : Result := done (vIssue p (vfsqrtBody p o) s)

/-- VFMA (R351). -/
def vfmaBody (p : Nat) (o : VOp) (m : VMode) : State → State :=
  vFp p ⟨0x39, 0x5, o, m⟩ o false fun f rm a b d => fMulAdd f rm a b d

/-- VFMA (R351). -/
def execVfma (p : Nat) (o : VOp) (s : State) : Result := done (vIssue p (vfmaBody p o) s)

/-- VFNMA (R351). -/
def vfnmaBody (p : Nat) (o : VOp) (m : VMode) : State → State :=
  vFp p ⟨0x39, 0x6, o, m⟩ o false fun f rm a b d => fMulAdd f rm (a ^^^ fSign f) b d

/-- VFNMA (R351). -/
def execVfnma (p : Nat) (o : VOp) (s : State) : Result := done (vIssue p (vfnmaBody p o) s)

/-- VFMIN (R351). -/
def vfminBody (p : Nat) (o : VOp) (m : VMode) : State → State :=
  vFp p ⟨0x39, 0x7, o, m⟩ o false fun f _ a b _ => ⟨fMaxMin false f a b, fSnanFlag f a b⟩

/-- VFMIN (R351). -/
def execVfmin (p : Nat) (o : VOp) (s : State) : Result := done (vIssue p (vfminBody p o) s)

/-- VFMAX (R351). -/
def vfmaxBody (p : Nat) (o : VOp) (m : VMode) : State → State :=
  vFp p ⟨0x39, 0x8, o, m⟩ o false fun f _ a b _ => ⟨fMaxMin true f a b, fSnanFlag f a b⟩

/-- VFMAX (R351). -/
def execVfmax (p : Nat) (o : VOp) (s : State) : Result := done (vIssue p (vfmaxBody p o) s)

/-- VFEQ (R351). -/
def vfeqBody (p : Nat) (o : VOp) (m : VMode) : State → State :=
  vFpCmp p ⟨0x39, 0x9, o, m⟩ o 0

/-- VFEQ (R351). -/
def execVfeq (p : Nat) (o : VOp) (s : State) : Result := done (vIssue p (vfeqBody p o) s)

/-- VFLT (R351). -/
def vfltBody (p : Nat) (o : VOp) (m : VMode) : State → State :=
  vFpCmp p ⟨0x39, 0xa, o, m⟩ o 1

/-- VFLT (R351). -/
def execVflt (p : Nat) (o : VOp) (s : State) : Result := done (vIssue p (vfltBody p o) s)

/-- VFLE (R351). -/
def vfleBody (p : Nat) (o : VOp) (m : VMode) : State → State :=
  vFpCmp p ⟨0x39, 0xb, o, m⟩ o 2

/-- VFLE (R351). -/
def execVfle (p : Nat) (o : VOp) (s : State) : Result := done (vIssue p (vfleBody p o) s)

/-- VFNEG (R351). -/
def vfnegBody (p : Nat) (o : VOp) (m : VMode) : State → State :=
  vFp p ⟨0x39, 0xc, o, m⟩ o true fun f _ a _ _ => ⟨a ^^^ fSign f, 0⟩

/-- VFNEG (R351). -/
def execVfneg (p : Nat) (o : VOp) (s : State) : Result := done (vIssue p (vfnegBody p o) s)

/-- VFABS (R351). -/
def vfabsBody (p : Nat) (o : VOp) (m : VMode) : State → State :=
  vFp p ⟨0x39, 0xd, o, m⟩ o true fun f _ a _ _ => ⟨a % fSign f, 0⟩

/-- VFABS (R351). -/
def execVfabs (p : Nat) (o : VOp) (s : State) : Result := done (vIssue p (vfabsBody p o) s)

/-- VFSGNJ (R351). -/
def vfsgnjBody (p : Nat) (o : VOp) (m : VMode) : State → State :=
  vFp p ⟨0x39, 0xe, o, m⟩ o false fun f _ a b _ => ⟨a % fSign f + b / fSign f % 2 * fSign f, 0⟩

/-- VFSGNJ (R351). -/
def execVfsgnj (p : Nat) (o : VOp) (s : State) : Result := done (vIssue p (vfsgnjBody p o) s)

/-- VFKIND (R351). -/
def vfkindBody (p : Nat) (o : VOp) (m : VMode) : State → State :=
  vFp p ⟨0x39, 0xf, o, m⟩ o true fun f _ a _ _ => ⟨fKind f a, 0⟩

/-- VFKIND (R351). -/
def execVfkind (p : Nat) (o : VOp) (s : State) : Result := done (vIssue p (vfkindBody p o) s)

/-- VADD (R352). -/
def vaddBody (p : Nat) (o : VOp) (m : VMode) : State → State :=
  vInt p ⟨0x3a, 0x0, o, m⟩ o iAdd

/-- VADD (R352). -/
def execVadd (p : Nat) (o : VOp) (s : State) : Result := done (vIssue p (vaddBody p o) s)

/-- VSUB (R352). -/
def vsubBody (p : Nat) (o : VOp) (m : VMode) : State → State :=
  vInt p ⟨0x3a, 0x1, o, m⟩ o iSub

/-- VSUB (R352). -/
def execVsub (p : Nat) (o : VOp) (s : State) : Result := done (vIssue p (vsubBody p o) s)

/-- VMUL (R352). -/
def vmulBody (p : Nat) (o : VOp) (m : VMode) : State → State :=
  vInt p ⟨0x3a, 0x2, o, m⟩ o iMul

/-- VMUL (R352). -/
def execVmul (p : Nat) (o : VOp) (s : State) : Result := done (vIssue p (vmulBody p o) s)

/-- VMULH (R352). -/
def vmulhBody (p : Nat) (o : VOp) (m : VMode) : State → State :=
  vInt p ⟨0x3a, 0x3, o, m⟩ o iMulh

/-- VMULH (R352). -/
def execVmulh (p : Nat) (o : VOp) (s : State) : Result := done (vIssue p (vmulhBody p o) s)

/-- VMULHU (R352). -/
def vmulhuBody (p : Nat) (o : VOp) (m : VMode) : State → State :=
  vInt p ⟨0x3a, 0x4, o, m⟩ o iMulhu

/-- VMULHU (R352). -/
def execVmulhu (p : Nat) (o : VOp) (s : State) : Result := done (vIssue p (vmulhuBody p o) s)

/-- VAND (R352). -/
def vandBody (p : Nat) (o : VOp) (m : VMode) : State → State :=
  vInt p ⟨0x3a, 0x5, o, m⟩ o (fun _ a b => a &&& b)

/-- VAND (R352). -/
def execVand (p : Nat) (o : VOp) (s : State) : Result := done (vIssue p (vandBody p o) s)

/-- VOR (R352). -/
def vorBody (p : Nat) (o : VOp) (m : VMode) : State → State :=
  vInt p ⟨0x3a, 0x6, o, m⟩ o (fun _ a b => a ||| b)

/-- VOR (R352). -/
def execVor (p : Nat) (o : VOp) (s : State) : Result := done (vIssue p (vorBody p o) s)

/-- VXOR (R352). -/
def vxorBody (p : Nat) (o : VOp) (m : VMode) : State → State :=
  vInt p ⟨0x3a, 0x7, o, m⟩ o (fun _ a b => a ^^^ b)

/-- VXOR (R352). -/
def execVxor (p : Nat) (o : VOp) (s : State) : Result := done (vIssue p (vxorBody p o) s)

/-- VSLL (R352). -/
def vsllBody (p : Nat) (o : VOp) (m : VMode) : State → State :=
  vInt p ⟨0x3a, 0x8, o, m⟩ o iSll

/-- VSLL (R352). -/
def execVsll (p : Nat) (o : VOp) (s : State) : Result := done (vIssue p (vsllBody p o) s)

/-- VSRL (R352). -/
def vsrlBody (p : Nat) (o : VOp) (m : VMode) : State → State :=
  vInt p ⟨0x3a, 0x9, o, m⟩ o iSrl

/-- VSRL (R352). -/
def execVsrl (p : Nat) (o : VOp) (s : State) : Result := done (vIssue p (vsrlBody p o) s)

/-- VSRA (R352). -/
def vsraBody (p : Nat) (o : VOp) (m : VMode) : State → State :=
  vInt p ⟨0x3a, 0xa, o, m⟩ o iSra

/-- VSRA (R352). -/
def execVsra (p : Nat) (o : VOp) (s : State) : Result := done (vIssue p (vsraBody p o) s)

/-- VMIN (R352). -/
def vminBody (p : Nat) (o : VOp) (m : VMode) : State → State :=
  vInt p ⟨0x3a, 0xb, o, m⟩ o iMin

/-- VMIN (R352). -/
def execVmin (p : Nat) (o : VOp) (s : State) : Result := done (vIssue p (vminBody p o) s)

/-- VMAX (R352). -/
def vmaxBody (p : Nat) (o : VOp) (m : VMode) : State → State :=
  vInt p ⟨0x3a, 0xc, o, m⟩ o iMax

/-- VMAX (R352). -/
def execVmax (p : Nat) (o : VOp) (s : State) : Result := done (vIssue p (vmaxBody p o) s)

/-- VMINU (R352). -/
def vminuBody (p : Nat) (o : VOp) (m : VMode) : State → State :=
  vInt p ⟨0x3a, 0xd, o, m⟩ o (fun _ a b => min a b)

/-- VMINU (R352). -/
def execVminu (p : Nat) (o : VOp) (s : State) : Result := done (vIssue p (vminuBody p o) s)

/-- VMAXU (R352). -/
def vmaxuBody (p : Nat) (o : VOp) (m : VMode) : State → State :=
  vInt p ⟨0x3a, 0xe, o, m⟩ o (fun _ a b => max a b)

/-- VMAXU (R352). -/
def execVmaxu (p : Nat) (o : VOp) (s : State) : Result := done (vIssue p (vmaxuBody p o) s)

/-- VSADD (R352). -/
def vsaddBody (p : Nat) (o : VOp) (m : VMode) : State → State :=
  vInt p ⟨0x3a, 0xf, o, m⟩ o (fun n a b => iSat true n (sext n a + sext n b))

/-- VSADD (R352). -/
def execVsadd (p : Nat) (o : VOp) (s : State) : Result := done (vIssue p (vsaddBody p o) s)

/-- VSSUB (R352). -/
def vssubBody (p : Nat) (o : VOp) (m : VMode) : State → State :=
  vInt p ⟨0x3a, 0x10, o, m⟩ o (fun n a b => iSat true n (sext n a - sext n b))

/-- VSSUB (R352). -/
def execVssub (p : Nat) (o : VOp) (s : State) : Result := done (vIssue p (vssubBody p o) s)

/-- VSADDU (R352). -/
def vsadduBody (p : Nat) (o : VOp) (m : VMode) : State → State :=
  vInt p ⟨0x3a, 0x11, o, m⟩ o (fun n a b => iSat false n ((a : Int) + b))

/-- VSADDU (R352). -/
def execVsaddu (p : Nat) (o : VOp) (s : State) : Result := done (vIssue p (vsadduBody p o) s)

/-- VSSUBU (R352). -/
def vssubuBody (p : Nat) (o : VOp) (m : VMode) : State → State :=
  vInt p ⟨0x3a, 0x12, o, m⟩ o (fun n a b => iSat false n ((a : Int) - b))

/-- VSSUBU (R352). -/
def execVssubu (p : Nat) (o : VOp) (s : State) : Result := done (vIssue p (vssubuBody p o) s)

/-- VMSEQ (R352). -/
def vmseqBody (p : Nat) (o : VOp) (m : VMode) : State → State :=
  vIntCmp p ⟨0x3a, 0x13, o, m⟩ o fun _ a b => a == b

/-- VMSEQ (R352). -/
def execVmseq (p : Nat) (o : VOp) (s : State) : Result := done (vIssue p (vmseqBody p o) s)

/-- VMSLT (R352). -/
def vmsltBody (p : Nat) (o : VOp) (m : VMode) : State → State :=
  vIntCmp p ⟨0x3a, 0x14, o, m⟩ o fun n a b => decide (sext n a < sext n b)

/-- VMSLT (R352). -/
def execVmslt (p : Nat) (o : VOp) (s : State) : Result := done (vIssue p (vmsltBody p o) s)

/-- VMSLTU (R352). -/
def vmsltuBody (p : Nat) (o : VOp) (m : VMode) : State → State :=
  vIntCmp p ⟨0x3a, 0x15, o, m⟩ o fun _ a b => decide (a < b)

/-- VMSLTU (R352). -/
def execVmsltu (p : Nat) (o : VOp) (s : State) : Result := done (vIssue p (vmsltuBody p o) s)

/-- VSEL (R352). -/
def vselBody (p : Nat) (o : VOp) (m : VMode) : State → State :=
  doV p ⟨0x3a, 0x16, o, m⟩ (fun _ => vmBad .must o)
    fun x s => putElems s p x o.vd ((List.range x.c.vl).map fun e =>
      (e, if mGet x.po o.mreg.toNat e then x.opB o e else x.get o.va e))

/-- VSEL (R352). -/
def execVsel (p : Nat) (o : VOp) (s : State) : Result := done (vIssue p (vselBody p o) s)

/-- VMV (R352). -/
def vmvBody (p : Nat) (o : VOp) (m : VMode) : State → State :=
  doV p ⟨0x3a, 0x17, o, m⟩ (fun _ => vmBad .allowed o || (if o.s then o.va ≠ 0 else o.vb ≠ 0))
    fun x s => putElems s p x o.vd ((x.active o).map fun e => (e, if o.s then x.scalar o.vb else x.get o.va e))

/-- VMV (R352). -/
def execVmv (p : Nat) (o : VOp) (s : State) : Result := done (vIssue p (vmvBody p o) s)

/-- VPERM (R349). -/
def vpermBody (p : Nat) (o : VOp) (m : VMode) : State → State :=
  vMove p ⟨0x3c, 0x0, o, m⟩ o .allowed (o.vd == o.va || o.vd == o.vb)
    fun x => (x.active o).map fun e => (e, if x.get o.vb e < x.c.vl then x.get o.va (x.get o.vb e) else 0)

/-- VPERM (R349). -/
def execVperm (p : Nat) (o : VOp) (s : State) : Result := done (vIssue p (vpermBody p o) s)

/-- VSLIDEUP (R349). -/
def vslideupBody (p : Nat) (o : VOp) (m : VMode) : State → State :=
  vMove p ⟨0x3c, 0x1, o, m⟩ o .allowed (o.vd == o.va)
    fun x => ((x.active o).filter fun e => (gpr x.c o.vb).toNat ≤ e).map fun e => (e, x.get o.va (e - (gpr x.c o.vb).toNat))

/-- VSLIDEUP (R349). -/
def execVslideup (p : Nat) (o : VOp) (s : State) : Result := done (vIssue p (vslideupBody p o) s)

/-- VSLIDEDN (R349). -/
def vslidednBody (p : Nat) (o : VOp) (m : VMode) : State → State :=
  vMove p ⟨0x3c, 0x2, o, m⟩ o .allowed (o.vd == o.va)
    fun x => (x.active o).map fun e =>
      (e, if e + (gpr x.c o.vb).toNat < x.c.vl then x.get o.va (e + (gpr x.c o.vb).toNat) else 0)

/-- VSLIDEDN (R349). -/
def execVslidedn (p : Nat) (o : VOp) (s : State) : Result := done (vIssue p (vslidednBody p o) s)

/-- VCOMPRESS (R349). -/
def vcompressBody (p : Nat) (o : VOp) (m : VMode) : State → State :=
  vMove p ⟨0x3c, 0x3, o, m⟩ o .must (o.vd == o.va || o.vb ≠ 0)
    fun x => (x.active o).zipIdx.map fun e => (e.2, x.get o.va e.1)

/-- VCOMPRESS (R349). -/
def execVcompress (p : Nat) (o : VOp) (s : State) : Result := done (vIssue p (vcompressBody p o) s)

/-- VIOTA (R349). -/
def viotaBody (p : Nat) (o : VOp) (m : VMode) : State → State :=
  vMove p ⟨0x3c, 0x4, o, m⟩ o .must (o.va ≠ 0 || o.vb ≠ 0)
    fun x => (List.range x.c.vl).map fun e => (e, maskCount x o e % 2 ^ x.sew)

/-- VIOTA (R349). -/
def execViota (p : Nat) (o : VOp) (s : State) : Result := done (vIssue p (viotaBody p o) s)

/-- VRED_ADD (R364). -/
def execVredAdd (p : Nat) (o : VOp) (s : State) : Result :=
  done (vAlone p (vRed p ⟨0x3c, 0x8, o, .issue⟩ o false (fun _ => 0) cAdd) s)

/-- VRED_MIN (R364). -/
def execVredMin (p : Nat) (o : VOp) (s : State) : Result :=
  done (vAlone p (vRed p ⟨0x3c, 0x9, o, .issue⟩ o false (fun x => 2 ^ (x.sew - 1) - 1) cMin) s)

/-- VRED_MAX (R364). -/
def execVredMax (p : Nat) (o : VOp) (s : State) : Result :=
  done (vAlone p (vRed p ⟨0x3c, 0xa, o, .issue⟩ o false (fun x => 2 ^ (x.sew - 1)) cMax) s)

/-- VRED_MINU (R364). -/
def execVredMinu (p : Nat) (o : VOp) (s : State) : Result :=
  done (vAlone p (vRed p ⟨0x3c, 0xb, o, .issue⟩ o false (fun x => 2 ^ x.sew - 1) cMinu) s)

/-- VRED_MAXU (R364). -/
def execVredMaxu (p : Nat) (o : VOp) (s : State) : Result :=
  done (vAlone p (vRed p ⟨0x3c, 0xc, o, .issue⟩ o false (fun _ => 0) cMaxu) s)

/-- VSCAN_ADD (R365). -/
def vscanAddBody (p : Nat) (o : VOp) (m : VMode) : State → State :=
  vScan p ⟨0x3c, 0x10, o, m⟩ o false cAdd

/-- VSCAN_ADD (R365). -/
def execVscanAdd (p : Nat) (o : VOp) (s : State) : Result := done (vIssue p (vscanAddBody p o) s)

/-- VSCAN_MIN (R365). -/
def vscanMinBody (p : Nat) (o : VOp) (m : VMode) : State → State :=
  vScan p ⟨0x3c, 0x11, o, m⟩ o false cMin

/-- VSCAN_MIN (R365). -/
def execVscanMin (p : Nat) (o : VOp) (s : State) : Result := done (vIssue p (vscanMinBody p o) s)

/-- VSCAN_MAX (R365). -/
def vscanMaxBody (p : Nat) (o : VOp) (m : VMode) : State → State :=
  vScan p ⟨0x3c, 0x12, o, m⟩ o false cMax

/-- VSCAN_MAX (R365). -/
def execVscanMax (p : Nat) (o : VOp) (s : State) : Result := done (vIssue p (vscanMaxBody p o) s)

/-- VSCAN_MINU (R365). -/
def vscanMinuBody (p : Nat) (o : VOp) (m : VMode) : State → State :=
  vScan p ⟨0x3c, 0x13, o, m⟩ o false cMinu

/-- VSCAN_MINU (R365). -/
def execVscanMinu (p : Nat) (o : VOp) (s : State) : Result := done (vIssue p (vscanMinuBody p o) s)

/-- VSCAN_MAXU (R365). -/
def vscanMaxuBody (p : Nat) (o : VOp) (m : VMode) : State → State :=
  vScan p ⟨0x3c, 0x14, o, m⟩ o false cMaxu

/-- VSCAN_MAXU (R365). -/
def execVscanMaxu (p : Nat) (o : VOp) (s : State) : Result := done (vIssue p (vscanMaxuBody p o) s)

/-- VMAND (R349). -/
def vmandBody (p : Nat) (o : VOp) (m : VMode) : State → State :=
  vMaskOp p ⟨0x3c, 0x18, o, m⟩ o fun a b => a && b

/-- VMAND (R349). -/
def execVmand (p : Nat) (o : VOp) (s : State) : Result := done (vIssue p (vmandBody p o) s)

/-- VMOR (R349). -/
def vmorBody (p : Nat) (o : VOp) (m : VMode) : State → State :=
  vMaskOp p ⟨0x3c, 0x19, o, m⟩ o fun a b => a || b

/-- VMOR (R349). -/
def execVmor (p : Nat) (o : VOp) (s : State) : Result := done (vIssue p (vmorBody p o) s)

/-- VMXOR (R349). -/
def vmxorBody (p : Nat) (o : VOp) (m : VMode) : State → State :=
  vMaskOp p ⟨0x3c, 0x1a, o, m⟩ o fun a b => a != b

/-- VMXOR (R349). -/
def execVmxor (p : Nat) (o : VOp) (s : State) : Result := done (vIssue p (vmxorBody p o) s)

/-- VMANDN (R349). -/
def vmandnBody (p : Nat) (o : VOp) (m : VMode) : State → State :=
  vMaskOp p ⟨0x3c, 0x1b, o, m⟩ o fun a b => a && !b

/-- VMANDN (R349). -/
def execVmandn (p : Nat) (o : VOp) (s : State) : Result := done (vIssue p (vmandnBody p o) s)

/-- VPOPC (R350). -/
def execVpopc (p : Nat) (o : VOp) (s : State) : Result :=
  done (vAlone p (vMaskRed p ⟨0x3c, 0x1c, o, .issue⟩ o fun x => maskCount x o x.c.vl) s)

/-- VFIRST (R350). -/
def execVfirst (p : Nat) (o : VOp) (s : State) : Result :=
  done (vAlone p (vMaskRed p ⟨0x3c, 0x1d, o, .issue⟩ o fun x => ((x.active o).head?).getD (2 ^ 64 - 1)) s)

/-- VRED_FADD (R364). -/
def execVredFadd (p : Nat) (o : VOp) (s : State) : Result :=
  done (vAlone p (vRed p ⟨0x3c, 0x28, o, .issue⟩ o true (fun x => fSign (x.fp.getD 0)) cFadd) s)

/-- VRED_FMIN (R364). -/
def execVredFmin (p : Nat) (o : VOp) (s : State) : Result :=
  done (vAlone p (vRed p ⟨0x3c, 0x29, o, .issue⟩ o true (fun x => fNan (x.fp.getD 0)) cFmin) s)

/-- VRED_FMAX (R364). -/
def execVredFmax (p : Nat) (o : VOp) (s : State) : Result :=
  done (vAlone p (vRed p ⟨0x3c, 0x2a, o, .issue⟩ o true (fun x => fNan (x.fp.getD 0)) cFmax) s)

/-- VSCAN_FADD (R365). -/
def vscanFaddBody (p : Nat) (o : VOp) (m : VMode) : State → State :=
  vScan p ⟨0x3c, 0x30, o, m⟩ o true cFadd

/-- VSCAN_FADD (R365). -/
def execVscanFadd (p : Nat) (o : VOp) (s : State) : Result := done (vIssue p (vscanFaddBody p o) s)

/-- VSCAN_FMIN (R365). -/
def vscanFminBody (p : Nat) (o : VOp) (m : VMode) : State → State :=
  vScan p ⟨0x3c, 0x31, o, m⟩ o true cFmin

/-- VSCAN_FMIN (R365). -/
def execVscanFmin (p : Nat) (o : VOp) (s : State) : Result := done (vIssue p (vscanFminBody p o) s)

/-- VSCAN_FMAX (R365). -/
def vscanFmaxBody (p : Nat) (o : VOp) (m : VMode) : State → State :=
  vScan p ⟨0x3c, 0x32, o, m⟩ o true cFmax

/-- VSCAN_FMAX (R365). -/
def execVscanFmax (p : Nat) (o : VOp) (s : State) : Result := done (vIssue p (vscanFmaxBody p o) s)

/-- VMV_X (R350). -/
def execVmvX (p : Nat) (o : VOp) (s : State) : Result :=
  done (vAlone p (doVRed p ⟨0x3e, 0x8, o, .issue⟩ (fun _ => o.s || vmBad .never o)
    fun x => (o.vd, ⟨if (gpr x.c o.vb).toNat < x.c.vl then x.get o.va (gpr x.c o.vb).toNat else 0, 0⟩)) s)

/-- VMV_S (R343). -/
def vmvSBody (p : Nat) (o : VOp) (m : VMode) : State → State :=
  vMove p ⟨0x3e, 0x9, o, m⟩ o .never false
    fun x => if (gpr x.c o.vb).toNat < x.c.vl then [((gpr x.c o.vb).toNat, x.scalar o.va)] else []

/-- VMV_S (R343). -/
def execVmvS (p : Nat) (o : VOp) (s : State) : Result := done (vIssue p (vmvSBody p o) s)

/-- VWAIT (R346): it completes once every earlier vector instruction has. -/
def execVwait (p : Nat) (s : State) : Result := done (vAlone p (fun s => retire s p) s)

/-- REDUCTION_RESULT_RETURN (R350): the result and its flags reach the lead core, and the instruction completes. -/
def execReductionResultReturn (p : Nat) (s : State) : Result :=
  done (match (core s p).redWait with
    | some r =>
      if named s p && (polder s p).frzCore.isNone then
        retire (raiseFlags (putReg (modCore s p fun c => { c with redWait := none }) p r.gd r.value) p r.fl) p
      else s
    | none => s)

end Sys2Proof.Machine
end

