-- ==== Sys2Proof/Machine/VectorMem.lean ====
section
/-! DEFINITION. The vector extension II: loads and stores between vector registers and memory (R353–R359). -/

namespace Sys2Proof.Machine

/-- One element's access: element, address, whole bytes, first bit and bits. -/
structure VEl where
  e : Nat
  va : Nat
  n : Nat
  lo : Nat
  w : Nat
  deriving DecidableEq, Repr

/-- Bits of a memory element (Table 10-2). -/
def VCtx.mew (x : VCtx) : Nat :=
  match fld x.c.vtype 13 3 with
  | 0 => x.sew | 1 => 4 | 2 => 6 | 3 => 8 | 4 => 16 | 5 => 32 | _ => 64

/-- How an instruction forms its addresses (R353). -/
inductive VAddr where
  | unit
  | strided
  | indexed
  deriving DecidableEq, Repr

/-- The access of element `e` (R353, R354). -/
def VCtx.el (x : VCtx) (o : VOp) (m : VAddr) (e : Nat) : VEl :=
  let ga := (gpr x.c o.va).toNat
  let w := x.mew
  match m with
  | .unit => { e := e, va := ga + e * w / 8, n := (e * w % 8 + w + 7) / 8, lo := e * w % 8, w := w }
  | .strided => { e := e, va := (ga + e * (gpr x.c o.vb).toNat) % 2 ^ 48, n := w / 8, lo := 0, w := w }
  | .indexed => { e := e, va := (ga + x.get o.vb e * w / 8) % 2 ^ 48, n := w / 8, lo := 0, w := w }

/-- The reserved-opcode checks of a load or store: MEW above SEW, 4- and 6-bit elements outside unit stride, and MEW 6 at an address
that is no multiple of 3 (R345, R354). -/
def VCtx.memBad (x : VCtx) (o : VOp) (m : VAddr) : Bool :=
  o.s || vmBad .allowed o || decide (x.sew < x.mew) || (m ≠ .unit && decide (x.mew < 8)) ||
    (x.mew == 6 && (gpr x.c o.va).toNat % 3 ≠ 0) || (m == .unit && o.vb ≠ 0)

/-- The address and alignment checks of R353 at issue: the cause and address of the first that fails. `last` is false for VLDFF. -/
def VCtx.addrBad (x : VCtx) (o : VOp) (m : VAddr) (last : Bool) : Option (Nat × Nat) :=
  let ga := (gpr x.c o.va).toNat
  let sz := x.mew / 8
  if 2 ^ 48 ≤ ga then some (cAddr, ga)
  else if m == .unit && last && x.c.vl ≠ 0 && decide (2 ^ 48 ≤ ga + (x.c.vl * x.mew + 7) / 8 - 1) then some (cAddr, 2 ^ 48)
  else if sz ≠ 0 && ga % sz ≠ 0 then some (cAlign, ga)
  else if m == .strided && (gpr x.c o.vb).toNat % sz ≠ 0 then some (cAlign, ga)
  else none

/-- The member CD that holds element `e`. -/
def vCd (s : State) (p : Nat) (x : VCtx) (e : Nat) : Nat := cdOfRank s p (e % x.L / 1024)

/-- Where a piece of an element lies, asked by the member that holds it, in class 2 (Table 2-7). -/
def vPlace (s : State) (p : Nat) (x : VCtx) (e va access : Nat) : Except Stop Loc × State :=
  let c := core s p
  if 2 ^ 48 ≤ va then (.error (.exc cAddr va false), s)
  else if sramBase ≤ va then (if c.user then .error (.violate vMode va false) else .ok (.sram (va - sramBase)), s)
  else
    let q : XlatReq := { dReq s p va access 2 c.user with cd := vCd s p x e, req := .vector p e }
    match translate s q with
    | (.ok pa, s) => (if bit access 1 && imageHit s [(pa, 1)] then .error (.violate vImage va false) else .ok (.mem pa), s)
    | (.perm, s) => (.error (.violate vPerm va false), s)
    | (.outside, s) => (.error (.violate vOutside va false), s)
    | (.absent pa lvl, s) => (.error (.wait q pa lvl), s)
    | (.failed pa, s) => (.error (.walk pa va false), s)
    | (.busy, s) => (.error .hold, joinMiss s q)

/-- Place every piece of an element. -/
def vPlaceAll (s : State) (p : Nat) (x : VCtx) (e access : Nat) : List (Nat × Nat) → Except Stop (List (Loc × Nat)) × State
  | [] => (.ok [], s)
  | (va, n) :: rest =>
    match vPlace s p x e va access with
    | (.error r, s) => (.error r, s)
    | (.ok l, s) => match vPlaceAll s p x e access rest with
      | (.error r, s) => (.error r, s)
      | (.ok ls, s) => (.ok ((l, n) :: ls), s)

/-- The plan of an instruction: each element with its place or what it meets. -/
abbrev VPlan := List (VEl × Except Stop (List (Loc × Nat)))

/-- Plan every element, ascending. -/
def vPlanAll (s : State) (p : Nat) (x : VCtx) (access : Nat) : List VEl → VPlan × State
  | [] => ([], s)
  | a :: rest =>
    let (r, s) := vPlaceAll s p x a.e access (bytePieces 9 a.va a.n)
    let (l, s) := vPlanAll s p x access rest
    ((a, r) :: l, s)

/-- The errors that one instruction has reported already, and the state (log 13: it reads a damaged codeword once). -/
structure VRun where
  s : State
  seen : List Nat
  deriving DecidableEq, Repr

/-- Report a detection once. -/
def VRun.report (r : VRun) (key : Nat) (f : State → Record) : VRun :=
  if r.seen.contains key then r else { s := detect r.s (f r.s) false, seen := key :: r.seen }

/-- The context of a member's access for a vector element. -/
def vecCtx (s : State) (p : Nat) (x : VCtx) (e : Nat) : MemCtx :=
  { src := vCd s p x e, ls := lsCore s p, cls := some 2, p := p, req := .vector p e }

/-- Read the pieces of an element: none where a read fails (Table 12-3: the element is not written). -/
def vRead (p : Nat) (x : VCtx) (e : Nat) (r : VRun) : List (Loc × Nat) → Option (List Byte) × VRun
  | [] => (some [], r)
  | (l, n) :: rest =>
    let one : Option (List Byte) × VRun := match l with
      | .sram off => (some (mgetN (core r.s p).localSram off n), r)
      | .mem pa =>
        let m := vecCtx r.s p x e
        match readAtom r.s m pa n with
        | (.ok d, s) => (some d, { r with s := s })
        | (.error (.uncorr cw), s) => (none, VRun.report { r with s := s } cw fun s => uncorrRec s m 1 cw)
        | (.error .lost, s) => (none, { r with s := s })
    match one with
    | (none, r) => (none, r)
    | (some d, r) => match vRead p x e r rest with
      | (none, r) => (none, r)
      | (some ds, r) => (some (d ++ ds), r)

/-- Write the pieces of an element; a piece that fails is not applied. -/
def vWrite (p : Nat) (x : VCtx) (e : Nat) (r : VRun) : List (Loc × Nat) → List Byte → VRun
  | [], _ => r
  | (l, n) :: rest, d =>
    let r : VRun := match l with
      | .sram off => { r with s := modCore r.s p fun c => { c with localSram := msetN c.localSram off (d.take n) } }
      | .mem pa =>
        let m := vecCtx r.s p x e
        match writeAtom r.s m pa (d.take n) with
        | (none, s) => { r with s := s }
        | (some (.uncorr cw), s) => VRun.report { r with s := s } cw fun s => uncorrRec s m 1 cw
        | (some .lost, s) => { r with s := s }
    vWrite p x e r rest (d.drop n)

/-- The bytes now at an element's pieces, for a store of fewer than 8 bits. -/
def vPeek (s : State) (p : Nat) (ls : List (Loc × Nat)) : List Byte :=
  (ls.map fun l => match l.1 with
    | .sram off => mgetN (core s p).localSram off l.2
    | .mem pa => mgetN s.mem pa l.2).flatten

/-- Load one element into a register. -/
def vLoadEl (p : Nat) (x : VCtx) (vd : Reg) (r : VRun) (a : VEl) (ls : List (Loc × Nat)) : VRun :=
  match vRead p x a.e r ls with
  | (some d, r) => { r with s := putElems r.s p x vd [(a.e, bits (natLE d) a.lo a.w)] }
  | (none, r) => r

/-- Store one element of a register. -/
def vStoreEl (p : Nat) (x : VCtx) (vs : Reg) (r : VRun) (a : VEl) (ls : List (Loc × Nat)) : VRun :=
  let old := if a.w < 8 then natLE (vPeek r.s p ls) else 0
  vWrite p x a.e r ls (bytesLE a.n (setBits old a.lo a.w (x.get vs a.e)))

/-- Perform the placed elements; an element whose walk failed reports it (R452). -/
def vPerform (p : Nat) (f : VRun → VEl → List (Loc × Nat) → VRun) (r : VRun) (l : VPlan) : VRun :=
  l.foldl (fun r a => match a.2 with
    | .ok ls => f r a.1 ls
    | .error (.walk pa _ _) => VRun.report r (2 ^ 50 + pa) fun s => walkRec s (lsCore s p) 1 pa
    | .error _ => r) r

/-- The lowest element that violates: element, code and address. -/
def vViolation (l : VPlan) : Option (Nat × Nat × Nat) :=
  l.findSome? fun a => match a.2 with
    | .error (.violate v addr _) => some (a.1.e, v, addr)
    | _ => none

/-- A free choice of which other elements had performed when one violates (R358, log 3). -/
def vSome (s : State) (l : VPlan) : VPlan × State :=
  l.foldl (fun acc a => let (f, s) := drawFree acc.2; (if f.getLsbD 0 then acc.1 ++ [a] else acc.1, s)) ([], s)

/-- Open the not-present faults of a plan. -/
def vOpen (s : State) (p : Nat) (l : VPlan) : State :=
  l.foldl (fun s a => match a.2 with
    | .error (.wait q pa lvl) => (openFault s q (lsCore s p) pa lvl).2
    | _ => s) s

/-- What holds a placed element back: its home holds accesses (R408), or its member has no tag for it (R480). -/
def vHeld (s : State) (p : Nat) (x : VCtx) (a : VEl × Except Stop (List (Loc × Nat))) : Option Stop :=
  match a.2 with
  | .ok ls => ls.findSome? fun l => match l.1 with
    | .sram _ => none
    | .mem pa =>
      let cd := vCd s p x a.1.e
      if frameHeld s pa then some .hold
      else if tagFor s cd (.vector p a.1.e) then none
      else some (.stall { kind := 0, dest := homeDie pa, addr := pa, ls := lsCore s p, req := .vector p a.1.e, first := false, granted := false })
  | .error .hold => some .hold
  | .error _ => none

/-- The instruction waits: at its issue the members hold it in their queues, which completes it (R346). `mark`: npWait of a queued one. -/
def vWaits (s : State) (p : Nat) (v : VI) : State :=
  match v.mode with
  | .run => modCore s p fun c => { c with npWait := some v.w }
  | _ => castInstr p (fun s => vPush s p v) s

/-- The accesses of one instruction (R358): a violation freezes the core naming the lowest element; a not-present page, a home that holds its
accesses or a missing tag holds the instruction, which performs whole later (log 13), in the members' queues, or on the lead core where it
awaits the result; else every element performs and `fin` ends the instruction. -/
def vMem (p : Nat) (v : VI) (queues : Bool) (x : VCtx) (access : Nat) (els : List VEl) (f : VRun → VEl → List (Loc × Nat) → VRun)
    (cut : VPlan → VPlan) (fin : VPlan → State → State) (s : State) : State :=
  if v.mode = .push then castInstr p (fun s => vPush s p v) s else
  let (l0, s) := vPlanAll s p x access els
  let l := cut l0
  match vViolation l with
  | some (e, code, addr) =>
    let (l', s) := vSome s l
    violate (vPerform p f { s := s, seen := [] } l').s p code false e addr v.w
  | none =>
    if l.any fun a => match a.2 with | .error (.wait ..) => true | _ => false then
      let s := vOpen s p l
      if queues then vWaits s p v else modCore s p fun c => { c with npWait := some v.w }
    else match l.findSome? (vHeld s p x) with
      | some w =>
        let s := match w with | .stall q => addWaiter s q.ls.src q | _ => s
        if queues then vWaits s p v else s
      | none =>
        let go := fun (s : State) => dropWaiterAll (fin l0 (vPerform p f { s := s, seen := [] } l).s) (isVecReq p)
        if v.mode = .run then go s else castInstr p (fun s => retire (go s) p) s

/-- A load or store: issue checks, then the accesses of the active elements. -/
def vMemOp (p : Nat) (v : VI) (o : VOp) (m : VAddr) (store : Bool) (s : State) : State :=
  let x := vctx s p
  if v.mode ≠ .run && x.memBad o m then raiseExc s p cResop 0 0 false v.w
  else match (if v.mode = .run then none else x.addrBad o m true) with
    | some (cause, addr) => raiseExc s p cause addr 0 false v.w
    | none =>
      vMem p v true x (if store then 2 else 1) ((x.active o).map (x.el o m))
        (if store then vStoreEl p x o.vd else vLoadEl p x o.vd) (fun l => l) (fun _ s => s) s

/-- The first active element above 0 whose access would meet a not-present, permission or address fault (R359). -/
def vffCut (l : VPlan) : Option Nat :=
  l.findSome? fun a => match a.2 with
    | .error (.walk ..) => none
    | .error _ => if a.1.e = 0 then none else some a.1.e
    | .ok _ => none

/-- VLDFF (R359). -/
def vLoadFF (p : Nat) (v : VI) (o : VOp) (s : State) : State :=
  let x := vctx s p
  if x.memBad o .unit then raiseExc s p cResop 0 0 false v.w
  else match x.addrBad o .unit false with
    | some (cause, addr) => raiseExc s p cause addr 0 false v.w
    | none =>
      vMem p v false x 1 ((x.active o).map (x.el o .unit)) (vLoadEl p x o.vd)
        (fun l => match vffCut l with
          | some n => l.filter fun a => a.1.e < n
          | none => l)
        (fun l s => match vffCut l with
          | some n => modCore s p fun c => { c with vl := n }
          | none => s) s

/-- The byte accesses of VLDM and VSTM: byte j holds the mask bits of elements 8j to 8j + 7 (R355). -/
def maskEls (x : VCtx) (o : VOp) : List VEl :=
  (List.range ((x.c.vl + 7) / 8)).map fun j => { e := 8 * j, va := (gpr x.c o.va).toNat + j, n := 1, lo := 0, w := min 8 (x.c.vl - 8 * j) }

/-- Load one byte of mask bits. -/
def vLoadMaskEl (p : Nat) (x : VCtx) (m : Nat) (r : VRun) (a : VEl) (ls : List (Loc × Nat)) : VRun :=
  match vRead p x a.e r ls with
  | (some d, r) => { r with s := putMask r.s p m ((List.range a.w).map fun i => (a.e + i, bit (natLE d) i)) }
  | (none, r) => r

/-- Store one byte of mask bits, with zeros above VL − 1. -/
def vStoreMaskEl (p : Nat) (x : VCtx) (m : Nat) (r : VRun) (a : VEl) (ls : List (Loc × Nat)) : VRun :=
  vWrite p x a.e r ls (bytesLE 1 (maskOf ((List.range a.w).filter fun i => mGet x.po m (a.e + i))))

/-- VLDM and VSTM. -/
def vMaskMem (p : Nat) (v : VI) (o : VOp) (store : Bool) (s : State) : State :=
  let x := vctx s p
  let ga := (gpr x.c o.va).toNat
  let new := v.mode ≠ .run
  if new && (o.s || vmBad .never o || 7 < o.vd.toNat || o.vb ≠ 0 || decide (x.sew < x.mew)) then raiseExc s p cResop 0 0 false v.w
  else if new && 2 ^ 48 ≤ ga then raiseExc s p cAddr ga 0 false v.w
  else if new && x.c.vl ≠ 0 && decide (2 ^ 48 ≤ ga + (x.c.vl + 7) / 8 - 1) then raiseExc s p cAddr (2 ^ 48) 0 false v.w
  else
    vMem p v true x (if store then 2 else 1) (maskEls x o) (if store then vStoreMaskEl p x o.vd.toNat else vLoadMaskEl p x o.vd.toNat)
      (fun l => l) (fun _ s => s) s

/-! ### The instructions -/

/-- VLD (R353). -/
def vldBody (p : Nat) (o : VOp) (m : VMode) : State → State :=
  vMemOp p ⟨0x3B, 0, o, m⟩ o .unit false

/-- VLD (R353). -/
def execVld (p : Nat) (o : VOp) (s : State) : Result := done (vIssue p (vldBody p o) s)

/-- VLDS (R353). -/
def vldsBody (p : Nat) (o : VOp) (m : VMode) : State → State :=
  vMemOp p ⟨0x3B, 1, o, m⟩ o .strided false

/-- VLDS (R353). -/
def execVlds (p : Nat) (o : VOp) (s : State) : Result := done (vIssue p (vldsBody p o) s)

/-- VLDX (R353). -/
def vldxBody (p : Nat) (o : VOp) (m : VMode) : State → State :=
  vMemOp p ⟨0x3B, 2, o, m⟩ o .indexed false

/-- VLDX (R353). -/
def execVldx (p : Nat) (o : VOp) (s : State) : Result := done (vIssue p (vldxBody p o) s)

/-- VLDFF (R359). -/
def execVldff (p : Nat) (o : VOp) (s : State) : Result :=
  done (vAlone p (vLoadFF p ⟨0x3B, 3, o, .issue⟩ o) s)

/-- VLDM (R355). -/
def vldmBody (p : Nat) (o : VOp) (m : VMode) : State → State :=
  vMaskMem p ⟨0x3B, 5, o, m⟩ o false

/-- VLDM (R355). -/
def execVldm (p : Nat) (o : VOp) (s : State) : Result := done (vIssue p (vldmBody p o) s)

/-- VST (R353). -/
def vstBody (p : Nat) (o : VOp) (m : VMode) : State → State :=
  vMemOp p ⟨0x3B, 8, o, m⟩ o .unit true

/-- VST (R353). -/
def execVst (p : Nat) (o : VOp) (s : State) : Result := done (vIssue p (vstBody p o) s)

/-- VSTS (R353). -/
def vstsBody (p : Nat) (o : VOp) (m : VMode) : State → State :=
  vMemOp p ⟨0x3B, 9, o, m⟩ o .strided true

/-- VSTS (R353). -/
def execVsts (p : Nat) (o : VOp) (s : State) : Result := done (vIssue p (vstsBody p o) s)

/-- VSTX (R356): ascending elements, so the higher index leaves its value. -/
def vstxBody (p : Nat) (o : VOp) (m : VMode) : State → State :=
  vMemOp p ⟨0x3B, 0xA, o, m⟩ o .indexed true

/-- VSTX (R356): ascending elements, so the higher index leaves its value. -/
def execVstx (p : Nat) (o : VOp) (s : State) : Result := done (vIssue p (vstxBody p o) s)

/-- VSTM (R355). -/
def vstmBody (p : Nat) (o : VOp) (m : VMode) : State → State :=
  vMaskMem p ⟨0x3B, 0xD, o, m⟩ o true

/-- VSTM (R355). -/
def execVstm (p : Nat) (o : VOp) (s : State) : Result := done (vIssue p (vstmBody p o) s)

end Sys2Proof.Machine
end

