-- ==== Sys2Proof/Machine/VectorFn.lean ====
section
/-! DEFINITION. The vector extension III: transcendental functions, conversions and MX quantisation (R367–R371). -/

namespace Sys2Proof.Machine

/-! ### Transcendentals (Table 10-11) -/

/-- FP code of 1 with a sign. -/
def fOne (f : Nat) (neg : Bool) : Nat := (2 ^ (fExp f - 1) - 1) <<< fFrac f + (if neg then fSign f else 0)

/-- The value the table states for an operand, if it states one; `fn` counts VEXP, VLOG, VRSQRT, VTANH, VERF, VSIGM, VSILU, VGELU. -/
def transcSpecial (fn f x : Nat) : Option FRes :=
  match fDec f x with
  | .nan s => some ⟨fNan f, if s then 16 else 0⟩
  | .inf neg =>
    some (match fn with
      | 0 => ⟨if neg then 0 else fInf f, 0⟩
      | 1 => if neg then ⟨fNan f, 16⟩ else ⟨fInf f, 0⟩
      | 2 => if neg then ⟨fNan f, 16⟩ else ⟨0, 0⟩
      | 3 => ⟨fOne f neg, 0⟩
      | 4 => ⟨fOne f neg, 0⟩
      | 5 => ⟨if neg then 0 else fOne f false, 0⟩
      | _ => ⟨if neg then fSign f else fInf f, 0⟩)
  | .fin neg m _ =>
    if m = 0 then
      match fn with
      | 0 => some ⟨fOne f false, 0⟩
      | 1 => some ⟨fInf f + fSign f, 8⟩
      | 2 => some ⟨fInf f + (if neg then fSign f else 0), 8⟩
      | 5 => none
      | _ => some ⟨if neg then fSign f else 0, 0⟩
    else if fn = 1 && x = fOne f false then some ⟨0, 0⟩
    else if (fn = 1 || fn = 2) && neg then some ⟨fNan f, 16⟩
    else none

/-- A transcendental function (R367): the value that the table states, else one within its bound. -/
def transc (fn f x : Nat) : FRes :=
  match transcSpecial fn f x, fDec f x with
  | some r, _ => r
  | none, .fin neg m e => transcFinite fn f x neg m e
  | none, _ => ⟨fNan f, 0⟩

/-- The FP32 functions that other chapters use (R368). -/
def expf (x : Nat) : Nat := (transc 0 1 x).v
def rsqrtf (x : Nat) : Nat := (transc 2 1 x).v

/-- A transcendental instruction: SEW 32, or 64 for the first three; vb zero. -/
def vTransc (p : Nat) (v : VI) (o : VOp) (fn : Nat) (s : State) : State :=
  doV p v (fun x => o.s || vmBad .allowed o || o.vb ≠ 0 || !(x.k == 2 || (x.k == 3 && fn < 3)) || x.fpBad)
    (fun x s =>
      let rs := (x.active o).map fun e => (e, transc fn (x.fp.getD 0) (x.get o.va e))
      raiseFlags (putElems s p x o.vd (rs.map fun r => (r.1, r.2.v))) p (flagsOf rs)) s

/-! ### Conversions (Table 10-12) -/

/-- A source format of VCVT: floating format, or integer bits and signedness. -/
inductive CvtSrc where
  | flt (f : Nat)
  | int (signed : Bool) (n : Nat)
  deriving DecidableEq, Repr

/-- The source codes. -/
def cvtSrc (code : Nat) : Option CvtSrc :=
  match code with
  | 0 => some (.flt 0) | 1 => some (.flt 1) | 2 => some (.flt 2) | 3 => some (.flt 3)
  | 8 => some (.int true 8) | 9 => some (.int false 8) | 10 => some (.int true 16) | 11 => some (.int false 16)
  | 12 => some (.int true 32) | 13 => some (.int false 32) | 14 => some (.int true 64) | 15 => some (.int false 64)
  | _ => none

/-- Bits of a source element. -/
def CvtSrc.bits : CvtSrc → Nat
  | .flt f => fBits f
  | .int _ n => n

/-- The SEW code of a width. -/
def sewOf (n : Nat) : Nat := Nat.log2 n - 3

/-- The format that a conversion to or from integers of a width names: INT8 or UINT8 at 8 bits, none that FORMATS can disable otherwise. That a
conversion names a format where other integer instructions at SEW 8 name none is a DESIGN CHOICE (R57, log 23). -/
def intFmt (signed : Bool) (n : Nat) : Nat := if n = 8 then (if signed then 10 else 11) else 14

/-- The format a conversion's source names (R57). -/
def CvtSrc.fmt : CvtSrc → Nat
  | .flt f => f
  | .int sg n => intFmt sg n

/-- Integer conversion result: saturated with NV where the value is out of range (Table 4-7). -/
def cvtInt (signed : Bool) (n rm : Nat) (src : CvtSrc) (v : Nat) : FRes :=
  match src with
  | .flt f =>
    let r := fToInt rm (intLo signed n) (intHi signed n) (fDec f v)
    ⟨toBits n r.1, r.2⟩
  | .int sg m =>
    let i : Int := if sg then sext m v else (v : Int)
    let j := min (max i (intLo signed n)) (intHi signed n)
    ⟨toBits n j, if i = j then 0 else 16⟩

/-- Floating conversion result; the SAT option acts on floating sources alone (Table 4-7). -/
def cvtFlt (f rm : Nat) (sat : Bool) (src : CvtSrc) (v : Nat) : FRes :=
  match src with
  | .flt g => fConv g f rm sat v
  | .int sg m => fEnc f rm false (ofInt (if sg then sext m v else (v : Int)))

/-- A conversion (R369): the source is read at its own width and placement. `dst` is the format named by the result. -/
def vCvt (p : Nat) (v : VI) (o : VOp) (dst : VCtx → Option Nat) (f : VCtx → CvtSrc → Nat → FRes) (s : State) : State :=
  match cvtSrc o.vb.toNat with
  | none => raiseExc s p cResop 0 0 false v.w
  | some src =>
    doV p v (fun x => o.s || vmBad .allowed o || !fmtOn x.po src.fmt || decide (vlMax s p (sewOf src.bits) < x.c.vl) ||
        (match dst x with | some d => !fmtOn x.po d | none => true))
      (fun x s =>
        let rs := (x.active o).map fun e => (e, f x src (vGet x.po x.L (sewOf src.bits) o.va.toNat e))
        raiseFlags (putElems s p x o.vd (rs.map fun r => (r.1, r.2.v))) p (flagsOf rs)) s

/-- A conversion to floating point. -/
def vCvtF (p : Nat) (v : VI) (o : VOp) (sat : Bool) (s : State) : State :=
  vCvt p v o (fun x => x.fp) (fun x src v => cvtFlt (x.fp.getD 0) (rmOf x.c.fpctl) sat src v) s

/-- A conversion to an integer. -/
def vCvtI (p : Nat) (v : VI) (o : VOp) (signed trunc : Bool) (s : State) : State :=
  vCvt p v o (fun x => some (intFmt signed x.sew)) (fun x src v => cvtInt signed x.sew (if trunc then 1 else rmOf x.c.fpctl) src v) s

/-! ### MX (R370, R371) -/

/-- gb of VQMX and VDQMX: a format code 4 to 9, SCALE_RULE in bit 4, the rest 0; the format is on in the polder. -/
def mxArgBad (x : VCtx) (g : Nat) : Bool := 32 ≤ g || !fIsMx (g % 16) || !fmtOn x.po (g % 16)

/-- VQMX (R370): one block of 32 elements at a time. -/
def doVqmx (p : Nat) (v : VI) (o : VOp) (s : State) : State :=
  doV p v (fun x => o.s || vmBad .never o || x.k ≠ 2 || mxArgBad x (gpr x.c o.vb).toNat || o.vd.toNat % 2 = 1 || 30 < o.vd.toNat ||
      o.vd == o.va || o.vd + 1 == o.va)
    (fun x s =>
      let g := (gpr x.c o.vb).toNat
      let n := x.c.vl
      let bs := (List.range ((n + 31) / 32)).map fun b =>
        let es := span (32 * b) (min 32 (n - 32 * b))
        (b, es, mxQuantise (g % 16) (g / 16) (es.map fun e => x.get o.va e))
      let s := putElems s p x o.vd ((bs.map fun b => b.2.1.zip b.2.2.elems).flatten)
      let s := putElems s p x (o.vd + 1) (bs.map fun b => (b.1, b.2.2.scale))
      raiseFlags s p (bs.foldl (fun f b => f ||| b.2.2.fl) 0)) s

/-- VDQMX (R371). -/
def doVdqmx (p : Nat) (v : VI) (o : VOp) (s : State) : State :=
  doV p v (fun x => o.s || vmBad .allowed o || x.k ≠ 2 || mxArgBad x (gpr x.c o.vb).toNat || 30 < o.va.toNat)
    (fun x s =>
      let f := (gpr x.c o.vb).toNat % 16
      let rs := (x.active o).map fun e =>
        (e, elemToFp32 f (x.get (o.va + 1) (e / 32) % 256) (x.get o.va e % 2 ^ fBits f))
      raiseFlags (putElems s p x o.vd (rs.map fun r => (r.1, r.2.v))) p (flagsOf rs)) s

/-! ### The instructions -/

/-- VEXP (R367). -/
def vexpBody (p : Nat) (o : VOp) (m : VMode) : State → State :=
  vTransc p ⟨0x3D, 0, o, m⟩ o 0

/-- VEXP (R367). -/
def execVexp (p : Nat) (o : VOp) (s : State) : Result := done (vIssue p (vexpBody p o) s)

/-- VLOG (R367). -/
def vlogBody (p : Nat) (o : VOp) (m : VMode) : State → State :=
  vTransc p ⟨0x3D, 1, o, m⟩ o 1

/-- VLOG (R367). -/
def execVlog (p : Nat) (o : VOp) (s : State) : Result := done (vIssue p (vlogBody p o) s)

/-- VRSQRT (R367). -/
def vrsqrtBody (p : Nat) (o : VOp) (m : VMode) : State → State :=
  vTransc p ⟨0x3D, 2, o, m⟩ o 2

/-- VRSQRT (R367). -/
def execVrsqrt (p : Nat) (o : VOp) (s : State) : Result := done (vIssue p (vrsqrtBody p o) s)

/-- VTANH (R367). -/
def vtanhBody (p : Nat) (o : VOp) (m : VMode) : State → State :=
  vTransc p ⟨0x3D, 3, o, m⟩ o 3

/-- VTANH (R367). -/
def execVtanh (p : Nat) (o : VOp) (s : State) : Result := done (vIssue p (vtanhBody p o) s)

/-- VERF (R367). -/
def verfBody (p : Nat) (o : VOp) (m : VMode) : State → State :=
  vTransc p ⟨0x3D, 4, o, m⟩ o 4

/-- VERF (R367). -/
def execVerf (p : Nat) (o : VOp) (s : State) : Result := done (vIssue p (verfBody p o) s)

/-- VSIGM (R367). -/
def vsigmBody (p : Nat) (o : VOp) (m : VMode) : State → State :=
  vTransc p ⟨0x3D, 5, o, m⟩ o 5

/-- VSIGM (R367). -/
def execVsigm (p : Nat) (o : VOp) (s : State) : Result := done (vIssue p (vsigmBody p o) s)

/-- VSILU (R367). -/
def vsiluBody (p : Nat) (o : VOp) (m : VMode) : State → State :=
  vTransc p ⟨0x3D, 6, o, m⟩ o 6

/-- VSILU (R367). -/
def execVsilu (p : Nat) (o : VOp) (s : State) : Result := done (vIssue p (vsiluBody p o) s)

/-- VGELU (R367). -/
def vgeluBody (p : Nat) (o : VOp) (m : VMode) : State → State :=
  vTransc p ⟨0x3D, 7, o, m⟩ o 7

/-- VGELU (R367). -/
def execVgelu (p : Nat) (o : VOp) (s : State) : Result := done (vIssue p (vgeluBody p o) s)

/-- VCVT_F (R369). -/
def vcvtFBody (p : Nat) (o : VOp) (m : VMode) : State → State :=
  vCvtF p ⟨0x3D, 0x10, o, m⟩ o false

/-- VCVT_F (R369). -/
def execVcvtF (p : Nat) (o : VOp) (s : State) : Result := done (vIssue p (vcvtFBody p o) s)

/-- VCVT_FS (R369). -/
def vcvtFsBody (p : Nat) (o : VOp) (m : VMode) : State → State :=
  vCvtF p ⟨0x3D, 0x11, o, m⟩ o true

/-- VCVT_FS (R369). -/
def execVcvtFs (p : Nat) (o : VOp) (s : State) : Result := done (vIssue p (vcvtFsBody p o) s)

/-- VCVT_I (R369). -/
def vcvtIBody (p : Nat) (o : VOp) (m : VMode) : State → State :=
  vCvtI p ⟨0x3D, 0x12, o, m⟩ o true false

/-- VCVT_I (R369). -/
def execVcvtI (p : Nat) (o : VOp) (s : State) : Result := done (vIssue p (vcvtIBody p o) s)

/-- VCVT_IZ (R369). -/
def vcvtIzBody (p : Nat) (o : VOp) (m : VMode) : State → State :=
  vCvtI p ⟨0x3D, 0x13, o, m⟩ o true true

/-- VCVT_IZ (R369). -/
def execVcvtIz (p : Nat) (o : VOp) (s : State) : Result := done (vIssue p (vcvtIzBody p o) s)

/-- VCVT_U (R369). -/
def vcvtUBody (p : Nat) (o : VOp) (m : VMode) : State → State :=
  vCvtI p ⟨0x3D, 0x14, o, m⟩ o false false

/-- VCVT_U (R369). -/
def execVcvtU (p : Nat) (o : VOp) (s : State) : Result := done (vIssue p (vcvtUBody p o) s)

/-- VCVT_UZ (R369). -/
def vcvtUzBody (p : Nat) (o : VOp) (m : VMode) : State → State :=
  vCvtI p ⟨0x3D, 0x15, o, m⟩ o false true

/-- VCVT_UZ (R369). -/
def execVcvtUz (p : Nat) (o : VOp) (s : State) : Result := done (vIssue p (vcvtUzBody p o) s)

/-- VQMX (R370). -/
def vqmxBody (p : Nat) (o : VOp) (m : VMode) : State → State :=
  doVqmx p ⟨0x3D, 0x18, o, m⟩ o

/-- VQMX (R370). -/
def execVqmx (p : Nat) (o : VOp) (s : State) : Result := done (vIssue p (vqmxBody p o) s)

/-- VDQMX (R371). -/
def vdqmxBody (p : Nat) (o : VOp) (m : VMode) : State → State :=
  doVdqmx p ⟨0x3D, 0x19, o, m⟩ o

/-- VDQMX (R371). -/
def execVdqmx (p : Nat) (o : VOp) (s : State) : Result := done (vIssue p (vdqmxBody p o) s)

end Sys2Proof.Machine
end

