-- ==== Sys2Proof/Machine/MatrixUnit.lean ====
section
/-! DEFINITION. The matrix arrays (chapter 5) and the accumulation groups (chapter 6): operation words, depth groups, segments and
spills, closing, statistics, top-k and delivery; and the lead core's matrix instructions. -/

namespace Sys2Proof.Machine

/-! ### Operation words (Table 5-4) and pairings (Table 5-1) -/

/-- The fields of an operation word; `cols` and `n` are counts. -/
structure OpWord where
  rows : Nat
  depth : Nat
  cols : Nat
  bank : Nat
  ma : Nat
  bc : Nat
  n : Nat
  grp : Nat
  zero : Bool
  close : Bool
  prec : Nat
  res : Nat
  fmtB : Nat
  fmtA : Nat
  deriving DecidableEq, Repr

def opWord (w : Word) : OpWord :=
  { rows := fld w 48 16, depth := fld w 38 10, cols := fld w 35 3 + 1, bank := fld w 34 1, ma := fld w 30 4, bc := fld w 28 2,
    n := 2 ^ fld w 28 2, grp := fld w 24 4, zero := bit w.toNat 23, close := bit w.toNat 22, prec := fld w 20 2, res := fld w 8 12,
    fmtB := fld w 4 4, fmtA := fld w 0 4 }

/-- The classes of Table 5-1. -/
inductive MCls where
  | mx
  | int
  | half
  | fp32
  | fp64
  deriving DecidableEq, Repr

/-- Class and depth d of a pairing; none where Table 5-1 lists none (R160). -/
def pairing (a b : Nat) : Option (MCls × Nat) :=
  if fIsMx a && fIsMx b then some (.mx, if a = 8 || b = 8 then 32 else 16)
  else if 10 ≤ a && a ≤ 13 && 10 ≤ b && b ≤ 13 then some (.int, if 12 ≤ a || 12 ≤ b then 32 else 16)
  else if (a = 2 || a = 3) && (b = 2 || b = 3) then some (.half, 8)
  else if a = 1 && b = 1 then some (.fp32, 8)
  else if a = 0 && b = 0 then some (.fp64, 1)
  else none

/-- Stationary depth S (Table 5-5). -/
def depthS (fmt : Nat) : Nat :=
  match fBits fmt with
  | 4 => 512 | 6 => 320 | 8 => 256 | 16 => 128 | 32 => 64 | _ => 32

/-- The reserved-opcode and admission conditions of R180 that depend on the operation word and FORMATS alone. -/
def opWordBad (po : Polder) (w : OpWord) : Bool :=
  match pairing w.fmtA w.fmtB with
  | none => true
  | some (c, _) =>
    !fmtOn po w.fmtA || !fmtOn po w.fmtB || (c == .fp32) == (w.prec == 0) || (c == .fp64 && decide (w.ma < 12)) || w.ma % w.n ≠ 0 ||
      w.rows = 0 || w.depth = 0 || decide (depthS w.fmtB < w.depth) || w.res ≠ 0

/-- Bytes of one operand row of `depth` elements, and its scale bytes (R175). -/
def rowBytes (fmt depth : Nat) : Nat := alignUp depth 32 * fBits fmt / 8
def rowBlocks (fmt depth : Nat) : Nat := if fIsMx fmt then (depth + 31) / 32 else 0

def gristSize : Nat := 0x400000

/-- An operand run of `rows` rows that leaves the grist or is misaligned (R180). -/
def runBad (fmt depth rows eo so : Nat) : Bool :=
  eo % 32 ≠ 0 || decide (gristSize < eo + rows * rowBytes fmt depth) ||
    (fIsMx fmt && decide (gristSize < so + rows * rowBlocks fmt depth))

/-! ### Operand rows -/

/-- One row of an operand: its element codes and the scale byte of each block of 32. -/
structure MRow where
  codes : List Nat
  scales : List Nat
  deriving DecidableEq, Repr

/-- Element `k` of a packed row (R144, R150). -/
def elemCode (fmt : Nat) (bs : List Byte) (k : Nat) : Nat := leAt bs (k * fBits fmt / 8) 9 >>> (k * fBits fmt % 8) % 2 ^ fBits fmt

/-- A row of `depth` elements from its bytes and scale bytes. -/
def mkRow (fmt depth : Nat) (bs sc : List Byte) : MRow :=
  { codes := (List.range depth).map (elemCode fmt bs), scales := sc.map (·.toNat) }

/-- Bytes of a position's grist; nothing lies beyond its end. -/
def gristRead (s : State) (cd pos off n : Nat) : List Byte :=
  slice (mgetN s.grist (gristKey cd pos off) (min n (gristSize - off))) 0 n

/-- A position's grist or cask has been written since its last clear (R292). -/
def markWritten (s : State) (cd pos : Nat) : State := modCd s cd fun c => { c with written := c.written ||| BitVec.ofNat 16 (2 ^ pos) }

/-- Write bytes of a position's grist; bytes beyond its end are dropped (log 15). -/
def gristWrite (s : State) (cd pos off : Nat) (d : List Byte) : State :=
  { markWritten s cd pos with grist := msetN s.grist (gristKey cd pos off) (d.take (gristSize - off)) }

/-- Rows of an operand in grist (R175). -/
def gristRows (s : State) (cd pos fmt depth rows eo so : Nat) : List MRow :=
  (List.range rows).map fun r =>
    mkRow fmt depth (gristRead s cd pos (eo + r * rowBytes fmt depth) (rowBytes fmt depth))
      (gristRead s cd pos (so + r * rowBlocks fmt depth) (rowBlocks fmt depth))

/-- The value of element k of a row, its block's scale included. -/
def MRow.val (r : MRow) (fmt k : Nat) : FVal := elemVal fmt (r.scales.getD (k / 32) 0) (r.codes.getD k 0)

/-! ### Depth groups (R163–R172) -/

/-- The three pieces of a finite FP32 value (R167): 8 significant bits, the next 8, and the rest. -/
def pieces3 : FVal → FVal × FVal × FVal
  | .fin n m e =>
    let sh := Nat.log2 m - 7
    let hi := m >>> sh <<< sh
    let r := m - hi
    let mid := r >>> (sh - 8) <<< (sh - 8)
    (.fin n hi e, .fin n mid e, .fin n (r - mid) e)
  | v => (v, v, v)

/-- The terms of one depth step (R163, R168). -/
def stepTerms (prec : Nat) (a b : FVal) : List FVal :=
  match prec, a, b with
  | 0, _, _ => [a.mul b]
  | _, .fin _ (_ + 1) _, .fin _ (_ + 1) _ =>
    let (ah, am, al) := pieces3 a
    let (bh, bm, bl) := pieces3 b
    let t1 := [ah.mul bh]
    let t2 := [ah.mul bm, am.mul bh]
    let t3 := [ah.mul bl, am.mul bm, al.mul bh]
    if prec = 1 then t1 else if prec = 2 then t1 ++ t2 else t1 ++ t2 ++ t3
  | _, _, _ => [a.mul b]

/-- R163: the exact sum of the terms is added to the FP32 accumulator and rounded once. -/
def groupStep (acc : Nat) (terms : List FVal) : FRes :=
  let vs := fDec 1 acc :: terms
  let isInf := fun (n : Bool) (v : FVal) => match v with | .inf m => m == n | _ => false
  let clash := vs.any (isInf false) && vs.any (isInf true)
  if clash || vs.any (·.isNan) then ⟨fNan 1, if clash || vs.any (·.isSnan) then 16 else 0⟩
  else fEnc 1 0 false (terms.foldl (fun t v => t.add 0 v) (fDec 1 acc))

/-- The integer value of an element code. -/
def intVal (fmt x : Nat) : Int := if fSigned fmt then sext (fBits fmt) x else (x % 2 ^ fBits fmt : Nat)

/-- What a stream needs to know of its group. -/
structure MatCfg where
  cls : MCls
  d : Nat
  prec : Nat
  fa : Nat
  fb : Nat
  spill : Nat
  deriving DecidableEq, Repr

/-- T + s at a spill or close (R203): FP64 addition, or wrapping INT64. -/
def addSeg (c : MCls) (t s : Nat) : FRes :=
  if c == .int then ⟨toBits 64 (sext 64 t + sext 32 s), 0⟩ else fEnc 0 0 false ((fDec 0 t).add 0 (fDec 1 s))

/-- add64 of two totals (R209). -/
def addTot (c : MCls) (a b : Nat) : FRes := if c == .int then ⟨(a + b) % 2 ^ 64, 0⟩ else fAdd 0 0 a b

/-- One depth group of one element, with its spill (R203, R207). -/
def accGroup (m : MatCfg) (a b : MRow) (ks : List Nat) (x : Acc) : Acc × Nat :=
  if m.cls == .fp64 then
    ks.foldl (fun acc k =>
      let r := fMulAdd 0 0 (a.codes.getD k 0) (b.codes.getD k 0) acc.1.t.toNat
      ({ acc.1 with t := toW r.v, k := acc.1.k + 1 }, acc.2 ||| r.fl)) (x, 0)
  else
    let s : FRes :=
      if m.cls == .int then
        ⟨toBits 32 (ks.foldl (fun t k => t + intVal m.fa (a.codes.getD k 0) * intVal m.fb (b.codes.getD k 0)) (sext 32 x.s.toNat)), 0⟩
      else groupStep x.s.toNat ((ks.map fun k => stepTerms m.prec (a.val m.fa k) (b.val m.fb k)).flatten)
    let k := x.k + ks.length
    if x.k / m.spill < k / m.spill then
      let t := addSeg m.cls x.t.toNat s.v
      ({ t := toW t.v, s := 0, k := k }, s.fl ||| t.fl)
    else ({ x with s := BitVec.ofNat 32 s.v, k := k }, s.fl)

/-- The depth groups of a window of `depth` steps, ascending (R161, R166). -/
def depthGroups (d depth : Nat) : List (List Nat) := (List.range ((depth + d - 1) / d)).map fun g => span (g * d) (min d (depth - g * d))

/-- One window of one element. -/
def accWindow (m : MatCfg) (depth : Nat) (a b : MRow) (x : Acc) : Acc × Nat :=
  (depthGroups m.d depth).foldl (fun acc ks => let (y, f) := accGroup m a b ks acc.1; (y, acc.2 ||| f)) (x, 0)

def Acc.zero : Acc := { t := 0, s := 0, k := 0 }

/-- A group's elements and the flags raised so far. -/
structure MatRun where
  g : Group
  fl : Nat
  deriving DecidableEq, Repr

/-- One window on one cluster position: rows of A against the columns of B it holds. -/
def streamPos (m : MatCfg) (depth : Nat) (zero : Bool) (rank pos : Nat) (r : MatRun) (as bs : List MRow) : MatRun :=
  bs.zipIdx.foldl (fun r b => as.zipIdx.foldl (fun r a =>
    let key := accKey rank pos b.2 a.2
    let (x, f) := accWindow m depth a.1 b.1 (if zero then Acc.zero else tget Acc.zero r.g.acc key)
    { g := { r.g with acc := tset Acc.zero r.g.acc key x }, fl := r.fl ||| f }) r) r

/-! ### Group configuration (Tables 6-1 to 6-3) -/

def cfgSpill (w : Word) : Nat := if fld w 30 11 = 0 then 4096 else 32 * fld w 30 11
def cfgK (w : Word) : Nat := fld w 23 7
def cfgSpan (w : Word) : Nat := 2 ^ fld w 20 3
def cfgStat (w : Word) : Bool := bit w.toNat 18
def cfgTopk (w : Word) : Bool := bit w.toNat 19
def cfgYout (w : Word) : Bool := bit w.toNat 17
def cfgWide (w : Word) : Bool := bit w.toNat 16
def cfgDest (w : Word) : Nat := fld w 14 2
def cfgYoff (w : Word) : Nat := fld w 17 17 * 32
def cfgStatOff (w : Word) : Nat := fld w 0 17 * 32

/-- The words that group `g` of the polder reads when it opens (R196): its AGCFG registers. -/
def agcfg (po : Polder) (g i : Nat) : Word := tget (if i = 0 then 0x20000 else 0) po.agcfg (g * 4 + i)

/-- Slots of a group (R199): its array count times its row groups. -/
def groupSlots (g : Group) : Nat := if g.state = 0 then 0 else 2 ^ g.bc * ((g.rows + 7) / 8)

/-- Free slots of the accumulation area (Table 6-4). -/
def freeSlots (po : Polder) : Nat := 256 - (po.groups.map fun e => groupSlots e.2).sum

/-- Bytes of a Y run, of the ROWSTAT records, and of one TOPK record (R216). -/
def yRowBytes (rows : Nat) (wide : Bool) : Nat := alignUp (rows * (if wide then 8 else 4)) 32
def statRun (nq : Nat) : Nat := alignUp (8 * nq) 32
def topkBytes (k : Nat) : Nat := alignUp (8 * k) 32

/-- Bytes of the reduction records. -/
def recordRun (nq : Nat) (c0 : Word) : Nat := (if cfgStat c0 then statRun nq else 0) + (if cfgTopk c0 then nq * topkBytes (cfgK c0) else 0)

/-- R198: the configuration against the shape (nq rows of Y of `yb` bytes each, the class). -/
def cfgBad (c : MCls) (nq yb : Nat) (c0 c2 : Word) : Bool :=
  (fld c0 18 2 ≠ 0 && (c == .int || c == .fp64 || cfgWide c0)) || (cfgTopk c0 && cfgK c0 = 0) ||
    (cfgDest c0 == 1 && ((cfgYout c0 && decide (gristSize < cfgYoff c2 + nq * yb)) ||
      decide (gristSize < cfgStatOff c2 + recordRun nq c0)))

/-- Does a recorded shape equal an operation word's (R193). -/
def shapeIs (g : Group) (w : OpWord) : Bool :=
  g.fmtA == w.fmtA && g.fmtB == w.fmtB && g.prec == w.prec && g.ma == w.ma && g.bc == w.bc && g.cols == w.cols && g.rows == w.rows

/-- A group that opens (R192). -/
def openGroup (w : OpWord) (byInstr : Bool) (c0 c1 c2 : Word) : Group :=
  { Group.idle with state := 1, byInstr := byInstr, fmtA := w.fmtA, fmtB := w.fmtB, prec := w.prec, ma := w.ma, bc := w.bc, cols := w.cols,
                    rows := w.rows, cfg0 := c0, cfg1 := c1, cfg2 := c2 }

def groupAt (po : Polder) (g : Nat) : Group := tget Group.idle po.groups g
def setGroup (s : State) (p g : Nat) (v : Group) : State := modPolder s p fun po => { po with groups := tset Group.idle po.groups g v }

/-- What a stream of a group computes with. -/
def Group.cfg (g : Group) : MatCfg :=
  let pr := (pairing g.fmtA g.fmtB).getD (.mx, 32)
  { cls := pr.1, d := pr.2, prec := g.prec, fa := g.fmtA, fb := g.fmtB, spill := cfgSpill g.cfg0 }

/-- Columns of Y: rows of B in all. -/
def Group.nq (g : Group) : Nat := 2 ^ g.bc * g.cols

/-- Present rows of Y, and present columns, on a position (R182). -/
def Group.qAt (g : Group) (rank pos : Nat) : Nat := (tfind g.colsAt (rank * 16 + pos)).getD g.nq
def Group.pAt (g : Group) (rank pos : Nat) : Nat := (tfind g.rowsAt (rank * 16 + pos)).getD g.rows

/-! ### Closing (R203–R216) -/

/-- T of one element at close on its own position. -/
def closeT (g : Group) (rank pos q p : Nat) : FRes :=
  let x := tget Acc.zero g.acc (accKey rank pos q p)
  if g.cfg.cls == .fp64 then ⟨x.t.toNat, 0⟩ else addSeg g.cfg.cls x.t.toNat x.s.toNat

/-- combine(T) of a span (R209). -/
def spanT (g : Group) (rank pos q p : Nat) : FRes :=
  (span (pos + 1) (cfgSpan g.cfg0 - 1)).foldl (fun a i =>
    let b := closeT g rank i q p
    let r := addTot g.cfg.cls a.v b.v
    ⟨r.v, a.fl ||| b.fl ||| r.fl⟩) (closeT g rank pos q p)

/-- out(T) (R205, R207). -/
def outT (c : MCls) (wide : Bool) (t : FRes) : FRes :=
  if wide then t
  else if c == .int then
    let v := sext 64 t.v
    let w := min (max v (intLo true 32)) (intHi true 32)
    ⟨toBits 32 w, t.fl ||| (if v = w then 0 else 16)⟩
  else
    let r := fConv 0 1 0 false t.v
    ⟨r.v, t.fl ||| r.fl⟩

/-- Y[q][p] delivered by position `pos`. -/
def yAt (g : Group) (rank pos q p : Nat) : FRes := outT g.cfg.cls (cfgWide g.cfg0) (spanT g rank pos q p)

/-- Row q of Y on a position: its present elements with flags. -/
def yRow (g : Group) (rank pos q : Nat) : List FRes := (List.range (g.pAt rank pos)).map fun p => yAt g rank pos q p

/-- The sum of a tile's exponentials added to s with one rounding (R211, R231). -/
def addTile (s : Nat) (es : List Nat) : Nat := (fEnc 1 0 false (es.foldl (fun t e => t.add 0 (fDec 1 e)) (fDec 1 s))).v

/-- FP32 equality of codes. -/
def eqF32 (a b : Nat) : Bool := (fCmp 1 0 a b).v == 1

/-- e of R211 and R231: 1.0 at the maximum, else expf of the rounded difference. -/
def expAt (m y : Nat) : Nat := if eqF32 y m then fOne 1 false else expf (fSub 1 0 y m).v

/-- fmax over a list of FP32 codes, from a start. -/
def maxF32 (z : Nat) (l : List Nat) : Nat := l.foldl (fun a b => fMaxMin true 1 a b) z

/-- rowstat (R211): the pair (m, s), summed in tiles of 8. -/
def rowstat (l : List Nat) : Nat × Nat :=
  match l with
  | [] => (fNan 1, 0)
  | y :: ys =>
    let m := maxF32 y ys
    (m, (chunks 8 ((l.length + 7) / 8) l).foldl (fun s t => addTile s (t.map (expAt m))) 0)

/-- Insert into a list ordered by descending rank, equal ranks by lower column (R212). -/
def rankInsert (x : Nat × Nat) : List (Nat × Nat) → List (Nat × Nat)
  | [] => [x]
  | y :: ys => if fRank32 y.1 < fRank32 x.1 then x :: y :: ys else y :: rankInsert x ys

/-- The K entries of highest rank of values in ascending column, with their positions; padded with NaN at 0xFFFFFFFF. -/
def topkOf (k : Nat) (l : List (Nat × Nat)) : List (Nat × Nat) :=
  let t := (l.foldl (fun acc x => rankInsert x acc) []).take k
  t ++ List.replicate (k - t.length) (fNan 1, 0xFFFFFFFF)

/-- A TOPK record (R216). -/
def topkRec (t : List (Nat × Nat)) : List Byte :=
  let d := (t.map fun x => bytesLE 4 x.1).flatten ++ (t.map fun x => bytesLE 4 x.2).flatten
  slice d 0 (topkBytes t.length)

/-- pos(p) (R212). -/
def posOf (c1 : Word) (rank pos p : Nat) : Nat := (fld c1 32 32 + (16 * rank + pos) * fld c1 0 32 + p) % 2 ^ 32

/-- Write the reduction records of a position (R216); `stat` and `topk` give each present row's record. -/
def writeRecords (s : State) (cd pos off : Nat) (nq : Nat) (stat topk : Option (List (List Byte))) (kb : Nat) : State :=
  let s := match stat with
    | some l => l.zipIdx.foldl (fun s r => gristWrite s cd pos (off + 8 * r.2) r.1) s
    | none => s
  let base := off + (if stat.isSome then statRun nq else 0)
  match topk with
  | some l => l.zipIdx.foldl (fun s r => gristWrite s cd pos (base + kb * r.2) r.1) s
  | none => s

/-- The positions that deliver (R209). -/
def deliverers (g : Group) : List Nat := (List.range 16).filter fun pos => pos % cfgSpan g.cfg0 = 0

/-- The (array, row group) of each tile a position delivers, in order (R214). -/
def tileOrder (g : Group) : List (Nat × Nat) :=
  ((List.range (2 ^ g.bc)).map fun m => (List.range ((g.rows + 7) / 8)).map fun rg => (m, rg)).flatten

/-- Presence and value of the 64 elements of a tile: element (λ / 8, λ % 8) is column j of the array and column p of Y. -/
def tileElems (g : Group) (rank pos m rg : Nat) : List (Bool × Nat) :=
  (List.range 64).map fun l =>
    let q := m * g.cols + l / 8
    let p := 8 * rg + l % 8
    if l / 8 < g.cols && q < g.qAt rank pos && p < g.pAt rank pos then (true, (yAt g rank pos q p).v) else (false, 0)

/-- The wort-queue entries of a tile (R215): one, or the low and high words of a wide tile. -/
def tileEntries (wide : Bool) (t : List (Bool × Nat)) : List WortEntry :=
  let mask := toW (maskOf ((List.range 64).filter fun i => (t.getD i (false, 0)).1))
  let lo := t.map fun x => BitVec.ofNat 32 x.2
  if wide then [{ wide := 1, data := lo, mask := mask }, { wide := 2, data := t.map fun x => BitVec.ofNat 32 (x.2 / 2 ^ 32), mask := mask }]
  else [{ wide := 0, data := lo, mask := mask }]

/-- The wort queue of a position, and its size. -/
def wortSize : Nat := 64
def wortAt (po : Polder) (rank pos : Nat) : List WortEntry := tget [] po.wort (rank * 16 + pos)
def setWort (s : State) (p rank pos : Nat) (l : List WortEntry) : State :=
  modPolder s p fun po => { po with wort := tset [] po.wort (rank * 16 + pos) l }

/-- Push the tiles of a position that fit, from tile number `i` on: the state and the number delivered in all (R215). -/
def pushTiles (s : State) (p : Nat) (g : Group) (rank pos : Nat) : List (Nat × Nat) → Nat → State × Nat
  | [], i => (s, i)
  | (m, rg) :: rest, i =>
    let es := tileEntries (cfgWide g.cfg0) (tileElems g rank pos m rg)
    let q := wortAt (polder s p) rank pos
    if wortSize < q.length + es.length then (s, i)
    else pushTiles (setWort s p rank pos (q ++ es)) p g rank pos rest (i + 1)

/-- Every flag that closing raises (R208). -/
def closeFlags (g : Group) (n : Nat) : Nat :=
  (List.range n).foldl (fun f rank => (deliverers g).foldl (fun f pos => (List.range (g.qAt rank pos)).foldl (fun f q =>
    (yRow g rank pos q).foldl (fun f r => f ||| r.fl) f) f) f) 0

/-- Y and the records of one delivering position written to its grist (R216). -/
def deliverGrist (s : State) (p : Nat) (g : Group) (rank pos : Nat) : State :=
  let cd := cdOfRank s p rank
  let rows := (List.range (g.qAt rank pos)).map fun q => (yRow g rank pos q).map (·.v)
  let w := if cfgWide g.cfg0 then 8 else 4
  let s := if cfgDest g.cfg0 = 1 && cfgYout g.cfg0 then
      rows.zipIdx.foldl (fun s r =>
        gristWrite s cd pos (cfgYoff g.cfg2 + r.2 * yRowBytes g.rows (cfgWide g.cfg0)) ((r.1.map (bytesLE w)).flatten)) s
    else s
  let stat := rows.map fun r => let (m, t) := rowstat r; bytesLE 4 m ++ bytesLE 4 t
  let topk := rows.map fun r => topkRec (topkOf (cfgK g.cfg0) (r.zipIdx.map fun x => (x.1, posOf g.cfg1 rank pos x.2)))
  writeRecords s cd pos (cfgStatOff g.cfg2) (g.qAt rank pos) (if cfgStat g.cfg0 then some stat else none) (if cfgTopk g.cfg0 then some topk else none)
    (topkBytes (cfgK g.cfg0))

/-- The delivering positions of every member. -/
def delivering (s : State) (p : Nat) (g : Group) : List (Nat × Nat) :=
  ((List.range (nMembers s p)).map fun rank => (deliverers g).map fun pos => (rank, pos)).flatten

/-- A CLOSING group delivers (R194, R214–R216): tiles enter the wort queues while they have room; once every position has delivered, Y
and the records are written, the flags are ORed into FPCTL, and the group is IDLE. -/
def closeGroup (s : State) (p gi : Nat) : State :=
  let g := groupAt (polder s p) gi
  if g.state ≠ 2 then s
  else
    let toWort := cfgDest g.cfg0 = 0 && cfgYout g.cfg0
    let (s, sent) := (delivering s p g).foldl (fun acc rp =>
      if toWort then
        let k := rp.1 * 16 + rp.2
        let i := tget 0 g.sent k
        let (s, j) := pushTiles acc.1 p g rp.1 rp.2 ((tileOrder g).drop i) i
        (s, tset 0 acc.2 k j)
      else acc) (s, g.sent)
    if toWort && (delivering s p g).any fun rp => tget 0 sent (rp.1 * 16 + rp.2) < (tileOrder g).length then
      setGroup s p gi { g with sent := sent }
    else
      let s := (delivering s p g).foldl (fun s rp => deliverGrist s p g rp.1 rp.2) s
      wortInt (setGroup (raiseFlags s p (closeFlags g (nMembers s p))) p gi Group.idle) p

/-! ### Matrix instructions (R173–R180, R218) -/

def Bank.empty : Bank := { fmt := 0, cols := 0, depth := 0, elems := [], scales := [] }
def bankKey (rank pos a bank : Nat) : Nat := ((rank * 16 + pos) * 16 + a) * 2 + bank

/-- Every cluster position of every member: rank, position and CD. -/
def allPos (s : State) (p : Nat) : List (Nat × Nat × Nat) :=
  ((members s p).zipIdx.map fun m => (List.range 16).map fun pos => (m.2, pos, m.1)).flatten

/-- MLDS: load the bank of each driven array with its rows of B (R175–R177). -/
def loadBanks (s : State) (p : Nat) (w : OpWord) (eo so : Nat) : State :=
  let rb := w.cols * rowBytes w.fmtB w.depth
  let sb := w.cols * rowBlocks w.fmtB w.depth
  modPolder s p fun po => { po with banks := (allPos s p).foldl (fun t x => (List.range w.n).foldl (fun t m =>
    tset Bank.empty t (bankKey x.1 x.2.1 (w.ma + m) w.bank)
      { fmt := w.fmtB, cols := w.cols, depth := w.depth, elems := gristRead s x.2.2 x.2.1 (eo + m * rb) rb,
        scales := gristRead s x.2.2 x.2.1 (so + m * sb) sb }) t) po.banks }

/-- `old` with the codes of `xs` packed over its first elements (R144, R150). -/
def packOver (old : List Byte) (fmt : Nat) (xs : List Nat) : List Byte :=
  let b := fBits fmt
  let n := b * xs.length
  let len := (n + 7) / 8
  let v := (xs.zipIdx.map fun x => x.1 % 2 ^ b * 2 ^ (b * x.2)).sum
  bytesLE len (v + natLE (slice old 0 len) >>> n <<< n)

/-- The bank of one array after a window that a descriptor loads: steps `lo` on of its columns of B (R177, R254). A column that the position does
not hold leaves free values (log 19). -/
def windowBank (s : State) (fmt cols depth lo : Nat) (rows : List MRow) : Bank :=
  let row := fun (j : Nat) => match rows[j]? with
    | some r => (slice (packOver [] fmt ((r.codes.drop lo).take depth)) 0 (rowBytes fmt depth),
                 ((r.scales.drop (lo / 32)).take (rowBlocks fmt depth)).map (BitVec.ofNat 8))
    | none => (slice (Config.freeBytes (s.free + j)) 0 (rowBytes fmt depth), slice (Config.freeBytes (s.free + j)) 32 (rowBlocks fmt depth))
  let l := (List.range cols).map row
  { fmt := fmt, cols := cols, depth := depth, elems := (l.map (·.1)).flatten, scales := (l.map (·.2)).flatten }

/-- The banks of a position after a descriptor's windows over `k` steps: the first in the bank of the operation word, each later one in the
other (log 19), so the last two windows stay. -/
def loadWindows (s : State) (p : Nat) (w : OpWord) (k rank pos : Nat) (rows : List MRow) : State :=
  let n := (k + w.depth - 1) / w.depth
  let s' := modPolder s p fun po => { po with banks := (span (n - 2) (min n 2)).foldl (fun t wi => (List.range w.n).foldl (fun t m =>
    tset Bank.empty t (bankKey rank pos (w.ma + m) ((w.bank + wi) % 2))
      (windowBank { s with free := s.free + (wi * 8 + m) * 64 } w.fmtB w.cols (min w.depth (k - wi * w.depth)) (wi * w.depth)
        ((rows.drop (m * w.cols)).take w.cols))) t) po.banks }
  if w.n * w.cols ≤ rows.length then s' else { s' with free := s'.free + n * 512 }

/-- The columns of B that a bank holds. -/
def bankRows (b : Bank) : List MRow :=
  (List.range b.cols).map fun j =>
    mkRow b.fmt b.depth (slice b.elems (j * rowBytes b.fmt b.depth) (rowBytes b.fmt b.depth))
      (slice b.scales (j * rowBlocks b.fmt b.depth) (rowBlocks b.fmt b.depth))

/-- Does a bank of some driven array not hold what the operation word names (R177). -/
def banksBad (s : State) (p : Nat) (w : OpWord) : Bool :=
  let po := polder s p
  (allPos s p).any fun x => (List.range w.n).any fun m =>
    let b := tget Bank.empty po.banks (bankKey x.1 x.2.1 (w.ma + m) w.bank)
    b.cols ≠ w.cols || b.fmt ≠ w.fmtB || b.depth ≠ w.depth

/-- MSTREAM: stream rows of A through the banks into the group, on every position. -/
def streamAll (s : State) (p : Nat) (w : OpWord) (eo so : Nat) (g : Group) : MatRun :=
  let po := polder s p
  (allPos s p).foldl (fun r x =>
    let bs := ((List.range w.n).map fun m => bankRows (tget Bank.empty po.banks (bankKey x.1 x.2.1 (w.ma + m) w.bank))).flatten
    streamPos g.cfg w.depth w.zero x.1 x.2.1 r (gristRows s x.2.2 x.2.1 w.fmtA w.depth w.rows eo so) bs) { g := g, fl := 0 }

/-- R198 at the opening of a group, or where a stream gives it its ROWS. -/
def openBad (po : Polder) (g : Group) : Bool := cfgBad g.cfg.cls g.nq (yRowBytes g.rows (cfgWide g.cfg0)) g.cfg0 g.cfg2 || decide (freeSlots po < groupSlots g)

/-- The group of an operation word: the OPEN one, or a new one that reads AGCFG (R192, R196). -/
def groupNamed (po : Polder) (w : OpWord) : Group :=
  let g := groupAt po w.grp
  if g.state = 1 then g else openGroup w true (agcfg po w.grp 0) (agcfg po w.grp 1) (agcfg po w.grp 2)

/-- The group that MSTREAM or MMA8 writes: an OPEN one of the same shape (R193), or one that opens, or one that an MLDS opened and that now
takes its ROWS (log 16), under R198; none traps. -/
def groupFor (po : Polder) (w : OpWord) : Option Group :=
  let g := groupNamed po w
  let g' := { g with rows := w.rows }
  if (groupAt po w.grp).state = 1 && g.rows ≠ 0 then (if shapeIs g w then some g else none)
  else if !shapeIs g' w || openBad po g' then none else some g'

/-- The group that MLDS names (R192, R193): MLDS ignores ROWS, so a group that it opens has none yet and an OPEN one keeps its own (log 16);
none traps. -/
def groupLds (po : Polder) (w : OpWord) : Option Group :=
  let g := groupNamed po w
  if (groupAt po w.grp).state = 1 then (if shapeIs { g with rows := w.rows } w then some g else none)
  else if openBad po { g with rows := 0 } then none else some { g with rows := 0 }

/-- The part of MSTREAM and MMA8 that reaches the group, whose elements lie in every position's cask. -/
def streamInto (s : State) (p : Nat) (w : OpWord) (aeo aso : Nat) (g : Group) : State :=
  let r := streamAll s p w aeo aso g
  let s := (allPos s p).foldl (fun s x => markWritten s x.2.2 x.2.1) s
  retire (raiseFlags (setGroup s p w.grp { r.g with state := if w.close then 2 else 1 }) p r.fl) p

/-- Does a CLOSING group have Y or records to write among `n` grist bytes: their readers wait for it (R179, R361). -/
def closingWrites (po : Polder) (ga n : Nat) : Bool :=
  po.groups.any fun e =>
    let g := e.2
    g.state == 2 && (overlaps ga n (cfgStatOff g.cfg2) (recordRun g.nq g.cfg0) ||
      (cfgDest g.cfg0 == 1 && cfgYout g.cfg0 && overlaps ga n (cfgYoff g.cfg2) (g.nq * yRowBytes g.rows (cfgWide g.cfg0))))

/-- An operand whose rows or scale bytes an earlier matrix instruction has still to write (R179, R187). -/
def opndWaits (po : Polder) (fmt depth rows eo so : Nat) : Bool :=
  closingWrites po eo (rows * rowBytes fmt depth) || closingWrites po so (rows * rowBlocks fmt depth)

/-- A grist operand address (R174). -/
def opndElem (v : Word) : Nat := fld v 0 32
def opndScale (v : Word) : Nat := fld v 32 32

/-- MLDS. It opens the group that it names (R192) and ignores ROWS (log 16); one that names a CLOSING group waits (R195). -/
def doMlds (p : Nat) (gm gb : Reg) (iw : Word32) (s : State) : State :=
  let c := core s p
  let w := { opWord (gpr c gm) with rows := 1 }
  let b := gpr c gb
  let po := polder s p
  if po.run.isSome || opWordBad po w || runBad w.fmtB w.depth (w.n * w.cols) (opndElem b) (opndScale b) then raiseExc s p cResop 0 0 false iw
  else if (groupAt po w.grp).state = 2 || opndWaits po w.fmtB w.depth (w.n * w.cols) (opndElem b) (opndScale b) then s
  else match groupLds po w with
    | none => raiseExc s p cResop 0 0 false iw
    | some g => castInstr p (fun s => retire (setGroup (loadBanks s p w (opndElem b) (opndScale b)) p w.grp g) p) s

/-- MSTREAM; one that names a CLOSING group waits (R195). -/
def doMstream (p : Nat) (gm ga : Reg) (iw : Word32) (s : State) : State :=
  let c := core s p
  let w := opWord (gpr c gm)
  let a := gpr c ga
  let po := polder s p
  if po.run.isSome || opWordBad po w || runBad w.fmtA w.depth w.rows (opndElem a) (opndScale a) || banksBad s p w then
    raiseExc s p cResop 0 0 false iw
  else if (groupAt po w.grp).state = 2 || opndWaits po w.fmtA w.depth w.rows (opndElem a) (opndScale a) then s
  else match groupFor po w with
    | none => raiseExc s p cResop 0 0 false iw
    | some g => castInstr p (fun s => streamInto s p w (opndElem a) (opndScale a) g) s

/-- MMA8: MLDS and MSTREAM in one, for at most 8 rows and one depth group. -/
def doMma8 (p : Nat) (gm ga gb : Reg) (iw : Word32) (s : State) : State :=
  let c := core s p
  let w := opWord (gpr c gm)
  let a := gpr c ga
  let b := gpr c gb
  let po := polder s p
  let d := ((pairing w.fmtA w.fmtB).map (·.2)).getD 0
  if po.run.isSome || opWordBad po w || 8 < w.rows || d < w.depth || runBad w.fmtA w.depth w.rows (opndElem a) (opndScale a) ||
      runBad w.fmtB w.depth (w.n * w.cols) (opndElem b) (opndScale b) then raiseExc s p cResop 0 0 false iw
  else if (groupAt po w.grp).state = 2 || opndWaits po w.fmtA w.depth w.rows (opndElem a) (opndScale a) ||
      opndWaits po w.fmtB w.depth (w.n * w.cols) (opndElem b) (opndScale b) then s
  else match groupFor po w with
    | none => raiseExc s p cResop 0 0 false iw
    | some g => castInstr p (fun s => streamInto (loadBanks s p w (opndElem b) (opndScale b)) p w (opndElem a) (opndScale a) g) s

/-! ### Grist and wort-queue instructions of the vector extension (R360–R362, R372–R375) -/

/-- Where element e of a VLDG or VSTG lies: member rank, position and grist offset (R360). -/
def VCtx.gristOf (x : VCtx) (ga e : Nat) : Nat × Nat × Nat :=
  let lane := e % x.L
  (lane / 1024, lane % 1024 / 64, ga + (64 * (e / x.L) + lane % 64) * x.sew / 8)

/-- The reserved-opcode conditions of VLDG and VSTG (R345, R360, R362). -/
def gristBad (x : VCtx) (o : VOp) : Bool :=
  let ga := (gpr x.c o.va).toNat
  o.s || vmBad .allowed o || o.vb ≠ 0 || x.po.run.isSome || x.mew ≠ x.sew || ga % (x.sew / 8) ≠ 0 ||
    decide (gristSize < ga + 64 * ((x.c.vl + x.L - 1) / x.L) * x.sew / 8)

/-- A VLDG or VSTG waits for a CLOSING group whose Y or records lie in the bytes it names (R361). -/
def gristWaits (x : VCtx) (o : VOp) : Bool := closingWrites x.po (gpr x.c o.va).toNat (64 * ((x.c.vl + x.L - 1) / x.L) * x.sew / 8)

/-- VLDG and VSTG. -/
def vGrist (p : Nat) (v : VI) (o : VOp) (store : Bool) (s : State) : State :=
  let x := vctx s p
  let ga := (gpr x.c o.va).toNat
  if v.mode ≠ .run && gristBad x o then raiseExc s p cResop 0 0 false v.w
  else if v.mode ≠ .run && gristWaits x o then s
  else vGo p v (fun s =>
    if store then
      (x.active o).foldl (fun s e =>
        let (r, pos, off) := x.gristOf ga e
        gristWrite s (cdOfRank s p r) pos off (bytesLE (x.sew / 8) (x.get o.vd e))) s
    else
      putElems s p x o.vd ((x.active o).map fun e =>
        let (r, pos, off) := x.gristOf ga e
        (e, natLE (gristRead s (cdOfRank s p r) pos off (x.sew / 8))))) s

/-- The entries one VPOPW takes from each queue. -/
def popNeeds (x : VCtx) : Nat := if x.k = 3 then 2 else 1

/-- Every queue of the polder with its rank and position. -/
def wortQueues (s : State) (p : Nat) : List (Nat × Nat × List WortEntry) :=
  (allPos s p).map fun x => (x.1, x.2.1, wortAt (polder s p) x.1 x.2.1)

/-- Does the entry at the head of some queue not have the width of SEW (R375). -/
def popMismatch (s : State) (p : Nat) (x : VCtx) : Bool :=
  (wortQueues s p).any fun q => match q.2.2.head? with
    | some e => !((x.k == 2 && e.wide == 0) || (x.k == 3 && e.wide == 1))
    | none => false

/-- Can every position pop (R372). -/
def popReady (s : State) (p : Nat) (x : VCtx) : Bool := (wortQueues s p).all fun q => popNeeds x ≤ q.2.2.length

/-- The value of element i of a popped tile. -/
def poppedElem (es : List WortEntry) (i : Nat) : Nat :=
  (es.zipIdx.map fun e => (e.1.data.getD i 0).toNat * 2 ^ (32 * e.2)).sum

/-- Pop one tile per position: elements 0 to L − 1 and the presence mask (R372). -/
def popTiles (s : State) (p : Nat) (x : VCtx) (vd : Reg) (mk : Nat) : State :=
  (wortQueues s p).foldl (fun s q =>
    let es := q.2.2.take (popNeeds x)
    let base := 1024 * q.1 + 64 * q.2.1
    let here := fun (i : Nat) => (es.headD { wide := 0, data := [], mask := 0 }).mask.getLsbD i
    let s := putElems s p x vd ((List.range 64).map fun i => (base + i, if here i then poppedElem es i else 0))
    let s := putMask s p mk ((List.range 64).map fun i => (base + i, here i))
    setWort s p q.1 q.2.1 (q.2.2.drop (popNeeds x))) s

/-- VPOPW: it waits until every position can pop. -/
def doVpopw (p : Nat) (o : VOp) (v : VI) (s : State) : State :=
  let x := vctx s p
  if o.s || vmBad .must o || o.va ≠ 0 || o.vb ≠ 0 || x.po.run.isSome then raiseExc s p cResop 0 0 false v.w
  else if popMismatch s p x then violate s p vWortSew false 0xFFFFFFFF 0 v.w
  else if !popReady s p x then s
  else castInstr p (fun s => retire (popTiles s p x o.vd o.mreg.toNat) p) s

/-- VPOPW.NB (R373). -/
def doVpopwNb (p : Nat) (o : VOp) (v : VI) (s : State) : State :=
  let x := vctx s p
  if o.s || vmBad .must o || o.va ≠ 0 || x.po.run.isSome then raiseExc s p cResop 0 0 false v.w
  else if !popReady s p x then castInstr p (fun s => retire (putReg s p o.vb 0) p) s
  else if popMismatch s p x then violate s p vWortSew false 0xFFFFFFFF 0 v.w
  else castInstr p (fun s => retire (putReg (popTiles s p x o.vd o.mreg.toNat) p o.vb 1) p) s

/-- The entries that VPUSHW forms for one position. -/
def pushEntries (x : VCtx) (o : VOp) (base : Nat) : List WortEntry :=
  tileEntries (x.k == 3) ((List.range 64).map fun i => (mGet x.po o.mreg.toNat (base + i), x.get o.va (base + i)))

/-- VPUSHW (R374): at SEW 32 or 64; with VL 0 it changes nothing (R343). It waits for room and for groups that deliver to the wort queue. A width that
no entry has traps (log 17). -/
def doVpushw (p : Nat) (o : VOp) (v : VI) (s : State) : State :=
  let x := vctx s p
  if o.s || vmBad .must o || o.vd ≠ 0 || o.vb ≠ 0 || x.po.run.isSome || x.k < 2 then raiseExc s p cResop 0 0 false v.w
  else if x.c.vl = 0 then castInstr p (fun s => retire s p) s
  else if (wortQueues s p).any (fun q => wortSize < q.2.2.length + popNeeds x) || x.po.groups.any (fun e => cfgDest e.2.cfg0 == 0) then s
  else
    castInstr p (fun s =>
      let s := (wortQueues s p).foldl (fun s q => setWort s p q.1 q.2.1 (q.2.2 ++ pushEntries x o (1024 * q.1 + 64 * q.2.1))) s
      retire (wortInt s p) p) s

/-! ### The instructions -/

/-- MLDS (R175). -/
def execMlds (p : Nat) (gm gb : Reg) (s : State) : Result := done (issue s p (doMlds p gm gb (wR 0x30 gm 0 gb 1)))

/-- MSTREAM (R175). -/
def execMstream (p : Nat) (gm ga : Reg) (s : State) : Result := done (issue s p (doMstream p gm ga (wR 0x30 gm ga 0 2)))

/-- MMA8 (R175). -/
def execMma8 (p : Nat) (gm ga gb : Reg) (s : State) : Result := done (issue s p (doMma8 p gm ga gb (wR 0x30 gm ga gb 3)))

/-- ACCUMULATION_GROUP_CLOSE (R194). -/
def execAccumulationGroupClose (p g : Nat) (s : State) : Result := done (if named s p && g < 16 then closeGroup s p g else s)

/-- VLDG (R360). -/
def vldgBody (p : Nat) (o : VOp) (m : VMode) : State → State :=
  vGrist p ⟨0x3B, 4, o, m⟩ o false

/-- VLDG (R360). -/
def execVldg (p : Nat) (o : VOp) (s : State) : Result := done (vIssue p (vldgBody p o) s)

/-- VSTG (R360). -/
def vstgBody (p : Nat) (o : VOp) (m : VMode) : State → State :=
  vGrist p ⟨0x3B, 0xC, o, m⟩ o true

/-- VSTG (R360). -/
def execVstg (p : Nat) (o : VOp) (s : State) : Result := done (vIssue p (vstgBody p o) s)

/-- VPOPW (R372). -/
def execVpopw (p : Nat) (o : VOp) (s : State) : Result :=
  done (vAlone p (doVpopw p o ⟨0x3E, 0, o, .issue⟩) s)

/-- VPOPW_NB (R373). -/
def execVpopwNb (p : Nat) (o : VOp) (s : State) : Result :=
  done (vAlone p (doVpopwNb p o ⟨0x3E, 1, o, .issue⟩) s)

/-- VPUSHW (R374). -/
def execVpushw (p : Nat) (o : VOp) (s : State) : Result :=
  done (vAlone p (doVpushw p o ⟨0x3E, 2, o, .issue⟩) s)

end Sys2Proof.Machine
end

