-- ==== Sys2Proof/Machine/Desc.lean ====
section
/-! DEFINITION. Descriptors I (chapter 8): the recipe image, the issue of a descriptor (R265–R276), tensors and their shares (R260,
R261), counts and indices (R266, R269), reads and writes of a descriptor, and its completion (R98). A descriptor performs its whole effect
at the step that issues it: every read first, then every target is translated and checked, then the writes (log 20). -/

namespace Sys2Proof.Machine

/-! ### The image (R248) -/

/-- Physical address of a byte of an admitted image (R249). -/
def imgPa (rc : Recipe) (off : Nat) : Nat :=
  let v := rc.va % 4096 + off
  rc.pages.getD (v / 4096) 0 + v % 4096

/-- Bytes of an image, as its memory holds them. -/
def imgPeek (s : State) (rc : Recipe) (off n : Nat) : List Byte := (List.range n).map fun k => mget s.mem (imgPa rc (off + k))

def descOff (i : Nat) : Nat := 64 + 64 * i
def extOff (rc : Recipe) (e : Nat) : Nat := 64 + 64 * rc.descCount + 64 * e
def cfgOff (rc : Recipe) (k : Nat) : Nat := 64 + 64 * (rc.descCount + rc.extCount) + 32 * k

/-- Descriptor `i` of an image. -/
def descAt (s : State) (rc : Recipe) (i : Nat) : List Byte := imgPeek s rc (descOff i) 64

/-! ### Common fields (Table 8-2) -/

def dKind (d : List Byte) : Nat := leAt d 0 1
def dFlag (d : List Byte) (n : Nat) : Bool := bit (leAt d 1 1) n
def dExt (d : List Byte) : Bool := dFlag d 0
def dOrdered (d : List Byte) : Bool := dFlag d 1
def dExtIdx (d : List Byte) : Nat := leAt d 2 2
def dContrib (d : List Byte) : Nat := bits (leAt d 4 1) 0 5
def dInd (d : List Byte) : Nat := leAt d 0x18 8
def dLenV (d : List Byte) : Bool := bit (dInd d) 12
def dLenMode (d : List Byte) : Nat := bits (dInd d) 13 1
def dLenPw (d : List Byte) : Nat := bits (dInd d) 0 12
def dIdxV (d : List Byte) : Bool := bit (dInd d) 28
def dIdxPw (d : List Byte) : Nat := bits (dInd d) 16 12
def dIdxOp (d : List Byte) : Nat := bits (dInd d) 29 2
def dIdxRange (d : List Byte) : Nat := bits (dInd d) 32 16

/-- The body word at an offset. -/
def dWord (d : List Byte) (off : Nat) : Nat := leAt d off 8
def dArg0 (d : List Byte) : Nat := dWord d 0x28
def dArg1 (d : List Byte) : Nat := dWord d 0x30
def dCount (d : List Byte) : Nat := leAt d 0x38 4
/-- TX, TY, TZ. -/
def dTensor (d : List Byte) (k : Nat) : Nat := bits (dWord d 0x20) (12 * k) 12

/-- Queue of a kind (Table 8-3): 0 matrix, 1 vector, 2 mover, 3 collective. -/
def queueOf (kind : Nat) : Nat := kind / 16

/-- Predecessors of descriptor `i`. -/
def dPreds (d : List Byte) (i : Nat) : List Nat :=
  ((List.range 4).map fun j => leAt d (8 + 2 * j) 2).filterMap fun k => if k = 0 then none else some (i - k)

/-- The waits of a descriptor: sluice and CLR. -/
def dWaits (d : List Byte) : List (Nat × Bool) :=
  (List.range 2).filterMap fun j =>
    let f := leAt d (0x10 + 2 * j) 2
    if bit f 15 then some (bits f 0 12, dFlag d (2 + j)) else none

/-- The sluices a descriptor sets. -/
def dSets (d : List Byte) : List Nat :=
  (List.range 2).filterMap fun j =>
    let f := leAt d (0x14 + 2 * j) 2
    if bit f 15 then some (bits f 0 12) else none

/-! ### Issue (R271–R276) -/

/-- The state of descriptor `i` in an invocation; none where it has not issued. -/
def descState (inv : Invocation) (i : Nat) : Option DescState := tfind inv.descs i
def descDone (inv : Invocation) (i : Nat) : Bool := descState inv i == some .complete

/-- A descriptor in execution: issued and not yet complete or ended (R276). -/
def inExec (st : DescState) : Bool := st == .inExec || st == .waitFault || st == .waitWake

/-- Has descriptor `i` issued. -/
def issued (inv : Invocation) (i : Nat) : Bool := (descState inv i).any (· ≠ .reading)

/-- A descriptor's requester. -/
def isDesc (p i : Nat) (r : Requester) : Bool := r == .descriptor p i || r == .descUpdate p i

/-- Does a request of descriptor `i` wait at an open not-present fault. -/
def atFault (s : State) (p i : Nat) : Bool := s.xlat.faults.any fun f => f.waiters.any fun w => isDesc p i w.req

/-- Is a queue frozen, or a mover that its descriptors need. -/
def queueFrozen (po : Polder) (q : Nat) : Bool := po.frzQueue.contains q || (q == 2 && !po.frzMover.isEmpty)

/-- Is the wait on a sluice satisfied: an internal one once every setter has completed (R271), an external one while it reads 1 (R272). -/
def waitOk (s : State) (p : Nat) (rc : Recipe) (inv : Invocation) (n : Nat) : Bool :=
  if rc.internal.contains n then
    (List.range rc.descCount).all fun j => !(dSets (descAt s rc j)).contains n || descDone inv j
  else sluice (polder s p) n

/-- Does a group that a matrix instruction opened hold the sequencer back (R218). -/
def groupHold (po : Polder) : Bool := po.groups.any fun e => e.2.byInstr && e.2.state ≠ 0

/-- A record that waits for space holds back the descriptors of the polder whose work produced it (R517). -/
def descWaits (s : State) (p : Nat) : Bool := s.port.evq.wait.any fun r => r.ls.pol == p && !r.ls.ext

/-- May descriptor `i`, of bytes `d`, issue (R275, R276)? Once its waits have been satisfied and its words are being read, they are not judged
again. -/
def mayIssue (s : State) (p : Nat) (rc : Recipe) (inv : Invocation) (i : Nat) (d : List Byte) : Bool :=
  let po := polder s p
  let q := queueOf (dKind d)
  let sameQueue := fun (j : Nat) => queueOf (dKind (descAt s rc j)) == q
  let again := descState inv i == some .reading
  decide (i < rc.descCount) && !inv.abort && inv.err.isNone && !issued inv i && !atFault s p i && !groupHold po && !descWaits s p &&
    !queueFrozen po q && ((List.range i).all fun j => !sameQueue j || issued inv j) &&
    (again || (((dPreds d i).all fun j => descDone inv j) && (dWaits d).all fun w => waitOk s p rc inv w.1)) &&
    decide ((inv.descs.filter fun e => inExec e.2 && sameQueue e.1).length < 64)

/-- The running invocation with its recipe. -/
def running (s : State) (p : Nat) : Option (Invocation × Recipe) :=
  match (polder s p).run with
  | none => none
  | some inv => if halted s then none else (recipeAt s p inv.req.slot).map fun rc => (inv, rc)

def modRun (s : State) (p : Nat) (f : Invocation → Invocation) : State := modPolder s p fun po => { po with run := po.run.map f }
def setDesc (s : State) (p i : Nat) (st : DescState) : State := modRun s p fun inv => { inv with descs := tins inv.descs i st }

/-- A sluice becomes 0; the running invocation keeps the moment, from which a wait on it is measured anew (R295). -/
def clearSluice (s : State) (p n : Nat) : State :=
  let s := if sluice (polder s p) n then modRun s p fun v => { v with headSince := tins v.headSince (16 + n) s.dt } else s
  modPolder s p fun po => { po with sluices := tset false po.sluices n false }

/-- The waits of a descriptor are satisfied: those with CLR clear their external sluices (R272), once. -/
def satisfy (s : State) (p i : Nat) (rc : Recipe) (inv : Invocation) (d : List Byte) : State :=
  if (descState inv i).isSome then s
  else (((dWaits d).filter fun w => w.2 && !rc.internal.contains w.1).map (·.1)).foldl (fun s n => clearSluice s p n) s

/-- What issuing does besides the descriptor's own work: the first issue of an invocation is its boundary (R48) and its start (Table
15-7), the DT is kept (R522), and the queue has a new head (R295). -/
def beginIssue (s : State) (p i : Nat) (inv : Invocation) (d : List Byte) : State :=
  let s := if inv.begun then s else modRun (applyIB s p) p fun v => { v with begun := true, dtStart := s.dt }
  let q := queueOf (dKind d)
  modRun s p fun v => { v with issueDt := tins v.issueDt i s.dt, headSince := tins v.headSince q s.dt, stalled := v.stalled.filter fun k => k / 8192 ≠ q }

/-! ### Positions and their wake (R291, R294) -/

/-- The positions of a member rank that a descriptor uses. -/
def usedAt (rc : Recipe) (i rank : Nat) : List Nat := (List.range 16).filter fun q => (tget 0 rc.posUsed i).getLsbD (rank * 16 + q)

/-- Is every position that a descriptor uses Ready on every member. -/
def posReady (s : State) (p : Nat) (rc : Recipe) (i : Nat) : Bool :=
  (members s p).zipIdx.all fun m => (usedAt rc i m.2).all fun q => tget .off (cdAt s m.1).pos q == .ready

/-- A sleeping position begins to wake; the kiln pass releases what it tests there (R549). -/
def wakeAt (s : State) (cd q : Nat) : State :=
  let m := spareMap s cd
  let s := kilnRelease s fun u => u.die == cd && (((u.type == 1 || u.type == 13) && (if u.type = 13 then u.index / 16 else u.index) == m.posCl.getD q 0) ||
    (u.type == 2 && u.index / 65 == q) || (u.type == 3 && u.index / 17 == q))
  modCd s cd fun c => { c with pos := match tget .off c.pos q with
    | .off => tset .off c.pos q .wakingOff
    | .sleep => tset .off c.pos q .wakingSleep
    | _ => c.pos }

/-- The positions that a descriptor has issued to begin to wake where they are not Ready. -/
def wakeUsed (s : State) (p : Nat) (rc : Recipe) (i : Nat) : State :=
  (members s p).zipIdx.foldl (fun s m => (usedAt rc i m.2).foldl (fun s q => wakeAt s m.1 q) s) s

/-! ### Performing a descriptor -/

/-- Why a descriptor did not perform: a not-present wait, a violation of its queue or of the mover of a rank, a class 1 error, a lost
polder, a resource it waits for, a walk that takes its miss (R440), or tags of an owner (R480). -/
inductive DStop where
  | wait (q : XlatReq) (pa lvl : Nat)
  | violate (vcode addr sub : Nat) (mover : Option Nat)
  | error (r : Record)
  | lost
  | hold
  | join (q : XlatReq)
  | stall (o : Nat) (w : Waiter)
  deriving DecidableEq, Repr

/-- A computation of a descriptor over the state, which a stop ends. -/
abbrev DM (α : Type) := ExceptT DStop (StateM State) α

/-- A computation from a function of the state. -/
def dm {α : Type} (f : State → Except DStop α × State) : DM α := f

/-- What a descriptor knows while it performs: its polder, index and bytes, its extension, the recipe, the parameter block's address,
the sub-operation, and whether its accesses are a mover's. -/
structure DCx where
  p : Nat
  i : Nat
  rc : Recipe
  pb : Nat
  d : List Byte
  ext : List Byte
  sub : Nat
  mv : Bool
  deriving DecidableEq, Repr

/-- What a descriptor that performed answers: its flags, and whether every count was 0 (R268). -/
structure DRes where
  fl : Nat
  idle : Bool
  deriving DecidableEq, Repr

/-- The mover that a memory violation of the descriptor freezes (Table 11-15). -/
def DCx.mover (c : DCx) (rank : Nat) : Option Nat := if c.mv then some rank else none

/-- A run-time invalid descriptor (R267). -/
def invalid {α : Type} (c : DCx) : DM α := throw (.violate vDesc 0 c.sub none)

/-- The context of a descriptor's requests from a member (Table 2-7 class 3). -/
def dCtx (s : State) (c : DCx) (rank : Nat) : MemCtx :=
  let cd := cdOfRank s c.p rank
  { src := cd, ls := lsDesc s c.p c.i c.sub cd, cls := some 3, p := c.p, req := .descriptor c.p c.i }

/-- A translation request of a descriptor in the polder space (R430). -/
def dXreq (s : State) (c : DCx) (rank va access : Nat) : XlatReq :=
  { cd := cdOfRank s c.p rank, p := c.p, space := 0, asid := 0, va := va, access := access, user := false, req := .descriptor c.p c.i,
    cls := 3 }

/-- A failed translation of a descriptor (R444, R451, R452, R33). -/
def dStopOf (s : State) (c : DCx) (rank va access : Nat) : XRes → DStop
  | .ok _ => .hold
  | .busy => .join (dXreq s c rank va access)
  | .perm => .violate vPerm va c.sub (c.mover rank)
  | .outside => .violate vOutside va c.sub (c.mover rank)
  | .absent pa lvl => .wait (dXreq s c rank va access) pa lvl
  | .failed pa => .error (walkRec s (dCtx s c rank).ls 1 pa)

/-- Translate a virtual span, atom by atom. -/
def dXlat (c : DCx) (rank va len access : Nat) : DM (List (Nat × Nat)) :=
  dm fun s => match translateAll s (dXreq s c rank va access) (pieces va len) with
    | (.ok l, s) => (.ok l, s)
    | (.error (r, a), s) => (.error (dStopOf s c rank a access r), s)

/-- The stop of a failed memory access of a kind (Table 14-4). -/
def memStop (s : State) (m : MemCtx) (kind : Nat) : MemErr → DStop
  | .uncorr cw => .error (failRec s m 1 kind cw)
  | .lost => .lost

/-- A home holds the accesses to a frame or row that is being copied (R408). -/
def notHeld (ps : List (Nat × Nat)) : DM Unit :=
  dm fun s => (if ps.any fun x => frameHeld s x.1 then .error .hold else .ok (), s)

/-- Read physical pieces. -/
def dReadPa (c : DCx) (rank : Nat) (ps : List (Nat × Nat)) : DM (List Byte) := do
  notHeld ps
  dm fun s =>
    let m := dCtx s c rank
    match readSpan s m ps with
    | (.ok d, s) => (.ok d, s)
    | (.error e, s) => (.error (memStop s m 0 e), s)

/-- Read virtual memory. -/
def dRead (c : DCx) (rank va len : Nat) : DM (List Byte) := do
  let ps ← dXlat c rank va len 1
  dReadPa c rank ps

/-- Read bytes of the admitted image: the sequencer's fetch (R249). -/
def dImage (c : DCx) (off n : Nat) : DM (List Byte) := dReadPa c 0 (pieces (imgPa c.rc off) n)

/-- Parameter word `k`, read once, at issue, by the lead's sequencer (R264, R265). -/
def pword (c : DCx) (k : Nat) : DM Nat := do
  let s ← get
  match (polder s c.p).run.bind fun inv => tfind inv.words (c.i * 8192 + k) with
  | some w => pure w.toNat
  | none => do
    let d ← dRead { c with mv := false } (rankOf s c.p (leadOf s c.p)) (c.pb + 8 * k) 8
    modify fun s => modRun s c.p fun inv => { inv with words := tins inv.words (c.i * 8192 + k) (toW (natLE d)) }
    pure (natLE d)

/-! ### Tensors (Table 8-7) -/

/-- The fields of a tensor-table entry. -/
structure Tensor where
  addr : Nat
  saddr : Nat
  rows : Nat
  cols : Nat
  pitch : Nat
  fmt : Nat
  loc : Nat
  dist : Nat
  share : Nat
  deriving DecidableEq, Repr

def tensorOf (e : TensorEntry) : Tensor :=
  { addr := fld e.w0 0 48, saddr := fld e.w1 0 48, rows := fld e.w2 0 32, cols := fld e.w2 32 32, pitch := fld e.w3 0 32,
    fmt := fld e.w3 32 4, loc := fld e.w3 36 2, dist := fld e.w3 38 2, share := fld e.w3 40 24 }

def ttEmpty : TensorEntry := { w0 := 0, w1 := 0, w2 := 0, w3 := 0 }

/-- The tensor of an entry. -/
def tensorAt (po : Polder) (idx : Nat) : Tensor := tensorOf (tget ttEmpty po.tt idx)

/-- The rows a position addresses (R261): the first, and how many it holds. -/
def shareOf (t : Tensor) (rank pos : Nat) : Nat × Nat :=
  if t.loc = 2 || t.dist = 0 then (0, t.rows)
  else
    let first := (if t.dist = 1 then 16 * rank + pos else rank) * t.share
    (first, min t.share (t.rows - first))

/-- Bytes of an element row: a row of an MX format is stored to a multiple of 32 elements (R151), any other packed (R144). -/
def rowLen (fmt cols : Nat) : Nat := if fIsMx fmt then alignUp cols 32 * fBits fmt / 8 else (cols * fBits fmt + 7) / 8
def Tensor.rowBytes (t : Tensor) : Nat := rowLen t.fmt t.cols
/-- Scale bytes of a row (R149). -/
def blocksOf (fmt cols : Nat) : Nat := if fIsMx fmt then (cols + 31) / 32 else 0
def Tensor.scaleBytes (t : Tensor) : Nat := blocksOf t.fmt t.cols

/-- The row of a tensor that a share's row is; one beyond the share is run-time invalid (R261). -/
def rowIn (c : DCx) (t : Tensor) (rank pos row : Nat) : DM Nat :=
  let (first, n) := shareOf t rank pos
  if row < n then pure (first + row) else invalid c

/-- `n` bytes at offset `off` of a tensor's row: its elements, or its scale bytes. -/
def dRowPart (c : DCx) (t : Tensor) (rank pos g : Nat) (scale : Bool) (off n : Nat) : DM (List Byte) := do
  let base := if scale then t.saddr else t.addr
  let at_ := (if scale then g * t.scaleBytes else g * t.pitch) + off
  if t.loc = 2 then
    let s ← get
    pure (gristRead s (cdOfRank s c.p rank) pos (base * 32 + at_) n)
  else if t.loc = 1 then dRead c rank (base + at_) n
  else invalid c

/-- A row's element and scale bytes. -/
def dRow (c : DCx) (t : Tensor) (rank pos row : Nat) : DM (List Byte × List Byte) := do
  let g ← rowIn c t rank pos row
  let el ← dRowPart c t rank pos g false 0 t.rowBytes
  let sc ← dRowPart c t rank pos g true 0 t.scaleBytes
  pure (el, sc)

/-- Rows 0 to n − 1 of a share. -/
def dRows (c : DCx) (t : Tensor) (rank pos n : Nat) : DM (List (List Byte × List Byte)) :=
  (List.range n).mapM (dRow c t rank pos)

/-- `n` bytes at `off` of a share taken as one run of its rows' element bytes. -/
def dBytes (c : DCx) (t : Tensor) (rank pos off n : Nat) : DM (List Byte) := do
  let rb := max 1 t.rowBytes
  let r0 := off / rb
  let rows ← (span r0 ((off + n + rb - 1) / rb - r0)).mapM fun r => do
    let g ← rowIn c t rank pos r
    dRowPart c t rank pos g false 0 rb
  pure (slice rows.flatten (off - r0 * rb) n)

/-- A row's elements as operand codes. -/
def operandRow (t : Tensor) (r : List Byte × List Byte) : MRow := mkRow t.fmt t.cols r.1 r.2

/-! ### Writes -/

/-- A write a descriptor has computed: to virtual memory, grist, a host buffer, token records among them, or a sluice that it sets. -/
inductive DWr where
  | mem (rank va : Nat) (data : List Byte)
  | grist (rank pos off : Nat) (data : List Byte)
  | host (h off : Nat) (data : List Byte)
  | token (h off : Nat) (data : List Byte)
  | sluice (n : Nat)
  deriving DecidableEq, Repr

/-- A write with its target resolved. -/
inductive DTarget where
  | mem (rank : Nat) (ps : List (Nat × Nat)) (data : List Byte)
  | grist (rank pos off : Nat) (data : List Byte)
  | host (h off : Nat) (data : List Byte)
  | token (h off : Nat) (data : List Byte)
  | sluice (n : Nat)
  deriving DecidableEq, Repr

/-- The TX_LINK record of a host write whose connection is out of service (R496, Table 14-8). -/
def hostOut (s : State) (c : DCx) (h off : Nat) : Record :=
  mkRec s (lsDesc s c.p c.i c.sub 24) 0x23 1 24 0
    (fabBytes { status := 2, dest := 24, addr := ((hbuf s h).va + off) % 2 ^ 44, tag := lostTag s 1, deadline := s.dt + s.phiro.txnTimeout * dtUs })

/-- May a write to host buffer `h` leave now: its connection serves and no earlier write waits for it (R496). -/
def hostNow (s : State) (h : Nat) : Bool :=
  connUp s (hbuf s h).conn && !s.port.resend.any fun t => t.host.any fun x => x.1 == (hbuf s h).conn

/-- A request of the descriptor needs `n` tags of owner `o`, in line for them (R478, R480). -/
def needTags (c : DCx) (o n kind dest addr : Nat) (first : Bool) : DM Unit := do
  let s ← get
  if tagsFor s o n (.descriptor c.p c.i) then pure ()
  else throw (.stall o { kind := kind, dest := dest, addr := addr, ls := lsDesc s c.p c.i c.sub o, req := .descriptor c.p c.i, first := first, granted := false })

/-- A host write leaves; the descriptor leaves the line for a tag. -/
def hostGo (s : State) (c : DCx) (h off : Nat) (data : List Byte) : State :=
  dropWaiter (hostWrite s h off data (lsDesc s c.p c.i c.sub 24) (.descriptor c.p c.i)) 24 (· == .descriptor c.p c.i)

/-- Token records wait for their connection (R496); the descriptor completes once they are acknowledged (R98). -/
def tokenWait (s : State) (c : DCx) (h off : Nat) (data : List Byte) : State :=
  holdWrite s h off data (lsDesc s c.p c.i c.sub 24) (.descriptor c.p c.i)

/-- Translate and check a target before anything is written (R250, R505, R496). -/
def dResolve (c : DCx) : DWr → DM DTarget
  | .mem rank va data => do
    let ps ← dXlat c rank va data.length 2
    notHeld ps
    let s ← get
    if imageHit s ps then throw (.violate vImage va c.sub (c.mover rank)) else pure (.mem rank ps data)
  | .grist rank pos off data => pure (.grist rank pos off data)
  | .host h off data => do
    let s ← get
    if (hbuf s h).len < off + data.length then invalid c
    else if !((hbuf s h).valid && connUp s (hbuf s h).conn) then throw (.error (hostOut s c h off))
    else pure (.host h off data)
  | .token h off data => do
    let s ← get
    if (hbuf s h).len < off + data.length then invalid c
    else if !(hbuf s h).valid then throw (.error (hostOut s c h off))
    else pure (.token h off data)
  | .sluice n => pure (.sluice n)

/-- Write one target; the core's cached copies of the written lines go (R102). -/
def dApply (c : DCx) : DTarget → DM Unit
  | .mem rank ps data => dm fun s =>
    let m := dCtx s c rank
    match writeSpan s m ps data with
    | (none, s) => (.ok (), modCore s c.p fun k => ps.foldl (fun k x => dcInval k x.1 x.2) k)
    | (some e, s) => (.error (memStop s m 1 e), s)
  | .grist rank pos off data => modify fun s => gristWrite s (cdOfRank s c.p rank) pos off data
  | .host h off data => modify fun s => hostGo s c h off data
  | .token h off data => modify fun s => if hostNow s h then hostGo s c h off data else tokenWait s c h off data
  | .sluice n => modify fun s => modPolder s c.p fun po => { po with sluices := tset false po.sluices n true }

/-- The host buffer writes among a list of targets that leave at once, each with a tag of its own (R496). -/
def hostTargets (s : State) (ts : List DTarget) : List (Nat × Nat) :=
  ts.filterMap fun t => match t with
    | .host h off _ => some (h, off)
    | .token h off _ => if hostNow s h then some (h, off) else none
    | _ => none

/-- The flags that a descriptor raises join its invocation's flag word (R142), however the descriptor ends. -/
def dRaise (c : DCx) (fl : Nat) : DM Unit :=
  modify fun s => modRun s c.p fun inv => { inv with flags := inv.flags ||| BitVec.ofNat 5 fl }

/-- Resolve every target, raise the flags of what is written, then write in order. -/
def dCommit (c : DCx) (ws : List DWr) (fl : Nat := 0) : DM Unit := do
  let ts ← ws.mapM (dResolve c)
  let s ← get
  match hostTargets s ts with
  | [] => pure ()
  | (h, off) :: r => needTags c 24 (r.length + 1) 1 24 (((hbuf s h).va + off) % 2 ^ 44) false
  dRaise c fl
  ts.forM (dApply c)

/-- The write of `data` at offset `off` of a tensor's row `g`. -/
def wrPart (c : DCx) (t : Tensor) (rank pos g : Nat) (scale : Bool) (off : Nat) (data : List Byte) : DM (List DWr) :=
  let base := if scale then t.saddr else t.addr
  let at_ := (if scale then g * t.scaleBytes else g * t.pitch) + off
  if data.isEmpty then pure []
  else if t.loc = 2 then pure [.grist rank pos (base * 32 + at_) data]
  else if t.loc = 1 then pure [.mem rank (base + at_) data]
  else if t.loc = 3 then pure [.host (base % 256) at_ data]
  else invalid c

/-- The writes of one row's element and scale bytes. -/
def wrRow (c : DCx) (t : Tensor) (rank pos row : Nat) (r : List Byte × List Byte) : DM (List DWr) := do
  let g ← rowIn c t rank pos row
  let a ← wrPart c t rank pos g false 0 r.1
  let b ← wrPart c t rank pos g true 0 r.2
  pure (a ++ b)

/-- The writes of rows 0 up. -/
def wrRows (c : DCx) (t : Tensor) (rank pos : Nat) (rs : List (List Byte × List Byte)) : DM (List DWr) := do
  let l ← rs.zipIdx.mapM fun r => wrRow c t rank pos r.2 r.1
  pure l.flatten

/-- The writes of a byte run at `off` of a share taken as one run of element bytes. -/
def wrBytes (c : DCx) (t : Tensor) (rank pos off : Nat) (data : List Byte) : DM (List DWr) := do
  let rb := max 1 t.rowBytes
  let l ← (span (off / rb) ((off + data.length + rb - 1) / rb - off / rb)).mapM fun r => do
    let lo := max off (r * rb)
    let hi := min (off + data.length) (r * rb + rb)
    let g ← rowIn c t rank pos r
    wrPart c t rank pos g false (lo - r * rb) ((data.drop (lo - off)).take (hi - lo))
  pure l.flatten

/-! ### Packing -/

/-- Codes packed as a whole row: MX rows padded with +0 codes to a multiple of 32 elements (R151), the last byte with zero bits. -/
def packRow (fmt : Nat) (xs : List Nat) : List Byte := slice (packOver [] fmt xs) 0 (rowLen fmt xs.length)

/-- A row of FP32 values in a format: codes, scale bytes, flags (Table 4-7, R152). -/
structure EncRow where
  codes : List Nat
  scales : List Nat
  fl : Nat
  deriving DecidableEq, Repr

def encodeRow (fmt rule : Nat) (sat : Bool) (xs : List Nat) : EncRow :=
  if fIsMx fmt then
    let bs := (chunks 32 ((xs.length + 31) / 32) xs).map (mxQuantise fmt rule)
    { codes := (bs.map (·.elems)).flatten, scales := bs.map (·.scale), fl := bs.foldl (fun f b => f ||| b.fl) 0 }
  else
    let rs := xs.map fun x => elemOf fmt 0 sat (fDec 1 x)
    { codes := rs.map (·.v), scales := [], fl := rs.foldl (fun f r => f ||| r.fl) 0 }

/-- The element and scale bytes of an encoded row. -/
def EncRow.bytes (r : EncRow) (fmt : Nat) : List Byte × List Byte := (packRow fmt r.codes, r.scales.map (BitVec.ofNat 8))

/-- A stored row widened to FP32 (Table 4-7); an FP32 element stays as it is. -/
def widenRow (t : Tensor) (r : List Byte × List Byte) : List FRes :=
  let m := operandRow t r
  m.codes.zipIdx.map fun x => if t.fmt = 1 then ⟨x.1, 0⟩ else elemToFp32 t.fmt (m.scales.getD (x.2 / 32) 0) x.1

/-- The flags of a list of results. -/
def flagsAll (l : List FRes) : Nat := l.foldl (fun f r => f ||| r.fl) 0

/-! ### Counts, indices, places -/

/-- The index of the operand `op` (0 TA1 or TX, 1 TB1 or TY, 2 TA2 or TZ) with the indirect offset (R269). -/
def tIndex (c : DCx) (op named : Nat) : DM Nat :=
  if dIdxV c.d && dIdxOp c.d = op then do
    let w ← pword c (dIdxPw c.d)
    let u := w % 2 ^ 16
    if dIdxRange c.d ≤ u then invalid c else pure (named + u)
  else pure named

/-- Operand `k` of a vector, mover or collective body. -/
def operand (c : DCx) (k : Nat) : DM Tensor := do
  let idx ← tIndex c k (dTensor c.d k)
  let s ← get
  pure (tensorAt (polder s c.p) idx)

/-- The run-time length of a descriptor, where it has one: parameter word LEN_PW, read once. -/
def dLen (c : DCx) : DM (Option Nat) :=
  if dLenV c.d then do
    let w ← pword c (dLenPw c.d)
    pure (some (w % 2 ^ 32))
  else pure none

/-- The count on a position (R266), `m` the replaced field. -/
def countOn (c : DCx) (len : Option Nat) (m rank pos : Nat) : DM Nat := do
  match len with
  | none => pure m
  | some v =>
    let s ← get
    if dLenMode c.d = 0 then (if m < v then invalid c else pure v)
    else if 16 * nMembers s c.p * m < v then invalid c
    else pure (min (v - (16 * rank + pos) * m) m)

/-- Where a vector, mover or collective descriptor acts (log 18): on every position where a tensor lies in grist or by position, once per
member where one lies by member, else once. -/
def places (n : Nat) (ts : List Tensor) : List (Nat × Nat) :=
  if ts.any fun t => t.loc == 2 || (t.dist == 1 && t.loc ≠ 0) then
    ((List.range n).map fun r => (List.range 16).map fun q => (r, q)).flatten
  else if ts.any fun t => t.dist == 2 then (List.range n).map fun r => (r, 0)
  else [(0, 0)]

/-- The rows a place acts on: COUNT, or all rows of its share of TY (Table 8-5). -/
def placeCount (c : DCx) (len : Option Nat) (ty : Tensor) (rank pos : Nat) : DM Nat :=
  countOn c len (if dCount c.d = 0 then (shareOf ty rank pos).2 else dCount c.d) rank pos

/-- The places of a descriptor with their counts. -/
def placesOf (c : DCx) (ts : List Tensor) (ty : Tensor) : DM (List (Nat × Nat × Nat)) := do
  let s ← get
  let len ← dLen c
  (places (nMembers s c.p) ts).mapM fun x => do
    let n ← placeCount c len ty x.1 x.2
    pure (x.1, x.2, n)

/-! ### Outcome -/

/-- The context of a descriptor: the sequencer fetches it and its extension from the admitted image (R249). -/
def dOpen (p i : Nat) (rc : Recipe) (pb : Nat) : DM DCx := do
  let c : DCx := { p := p, i := i, rc := rc, pb := pb, d := [], ext := [], sub := 0, mv := false }
  let d ← dImage c (descOff i) 64
  let e ← if dExt d then dImage c (extOff rc (dExtIdx d)) 64 else pure []
  pure { c with d := d, ext := e, mv := queueOf (dKind d) == 2 }

/-- The issue broadcast of a descriptor to the other members (R30, R472): it takes the next issue sequence number and holds a tag of the lead
until the hub acknowledges it. It waits where no hub serves, and ends with TX_LINK where a member has lost its bundle to the hub (R469). -/
def castIssue (c : DCx) : DM Unit := do
  let s ← get
  if nMembers s c.p ≤ 1 then pure ()
  else match issueHub s c.p with
    | none => throw .hold
    | some h =>
      let o := leadOf s c.p
      let ls := lsDesc s c.p c.i c.sub o
      match (members s c.p).find? fun m => bundleLost s m h with
      | some m => throw (.error (lostRec s ls m h 5))
      | none => do
        needTags c o 1 5 (29 + h) 0 false
        modify fun s =>
          let s := modPolder s c.p fun po => { po with issueSeq := (po.issueSeq + 1) % 2 ^ 32 }
          match takeTag s o { kind := 5, dest := 29 + h, addr := 0, ls := ls, req := .descriptor c.p c.i } with
          | some (_, s) => s
          | none => s

/-- The sequencer's fetch of descriptor `i` and its parameter words, with every die's tags for the requests that follow (R249, R265, R480),
and its broadcast. -/
def openDesc (words : List Byte → List Byte → List Nat) (p i : Nat) (rc : Recipe) (pb : Nat) : DM DCx := do
  let s ← get
  let c0 : DCx := { p := p, i := i, rc := rc, pb := pb, d := [], ext := [], sub := 0, mv := false }
  needTags c0 (leadOf s p) 1 0 (leadOf s p) 0 true
  let c ← dOpen p i rc pb
  (words c.d c.ext).forM fun k => do let _ ← pword c k
  castIssue c
  (members s p).forM fun m => needTags c m 1 0 m 0 false
  pure c

/-- What becomes of a descriptor that stopped; `w` is its state while a page that it needs is not present. -/
def dStopped (s : State) (p i q : Nat) (w : DescState) : DStop → State
  | .wait x pa lvl => setDesc (openFault s x (lsDesc s p i 0 x.cd) pa lvl).2 p i w
  | .violate v a sub none => setDesc (freezeQueue s p q i sub v a) p i .failed
  | .violate v a sub (some r) => setDesc (freezeMover s p r i sub v a) p i .failed
  | .error r => setDesc (detectInv s p r) p i .failed
  | .lost => setDesc s p i .failed
  | .hold => s
  | .join q => joinMiss s q
  | .stall o x => addWaiter s o x

/-- Does every setter of a sluice stand complete in the running invocation. -/
def settersDone (s : State) (rc : Recipe) (inv : Invocation) (n : Nat) : Bool :=
  (List.range rc.descCount).all fun j => !(dSets (descAt s rc j)).contains n || descDone inv j

/-- A descriptor completes (R98, R271): its sluice sets take effect. -/
def completeDesc (s : State) (p i : Nat) : State :=
  let s := setDesc s p i .complete
  match running s p with
  | none => s
  | some (inv, rc) =>
    let ns := (dSets (descAt s rc i)).filter (settersDone s rc inv)
    modPolder s p fun po => { po with sluices := ns.foldl (fun t n => tset false t n true) po.sluices }

/-- The body of an issued descriptor runs: `s0` is what a descriptor that must wait for a resource leaves. -/
def runBody (p i : Nat) (body : DCx → DM DRes) (c : DCx) (s0 s : State) : State :=
  match body c s with
  | (.error .hold, _) => s0
  | (.error (.join q), _) => joinMiss s0 q
  | (.error (.stall o w), _) => addWaiter s0 o w
  | (.error e, s) => dStopped s p i (queueOf (dKind c.d)) .waitFault e
  | (.ok r, s) =>
    let s := dropWaiterAll (modRun s p fun inv => { inv with flags := inv.flags ||| BitVec.ofNat 5 r.fl }) (isDesc p i)
    if r.idle then completeDesc s p i else setDesc s p i .inExec

/-- Issue and perform a descriptor whose waits are satisfied: its words are read, it issues, and it waits where a position that it uses is not
Ready (R294). -/
def performDesc (words : List Byte → List Byte → List Nat) (p i : Nat) (body : DCx → DM DRes) (rc : Recipe) (inv : Invocation) (s0 s : State) : State :=
  match openDesc words p i rc inv.req.pb s with
  | (.error .hold, _) => s0
  | (.error (.join q), _) => joinMiss s0 q
  | (.error (.stall o w), _) => addWaiter s0 o w
  | (.error e, s) => dStopped s p i (queueOf (dKind (descAt s rc i))) .reading e
  | (.ok c, s) =>
    let s := beginIssue s p i inv c.d
    if posReady s p rc i then runBody p i body c s0 s else setDesc (wakeUsed s p rc i) p i .waitWake

/-- A descriptor that has issued goes on once its page is present and its positions are Ready; a frozen queue or mover issues nothing further
(R294, R394, R446). -/
def goOn (p i : Nat) (body : DCx → DM DRes) (rc : Recipe) (inv : Invocation) (s : State) : State :=
  let waits := descState inv i == some .waitFault || descState inv i == some .waitWake
  if !waits || atFault s p i || queueFrozen (polder s p) (queueOf (dKind (descAt s rc i))) then s
  else if !posReady s p rc i then wakeUsed s p rc i
  else match dOpen p i rc inv.req.pb s with
    | (.ok c, s') => runBody p i body c s s'
    | (.error e, s') => dStopped s' p i (queueOf (dKind (descAt s rc i))) .waitFault e

/-- The event that descriptor `i` issues, or goes on after a wait: it does not occur unless the descriptor has the row's kind and may issue. -/
def issueWith (words : List Byte → List Byte → List Nat) (p i : Nat) (isRow : List Byte → Bool) (body : DCx → DM DRes) (s : State) : State :=
  match running s p with
  | none => s
  | some (inv, rc) =>
    let d := descAt s rc i
    if !isRow d then s
    else if issued inv i then goOn p i body rc inv s
    else if mayIssue s p rc inv i d then performDesc words p i body rc inv s (satisfy s p i rc inv d) else s

end Sys2Proof.Machine
end

