-- ==== Sys2Proof/Machine/Fusion.lean ====
section
/-! DEFINITION. Fusion stages (chapter 7): stage words, what a stage computes on the present elements of Y, its records and the stored
result. Present rows and columns are the first of the block, so a block is the list of its present rows, each the list of its present
FP32 values. -/

namespace Sys2Proof.Machine

/-- A stage word (Table 7-1). -/
structure Stage where
  op : Nat
  mode : Nat
  fl : Nat
  off : Nat
  arg : Nat
  deriving DecidableEq, Repr

def stageOf (w : Nat) : Stage := { op := bits w 0 8, mode := bits w 8 4, fl := bits w 12 3, off := bits w 15 17, arg := bits w 32 32 }

/-- The eight stage words of an extension. -/
def stageWords (ext : List Byte) : List Stage := (List.range 8).map fun i => stageOf (leAt ext (8 * i) 8)

/-- The stages of a list, up to its end (R221). -/
def stagesOf (ext : List Byte) : List Stage := (stageWords ext).takeWhile fun s => s.op ≠ 0

/-- Stage words whose OP equals an earlier word's (R237). -/
def repeats (l : List Stage) : Nat := (l.zipIdx.filter fun x => (l.take x.2).any fun y => y.op == x.1.op).length

/-- CONVERT's options. -/
def Stage.sat (s : Stage) : Bool := bit s.fl 0
def Stage.rule (s : Stage) : Nat := bits s.fl 1 1
/-- MASK's PIDX and QGRP, TOPK's K. -/
def Stage.pidx (s : Stage) : Nat := s.arg / 2 ^ 16
def Stage.qgrp (s : Stage) : Nat := bits s.arg 8 8
def Stage.topk (s : Stage) : Nat := bits s.arg 0 7

/-- Can a stage change z (R225). -/
def Stage.changes (s : Stage) : Bool :=
  s.op == 1 || s.op == 2 || s.op == 3 || s.op == 4 || s.op == 5 || s.op == 7 || (s.op == 8 && s.mode == 1)

/-- What the stages of a position see: rows of Y in all, logical columns, the first column of this pass, its grist, the parameter words
that MASK stages read at issue, and pos(p). -/
structure SEnv where
  nq : Nat
  ncols : Nat
  p0 : Nat
  grist : Nat → Nat → List Byte
  word : Nat → Nat
  pos : Nat → Nat

/-- The running pair of a row: m and s. -/
abbrev RowPair := Nat × Nat

/-- A stage list in progress: the block, flags, records to write, the factor f and the pair of each row, and the last CONVERT with its
rows and whether a later stage changed z. -/
structure SRun where
  z : List (List Nat)
  fl : Nat
  recs : List (Nat × List Byte)
  f : List Nat
  ms : List RowPair
  conv : Option (Stage × List EncRow)
  dirty : Bool
  deriving DecidableEq, Repr

def f32One : Nat := 0x3F800000
def f32NegInf : Nat := 0xFF800000

/-- A block that enters a list. -/
def SRun.start (z : List (List Nat)) (ms : List RowPair) : SRun :=
  { z := z, fl := 0, recs := [], f := z.map fun _ => f32One, ms := ms, conv := none, dirty := false }

/-- Apply a function of (q, p, z) to every element. -/
def SRun.mapZ (r : SRun) (f : Nat → Nat → Nat → FRes) : SRun :=
  let rs := r.z.zipIdx.map fun row => row.1.zipIdx.map fun x => f row.2 x.2 x.1
  { r with z := rs.map fun row => row.map (·.v), fl := r.fl ||| flagsAll rs.flatten, dirty := true }

/-- The operand of BIAS, SCALE or RESIDUAL at (q, p): FP32, or BF16 widened exactly. -/
def stageOperand (e : SEnv) (s : Stage) (q p : Nat) : FVal :=
  let w := if bit s.fl 0 then 2 else 4
  let rd := fun (off : Nat) => fDec (if bit s.fl 0 then 3 else 1) (natLE (e.grist (s.off * 32 + off) w))
  if s.op = 5 || s.mode = 3 then rd (q * alignUp (e.ncols * w) 32 + (e.p0 + p) * w)
  else if s.mode = 2 then fDec 1 s.arg
  else if s.mode = 0 then rd ((e.p0 + p) * w)
  else rd (q * w)

/-- ACT (R224, R368). -/
def actOf (mode z : Nat) : FRes :=
  match mode with
  | 0 => ⟨fMaxMin true 1 z 0, fSnanFlag 1 z 0⟩
  | 1 => transc 6 1 z
  | 2 => transc 5 1 z
  | 3 => transc 3 1 z
  | 4 => transc 7 1 z
  | 5 => transc 0 1 z
  | _ => transc 4 1 z

/-- CLAMP (R224): lo and hi from MODE and c. -/
def clampOf (mode c z : Nat) : FRes :=
  let neg := (c + 2 ^ 31) % 2 ^ 32
  let (lo, hi) := if mode = 0 then (neg, c) else if mode = 1 then (0, c) else if mode = 2 then (c, fInf 1) else (f32NegInf, c)
  if (fDec 1 z).isNan then ⟨fNan 1, 0⟩ else ⟨fMaxMin false 1 (fMaxMin true 1 z lo) hi, 0⟩

/-- masked(q, p) (R229). -/
def maskedAt (e : SEnv) (s : Stage) (q p : Nat) : Bool :=
  let w := e.word s.pidx
  let base := w % 2 ^ 32
  let qpos := base + q / s.qgrp
  let kpos := w / 2 ^ 32 + e.pos p
  if s.mode = 0 then qpos < kpos
  else if kpos < base then false
  else if 64 ≤ kpos - base then true
  else !bit (natLE (e.grist (s.off * 32 + 8 * (q / s.qgrp)) 8)) (kpos - base)

/-- The tiles of a row: its present elements by eights (R214). -/
def rowTiles (l : List Nat) : List (List Nat) := chunks 8 ((l.length + 7) / 8) l

/-- f of R231 and R240. -/
def factorOf (m mt : Nat) : Nat := if eqF32 mt m then f32One else expf (fSub 1 0 m mt).v

/-- One row of ROWSTAT MODE 0 (R231): the running pair, updated per tile. -/
def rowstatRun (l : List Nat) : RowPair :=
  (rowTiles l).foldl (fun ms t =>
    let mt := maxF32 ms.1 t
    (mt, addTile (fMul 1 0 ms.2 (factorOf ms.1 mt)).v (t.map (expAt mt)))) (f32NegInf, 0)

/-- One row of ROWSTAT MODE 1 (R240): e of each element, f, and the new pair. -/
def softmaxRow (l : List Nat) (ms : RowPair) : List Nat × Nat × RowPair :=
  let mp := maxF32 ms.1 l
  let f := factorOf ms.1 mp
  let es := l.map (expAt mp)
  (es, f, (mp, (rowTiles es).foldl addTile (fMul 1 0 ms.2 f).v))

/-- A stored row read back as FP32 values. -/
def encValues (fmt : Nat) (r : EncRow) : List Nat :=
  r.codes.zipIdx.map fun x => (elemToFp32 fmt (r.scales.getD (x.2 / 32) 0) x.1).v

/-- Convert the block (R224, R227). -/
def convertZ (s : Stage) (z : List (List Nat)) : List EncRow := z.map (encodeRow s.mode s.rule s.sat)

/-- One stage (R224). -/
def stageStep (e : SEnv) (r : SRun) (s : Stage) : SRun :=
  if s.op = 1 || s.op = 5 then r.mapZ fun q p z => fEnc 1 0 false ((fDec 1 z).add 0 (stageOperand e s q p))
  else if s.op = 2 then r.mapZ fun q p z => fEnc 1 0 false ((fDec 1 z).mul (stageOperand e s q p))
  else if s.op = 3 then r.mapZ fun _ _ z => actOf s.mode z
  else if s.op = 4 then r.mapZ fun _ _ z => clampOf s.mode s.arg z
  else if s.op = 6 then
    let rows := convertZ s r.z
    { r with z := rows.map (encValues s.mode), fl := r.fl ||| rows.foldl (fun f x => f ||| x.fl) 0, conv := some (s, rows), dirty := false }
  else if s.op = 7 then r.mapZ fun q p z => ⟨if maskedAt e s q p then f32NegInf else z, 0⟩
  else if s.op = 8 then
    if s.mode = 0 then
      { r with recs := r.recs ++ r.z.zipIdx.map fun row =>
          let ms := rowstatRun row.1
          (s.off * 32 + 8 * row.2, bytesLE 4 ms.1 ++ bytesLE 4 ms.2) }
    else
      let rs := (r.z.zip r.ms).map fun x => softmaxRow x.1 x.2
      { r with z := rs.map (·.1), f := rs.map (·.2.1), ms := rs.map (·.2.2), dirty := true }
  else if s.op = 9 then
    { r with recs := r.recs ++ r.z.zipIdx.map fun row =>
        (s.off * 32 + row.2 * topkBytes s.topk, topkRec (topkOf s.topk (row.1.zipIdx.map fun x => (x.1, e.pos x.2)))) }
  else r

/-- A whole list. -/
def runStages (e : SEnv) (l : List Stage) (r : SRun) : SRun := l.foldl (stageStep e) r

/-- The stored format of a part of a list (R225). -/
def storedFmt (l : List Stage) : Nat := ((l.filter fun s => s.op == 6).getLast?.map (·.mode)).getD 1

/-- The stored rows of a staged result (R225), with the flags of a second conversion. -/
def storedRows (r : SRun) : List EncRow × Nat :=
  match r.conv with
  | none => (r.z.map fun l => { codes := l, scales := [], fl := 0 }, 0)
  | some (s, rows) =>
    if r.dirty then
      let rows := convertZ s r.z
      (rows, rows.foldl (fun f x => f ||| x.fl) 0)
    else (rows, 0)

/-- A stored row of `ncols` elements over what stands there: its present elements, and +0 codes in the padding of an MX row (R151). -/
def storedOver (old : List Byte) (fmt ncols : Nat) (xs : List Nat) : List Byte :=
  let d := packOver old fmt xs
  if fIsMx fmt then bytesLE (rowLen fmt ncols) (natLE (d ++ old.drop d.length) % 2 ^ (fBits fmt * ncols)) else d

/-- Write a stored row of a block at `off` of a position's grist. -/
def putStored (s : State) (cd pos off fmt ncols : Nat) (r : EncRow) : State :=
  gristWrite s cd pos off (storedOver (gristRead s cd pos off (rowLen fmt ncols)) fmt ncols r.codes)

/-- Y at Y_OFF in the stored format, its MX scale array at CONVERT's OFF (R228, R233), and the records. -/
def putStaged (s : State) (cd pos yoff : Nat) (yout : Bool) (e : SEnv) (l : List Stage) (r : SRun) : State :=
  let fmt := storedFmt l
  let rows := (storedRows r).1
  let s := if yout then rows.zipIdx.foldl (fun s x => putStored s cd pos (yoff + x.2 * alignUp (rowLen fmt e.ncols) 32) fmt e.ncols x.1) s else s
  let s := match yout && fIsMx fmt, r.conv with
    | true, some (c, _) =>
      rows.zipIdx.foldl (fun s x => gristWrite s cd pos (c.off * 32 + x.2 * blocksOf fmt e.ncols) (x.1.scales.map (BitVec.ofNat 8))) s
    | _, _ => s
  r.recs.foldl (fun s x => gristWrite s cd pos x.1 x.2) s

/-- The first working value of an element: out(T) with OUTW 0, an integer result converted to FP32 (R224). -/
def workingOf (c : MCls) (t : FRes) : FRes :=
  let y := outT c false t
  if c == .int then
    let r := fEnc 1 0 false (ofInt (sext 32 y.v))
    ⟨r.v, y.fl ||| r.fl⟩
  else y

/-! ### Issue of a descriptor by its row -/

/-- The parameter words that a descriptor names (R265): its length and index, those of its MASK stages (R229) and those of its kind. -/
def descWords (d ext : List Byte) : List Nat :=
  let a0 := dArg0 d
  (if dLenV d then [dLenPw d] else []) ++ (if dIdxV d then [dIdxPw d] else []) ++
    (if dKind d = 1 || dKind d = 2 then ((stagesOf ext).filter fun x => x.op == 7).map (·.pidx) else []) ++
    (match dKind d, bits a0 0 2 with
      | 0x13, 0 => [bits a0 22 12, bits a0 34 12]
      | 0x13, 2 => List.range 8 ++ [bits a0 34 12, bits a0 46 12, bits a0 46 12 + 1, bits (dArg1 d) 32 12]
      | 0x15, 0 => [bits a0 4 12]
      | 0x15, 1 => [bits a0 4 12]
      | 0x15, 2 => (List.range (dCount d)).map (bits a0 24 12 + ·)
      | _, _ => [])

/-- The event that descriptor `i` issues or goes on. -/
def issueDesc (p i : Nat) (isRow : List Byte → Bool) (body : DCx → DM DRes) (s : State) : State := issueWith descWords p i isRow body s

end Sys2Proof.Machine
end

