-- ==== Sys2Proof/Machine/MatrixDesc.lean ====
section
/-! DEFINITION. MATRIX and CHAIN descriptors (R234–R247, R254–R256, R268). -/

namespace Sys2Proof.Machine

/-! ### Bodies (Table 8-4) -/

def dOpw1 (d : List Byte) : OpWord := opWord (toW (dWord d 0x20))
def dOpw2 (d : List Byte) : OpWord := opWord (toW (dWord d 0x28))
def dTa1 (d : List Byte) : Nat := bits (dWord d 0x30) 0 12
def dTb1 (d : List Byte) : Nat := bits (dWord d 0x30) 12 12
def dTa2 (d : List Byte) : Nat := bits (dWord d 0x30) 24 12
def dCfg1 (d : List Byte) : Nat := bits (dWord d 0x30) 36 12
def dCfg2 (d : List Byte) : Nat := bits (dWord d 0x30) 48 12

/-- The AGCFG words of a group configuration entry. -/
def dCfg (c : DCx) (k : Nat) : DM (Word × Word × Word) := do
  let b ← dImage c (cfgOff c.rc k) 32
  pure (toW (leAt b 0 8), toW (leAt b 8 8), toW (leAt b 16 8))

/-- Every position of the polder: rank and position. -/
def everyPos (n : Nat) : List (Nat × Nat) := places n [{ addr := 0, saddr := 0, rows := 0, cols := 0, pitch := 0, fmt := 0, loc := 2, dist := 0, share := 0 }]

/-- The parameter words of the MASK stages, read when the descriptor issues (R229, R265). -/
def maskWords (c : DCx) : DM (List (Nat × Nat)) :=
  ((stagesOf c.ext).filter fun s => s.op == 7).mapM fun s => do
    let w ← pword c s.pidx
    pure (s.pidx, w)

/-- What the stages of a position see; `cfg1` gives PBASE and PSTRIDE of the first operation's group (R229). -/
def stageEnv (s : State) (cd rank pos nq ncols p0 : Nat) (cfg1 : Word) (ws : List (Nat × Nat)) : SEnv :=
  { nq := nq, ncols := ncols, p0 := p0, grist := fun off n => gristRead s cd pos off n,
    word := fun k => ((ws.find? fun w => w.1 == k).map (·.2)).getD 0, pos := fun p => posOf cfg1 rank pos (p0 + p) }

/-- Where operands were read from memory, their windows passed through the position's staging area (R256), whose bytes no rule states
afterwards: they take free values (log 3). -/
def freeStaging (s : State) (rc : Recipe) (cd pos : Nat) : State :=
  let n := rc.stgLen * 32
  let bs := (List.range (n / 8)).flatMap fun k => bytesLE 8 (Config.freeWord (s.free + k)).toNat
  gristWrite { s with free := s.free + n / 8 } cd pos (rc.stgOff * 32) bs

/-! ### MATRIX -/

/-- What one position brings to a matrix operation: count of A rows, count of B rows, the rows. -/
structure MatJob where
  rank : Nat
  pos : Nat
  cnt : Nat
  nb : Nat
  a : List MRow
  b : List MRow
  deriving DecidableEq, Repr

/-- The operands of every position (R254, R261, R266). Rows of B that the position's share does not hold are absent (log 19). -/
def matJobs (c : DCx) (w : OpWord) (ta tb : Tensor) : DM (List MatJob) := do
  let s ← get
  let len ← dLen c
  (everyPos (nMembers s c.p)).mapM fun x => do
    let cnt ← countOn c len w.rows x.1 x.2
    let nb := min (w.n * w.cols) (shareOf tb x.1 x.2).2
    if cnt = 0 then pure { rank := x.1, pos := x.2, cnt := 0, nb := nb, a := [], b := [] }
    else do
      let a ← dRows c ta x.1 x.2 cnt
      let b ← dRows c tb x.1 x.2 nb
      pure { rank := x.1, pos := x.2, cnt := cnt, nb := nb, a := a.map (operandRow ta), b := b.map (operandRow tb) }

/-- One position's operation over the full depth (R254), with the presence it leaves. -/
def matPos (w : OpWord) (k : Nat) (fresh : Bool) (r : MatRun) (j : MatJob) : MatRun :=
  let key := j.rank * 16 + j.pos
  let mark := fun (g : Group) => { g with rowsAt := tins g.rowsAt key j.cnt, colsAt := tins g.colsAt key j.nb }
  if j.cnt = 0 then (if fresh then { r with g := mark r.g } else r)
  else streamPos r.g.cfg k w.zero j.rank j.pos { r with g := mark r.g } j.a j.b

/-- A delivering position whose count is 0 writes padded TOPK records alone (R268). -/
def emptyTopk (s : State) (cd pos nb : Nat) (l : List Stage) : State :=
  (l.filter fun x => x.op == 9).foldl (fun s x =>
    (List.range nb).foldl (fun s q => gristWrite s cd pos (x.off * 32 + q * topkBytes x.topk) (topkRec (topkOf x.topk []))) s) s

/-- Close a group for a descriptor (R194, R214–R216, R233): every delivering position whose count is not 0 for this descriptor (R268) writes
its Y and records, staged where the list has stages. The flags. -/
def matClose (p : Nat) (g : Group) (counts : Nat × Nat → Nat) (l : List Stage) (ws : List (Nat × Nat)) (s : State) : State × Nat :=
  (delivering s p g).foldl (fun acc rp =>
    let s := acc.1
    let cd := cdOfRank s p rp.1
    let nb := g.qAt rp.1 rp.2
    if counts rp = 0 then (emptyTopk s cd rp.2 nb l, acc.2)
    else if l.isEmpty then
      let fl := (List.range nb).foldl (fun f q => f ||| flagsAll (yRow g rp.1 rp.2 q)) acc.2
      (deliverGrist s p g rp.1 rp.2, fl)
    else
      let y := (List.range nb).map fun q => (List.range (g.pAt rp.1 rp.2)).map fun pc => workingOf g.cfg.cls (spanT g rp.1 rp.2 q pc)
      let e := stageEnv s cd rp.1 rp.2 g.nq g.rows 0 g.cfg1 ws
      let r := runStages e l (SRun.start (y.map fun row => row.map (·.v)) [])
      (putStaged s cd rp.2 (cfgYoff g.cfg2) (cfgYout g.cfg0) e l r, acc.2 ||| flagsAll y.flatten ||| r.fl ||| (storedRows r).2)) (s, 0)

/-- A MATRIX descriptor (R254). -/
def matrixBody (c : DCx) : DM DRes := do
  let w := dOpw1 c.d
  let ws ← maskWords c
  let ia ← tIndex c 0 (dTa1 c.d)
  let ib ← tIndex c 1 (dTb1 c.d)
  let cfg ← dCfg c (dCfg1 c.d)
  let s ← get
  let po := polder s c.p
  let ta := tensorAt po ia
  let jobs ← matJobs c w ta (tensorAt po ib)
  modify fun s =>
    if ta.loc = 1 || (tensorAt po ib).loc = 1 then
      (jobs.filter fun j => j.cnt ≠ 0).foldl (fun s j => freeStaging s c.rc (cdOfRank s c.p j.rank) j.pos) s
    else s
  let g0 := groupAt po w.grp
  let fresh := g0.state = 0
  let g := if fresh then openGroup w false cfg.1 cfg.2.1 cfg.2.2 else g0
  let r := jobs.foldl (matPos w ta.cols fresh) { g := g, fl := 0 }
  modify fun s => (jobs.filter fun j => j.cnt ≠ 0).foldl (fun s j =>
    loadWindows (markWritten s (cdOfRank s c.p j.rank) j.pos) c.p w ta.cols j.rank j.pos j.b) s
  let idle := jobs.all fun j => j.cnt = 0
  if w.close then
    let s ← get
    let counts := fun (x : Nat × Nat) => (((jobs.find? fun j => j.rank == x.1 && j.pos == x.2).map (·.cnt)).getD 0)
    let (s, fl) := matClose c.p r.g counts (stagesOf c.ext) ws s
    set (setGroup s c.p w.grp Group.idle)
    pure { fl := r.fl ||| fl, idle := idle }
  else
    modify fun s => setGroup s c.p w.grp r.g
    pure { fl := r.fl, idle := idle }

/-! ### CHAIN (R234–R247) -/

/-- The product of one row of A and one column of B over `k` steps, into `x`. -/
def chainDot (m : MatCfg) (k : Nat) (a b : MRow) (x : Acc) : Acc × Nat := accWindow m k a b x

/-- T of an element at its group's close. -/
def accClose (m : MatCfg) (x : Acc) : FRes := if m.cls == .fp64 then ⟨x.t.toNat, 0⟩ else addSeg m.cls x.t.toNat x.s.toNat

/-- The totals of a block at its group's close on one position: rows by columns of B, columns by rows of A; with every flag of the products. -/
def chainTotals (m : MatCfg) (k : Nat) (as bs : List MRow) : List (List FRes) :=
  bs.map fun b => as.map fun a =>
    let (x, f) := chainDot m k a b Acc.zero
    let t := accClose m x
    ⟨t.v, t.fl ||| f⟩

/-- combine(T) of the span of `c` positions that begins at `pos` (R209), over the blocks of a member's positions, as working values. -/
def chainCombine (m : MatCfg) (c : Nat) (blocks : List (List (List FRes))) (pos : Nat) : List (List FRes) :=
  (blocks.getD pos []).zipIdx.map fun row => row.1.zipIdx.map fun e =>
    workingOf m.cls ((span (pos + 1) (c - 1)).foldl (fun t i =>
      let b := (((blocks.getD i []).getD row.2 []).getD e.2 ⟨0, 0⟩)
      let r := addTot m.cls t.v b.v
      ⟨r.v, t.fl ||| b.fl ||| r.fl⟩) e.1)

/-- The codes of a block. -/
def codesOf (y : List (List FRes)) : List (List Nat) := y.map fun row => row.map (·.v)

/-- Elements lo to lo + n − 1 of a row; `lo` is a whole number of blocks. -/
def MRow.part (r : MRow) (lo n : Nat) : MRow :=
  { codes := (r.codes.drop lo).take n, scales := (r.scales.drop (lo / 32)).take ((n + 31) / 32) }

/-- The state of a chain on a position (Table 7-3): the pair of each row, O, the second group's elements under DEFER MODE 0, flags, and the P
rows of its last pass. -/
structure ChainSt where
  ms : List RowPair
  o : List (List Nat)
  acc : List (List Acc)
  fl : Nat
  last : List MRow
  deriving DecidableEq, Repr

/-- What a chain's passes need. -/
structure ChainCx where
  m1 : MatCfg
  m2 : MatCfg
  span1 : Nat
  span2 : Nat
  k1 : Nat
  kb : Nat
  passLen : Nat
  base : Nat
  before : List Stage
  defer : Stage
  after : List Stage
  rows1 : Nat
  nq : Nat
  deriving DecidableEq, Repr

/-- The operands of one position of a chain: the keys, the queries, the rows of the second A. -/
structure ChainJob where
  rank : Nat
  pos : Nat
  keys : Nat
  nb : Nat
  a : List MRow
  b : List MRow
  v : List MRow
  deriving DecidableEq, Repr

/-- The keys of a position in pass `i`. -/
def passKeys (x : ChainCx) (j : ChainJob) (i : Nat) : Nat := min x.passLen (j.keys - i * x.passLen)

/-- Write the P buffer of a pass (Table 7-3, R236): windows of KB keys, rows q back to back as R175 lays a B operand out; the scale bytes
of the pass follow the elements of L keys (log 19). -/
def putP (s : State) (cd pos : Nat) (x : ChainCx) (fmt lp : Nat) (rows : List EncRow) : State :=
  let sbase := x.base + x.passLen / x.kb * x.nq * rowBytes fmt x.kb
  (List.range ((lp + x.kb - 1) / x.kb)).foldl (fun s w =>
    let d := min x.kb (lp - w * x.kb)
    rows.zipIdx.foldl (fun s r =>
      let part := (r.1.codes.drop (w * x.kb)).take d
      let el := slice (packOver [] fmt part) 0 (rowBytes fmt d)
      let sc := (r.1.scales.drop (w * x.kb / 32)).take (rowBlocks fmt d)
      let s := gristWrite s cd pos (x.base + w * x.nq * rowBytes fmt x.kb + r.2 * rowBytes fmt d) el
      gristWrite s cd pos (sbase + w * x.nq * rowBlocks fmt x.kb + r.2 * rowBlocks fmt d) (sc.map (BitVec.ofNat 8))) s) s

/-- The first part of a pass on a position that delivers its span (R209, R238, R240): the stages on the combined scores, and the P buffer. -/
def chainFirst (x : ChainCx) (env : State → ChainJob → Nat → SEnv) (cd i : Nat) (blocks : List (List (List FRes))) (s : State) (e : ChainJob × ChainSt) :
    State × Option (SRun × List EncRow) :=
  let (j, st) := e
  if j.pos % x.span1 ≠ 0 || passKeys x j i = 0 then (s, none)
  else
    let y := chainCombine x.m1 x.span1 blocks j.pos
    let r := runStages (env s j (i * x.passLen)) x.before (SRun.start (codesOf y) st.ms)
    let (rows, f) := storedRows r
    (putP s cd j.pos x (storedFmt x.before) (passKeys x j i) rows, some ({ r with fl := r.fl ||| flagsAll y.flatten ||| f }, rows))

/-- The second operation of a pass on a position (R239, R241): its totals under DEFER MODE 1 and 2, or the accumulators that span the passes
under MODE 0. A position that staged nothing brings no rows. -/
def chainSecond (x : ChainCx) (i : Nat) (e : (ChainJob × ChainSt) × Option (SRun × List EncRow)) : List (List FRes) × ChainSt :=
  let ((j, st), r) := e
  match r with
  | none => ([], st)
  | some (r, rows) =>
    let ps : List MRow := rows.map fun e => { codes := e.codes, scales := e.scales }
    let vs := j.v.map fun v => v.part (i * x.passLen) (passKeys x j i)
    let st := { st with ms := r.ms, fl := st.fl ||| r.fl, last := ps }
    if x.defer.mode = 0 then
      let y := ps.zipIdx.map fun b => vs.zipIdx.map fun a =>
        chainDot x.m2 (passKeys x j i) a.1 b.1 ((st.acc.getD b.2 []).getD a.2 Acc.zero)
      ([], { st with acc := y.map fun row => row.map (·.1), fl := y.flatten.foldl (fun f e => f ||| e.2) st.fl })
    else
      let y := chainTotals x.m2 (passKeys x j i) vs ps
      (y, { st with fl := st.fl ||| flagsAll y.flatten })

/-- DEFER MODE 1 and 2 on a position that delivers: O ← O × f + Oi (R241). -/
def chainFold (x : ChainCx) (blocks : List (List (List FRes))) (e : ((ChainJob × ChainSt) × Option (SRun × List EncRow)) × ChainSt) : ChainSt :=
  let (((j, _), r), st) := e
  match r with
  | none => st
  | some (r, _) =>
    if x.defer.mode = 0 || j.pos % x.span2 ≠ 0 then st
    else
      let oi := chainCombine x.m2 x.span2 blocks j.pos
      let o := oi.zipIdx.map fun row => row.1.zipIdx.map fun e =>
        fMulAdd 1 0 ((st.o.getD row.2 []).getD e.2 0) (r.f.getD row.2 f32One) e.1.v
      { st with o := codesOf o, fl := st.fl ||| flagsAll oi.flatten ||| flagsAll o.flatten }

/-- One pass of a chain on the sixteen positions of a member (R238–R241). -/
def chainPass (x : ChainCx) (env : State → ChainJob → Nat → SEnv) (cd : Nat) (acc : State × List (ChainJob × ChainSt)) (i : Nat) :
    State × List (ChainJob × ChainSt) :=
  let js := acc.2
  let t1 := js.map fun e => chainTotals x.m1 x.k1 ((e.1.a.drop (i * x.passLen)).take (passKeys x e.1 i)) e.1.b
  let (s, rs) := js.foldl (fun (a : State × List (Option (SRun × List EncRow))) e =>
    let (s, r) := chainFirst x env cd i t1 a.1 e
    (s, a.2 ++ [r])) (acc.1, [])
  let ds := js.zip rs
  let t2 := ds.map (chainSecond x i)
  (s, (js.zip t1).zip ((ds.zip (t2.map (·.2))).map (chainFold x (t2.map (·.1)))) |>.map fun e =>
    (e.1.1.1, { e.2 with fl := e.2.fl ||| flagsAll e.1.2.flatten }))

/-- A partial record (R242). -/
def partialRec (c2 : Nat) (ms : RowPair) (o : List Nat) : List Byte :=
  slice (bytesLE 4 ms.1 ++ bytesLE 4 ms.2 ++ (o.map (bytesLE 4)).flatten) 0 (alignUp (8 + 4 * c2) 32)

/-- Write the partial records of the present rows. -/
def putPartials (s : State) (cd pos off c2 : Nat) (rows : List (RowPair × List Nat)) : State :=
  rows.zipIdx.foldl (fun s r => gristWrite s cd pos (off + r.2 * alignUp (8 + 4 * c2) 32) (partialRec c2 r.1.1 r.1.2)) s

/-- The end of a chain on a position (R241, R242): z of the second part and its flags; `closed` holds the totals of the groups that span the
passes under DEFER MODE 0. -/
def chainEnd (x : ChainCx) (closed : List (List (List FRes))) (j : ChainJob) (st : ChainSt) : List (List Nat) × Nat :=
  if x.defer.mode = 0 then
    let y := chainCombine x.m2 x.span2 closed j.pos
    (codesOf y, flagsAll y.flatten)
  else if x.defer.mode = 1 then
    let y := st.o.zipIdx.map fun row => row.1.map fun o => fDiv 1 0 o (st.ms.getD row.2 (0, 0)).2
    (codesOf y, flagsAll y.flatten)
  else (st.o, 0)

/-- Columns `lo` to `lo + n` − 1 of a row, `lo` a whole number of blocks: element and scale bytes. -/
def dRowCols (c : DCx) (t : Tensor) (rank pos row lo n : Nat) : DM (List Byte × List Byte) := do
  let g ← rowIn c t rank pos row
  let hi := min (lo + n) t.cols
  let e0 := lo * fBits t.fmt / 8
  let el ← dRowPart c t rank pos g false e0 (rowLen t.fmt hi - e0)
  let sc ← dRowPart c t rank pos g true (blocksOf t.fmt lo) (blocksOf t.fmt hi - blocksOf t.fmt lo)
  pure (el, sc)

/-- The operands of one position, read pass by pass under the first sub-operation of the pass (R94, R238): the queries before the first. -/
def chainReads (c : DCx) (l k subs : Nat) (w2 : OpWord) (ta tb tv : Tensor) (rank pos nb : Nat) : DM ChainJob := do
  let b ← dRows c tb rank pos nb
  let ps ← (List.range ((k + l - 1) / l)).mapM fun i => do
    let c := { c with sub := i * subs }
    let n := min l (k - i * l)
    let a ← (span (i * l) n).mapM (dRow c ta rank pos)
    let v ← (List.range w2.rows).mapM fun r => dRowCols c tv rank pos r (i * l) n
    pure (a, v)
  let v := (List.range w2.rows).map fun r =>
    let xs := ps.map fun x => x.2.getD r ([], [])
    mkRow tv.fmt k (xs.map (·.1)).flatten (xs.map (·.2)).flatten
  pure { rank := rank, pos := pos, keys := k, nb := nb, a := (ps.flatMap (·.1)).map (operandRow ta), b := b.map (operandRow tb), v := v }

/-- The operands of every position. -/
def chainJobs (c : DCx) (l subs : Nat) (w1 w2 : OpWord) (ta tb tv : Tensor) : DM (List ChainJob) := do
  let s ← get
  let len ← dLen c
  (everyPos (nMembers s c.p)).mapM fun x => do
    let k ← countOn c len w1.rows x.1 x.2
    let nb := min (w1.n * w1.cols) (shareOf tb x.1 x.2).2
    if k = 0 then pure { rank := x.1, pos := x.2, keys := 0, nb := nb, a := [], b := [], v := [] }
    else chainReads c l k subs w2 ta tb tv x.1 x.2 nb

/-- What a stream of an operation word computes with, its spill from an AGCFG0 word. -/
def matCfgOf (w : OpWord) (c0 : Word) : MatCfg := (openGroup w false c0 0 0).cfg

/-- The state of a chain at its start (R240, R241, R247). -/
def chainStart (c2 : Nat) (j : ChainJob) : ChainSt :=
  { ms := List.replicate j.nb (f32NegInf, 0), o := List.replicate j.nb (List.replicate c2 0), acc := [], fl := 0, last := [] }

/-- What a position writes after the last pass: partial records (R242, R268), the second part and its result. Only a position that delivers
both of its spans writes (R209). -/
def chainFinish (x : ChainCx) (cfg1 cfg2 : Word × Word × Word) (ws : List (Nat × Nat)) (c2 cd : Nat) (closed : List (List (List FRes)))
    (acc : State × Nat) (e : ChainJob × ChainSt) : State × Nat :=
  let (j, st) := e
  let (s, fl) := acc
  if j.pos % x.span1 ≠ 0 || j.pos % x.span2 ≠ 0 then (s, fl ||| st.fl)
  else
    let s := if x.defer.mode = 2 then putPartials s cd j.pos (x.defer.off * 32) c2 (st.ms.zip st.o) else s
    if j.keys = 0 then (s, fl ||| st.fl)
    else
      let (z, f1) := chainEnd x closed j st
      let v := stageEnv s cd j.rank j.pos x.nq c2 0 cfg1.2.1 ws
      let r := runStages v x.after (SRun.start z st.ms)
      (putStaged s cd j.pos (cfgYoff cfg2.2.2) (cfgYout cfg2.1) v x.after r, fl ||| st.fl ||| f1 ||| r.fl ||| (storedRows r).2)

/-- A chain on the sixteen positions of one member: every pass, then what each position writes. -/
def chainMember (p : Nat) (x : ChainCx) (w1 w2 : OpWord) (cfg1 cfg2 : Word × Word × Word) (ws : List (Nat × Nat)) (c2 : Nat) (acc : State × Nat)
    (js : List ChainJob) : State × Nat :=
  let cd := cdOfRank acc.1 p ((js.map (·.rank)).headD 0)
  let env := fun (s : State) (j : ChainJob) (lo : Nat) => stageEnv s cd j.rank j.pos x.nq x.rows1 lo cfg1.2.1 ws
  let keys := (js.map (·.keys)).foldl max 0
  let (s, es) := (List.range ((keys + x.passLen - 1) / x.passLen)).foldl (chainPass x env cd) (acc.1, js.map fun j => (j, chainStart c2 j))
  let s := es.foldl (fun s e =>
    if e.1.keys = 0 then s
    else
      let s := loadWindows (markWritten s cd e.1.pos) p w1 x.k1 e.1.rank e.1.pos e.1.b
      loadWindows s p { w2 with depth := x.kb } ((e.2.last.map (·.codes.length)).headD 0) e.1.rank e.1.pos e.2.last) s
  let closed := es.map fun e => e.2.acc.map fun row => row.map (accClose x.m2)
  es.foldl (chainFinish x cfg1 cfg2 ws c2 cd closed) (s, acc.2)

/-- A CHAIN descriptor (R234). -/
def chainBody (c : DCx) : DM DRes := do
  let w1 := dOpw1 c.d
  let w2 := dOpw2 c.d
  let ws ← maskWords c
  let ia ← tIndex c 0 (dTa1 c.d)
  let ib ← tIndex c 1 (dTb1 c.d)
  let iv ← tIndex c 2 (dTa2 c.d)
  let cfg1 ← dCfg c (dCfg1 c.d)
  let cfg2 ← dCfg c (dCfg2 c.d)
  let s ← get
  let po := polder s c.p
  let ta := tensorAt po ia
  let tb := tensorAt po ib
  let tv := tensorAt po iv
  let l := stagesOf c.ext
  let jobs ← chainJobs c (max 1 (tget 1 c.rc.passLen c.i)) (1 + repeats l) w1 w2 ta tb tv
  let before := l.takeWhile fun s => s.op ≠ 0x0A
  let x : ChainCx :=
    { m1 := matCfgOf w1 cfg1.1, m2 := matCfgOf w2 cfg2.1, span1 := cfgSpan cfg1.1, span2 := cfgSpan cfg2.1, k1 := ta.cols, kb := depthS w2.fmtB, passLen := max 1 (tget 1 c.rc.passLen c.i),
      base := gristSize - c.rc.fuseGrist * 65536, before := before, defer := l.getD before.length (stageOf 0), after := l.drop (before.length + 1),
      rows1 := w1.rows, nq := w1.n * w1.cols }
  modify fun s =>
    if ta.loc = 1 || tb.loc = 1 || tv.loc = 1 then
      (jobs.filter fun j => j.keys ≠ 0).foldl (fun s j => freeStaging s c.rc (cdOfRank s c.p j.rank) j.pos) s
    else s
  let s ← get
  let (s, fl) := (chunks 16 (nMembers s c.p) jobs).foldl (chainMember c.p x w1 w2 cfg1 cfg2 ws w2.rows) (s, 0)
  set s
  pure { fl := fl, idle := jobs.all fun j => j.keys = 0 }

/-! ### The commands -/

/-- The row of a kind. -/
def kindIs (k : Nat) (d : List Byte) : Bool := dKind d == k

/-- MATRIX (R254). -/
def execMatrix (p i : Nat) (s : State) : Result := done (issueDesc p i (kindIs 1) matrixBody s)

/-- CHAIN (R238). -/
def execChain (p i : Nat) (s : State) : Result := done (issueDesc p i (kindIs 2) chainBody s)

end Sys2Proof.Machine
end

