-- ==== Sys2Proof/Machine/VectorDesc.lean ====
section
/-! DEFINITION. Vector-queue descriptors: VMAP and VNORM (chapter 8) and the token kinds VMERGE, VSAMPLE, VACCEPT and VCOMPACT (chapter
16). -/

namespace Sys2Proof.Machine

/-- The writes of the same bytes at `off` of a tensor on each of its places. -/
def wrEverywhere (c : DCx) (t : Tensor) (off : Nat) (data : List Byte) : DM (List DWr) := do
  let s ← get
  let l ← (places (nMembers s c.p) [t]).mapM fun x => wrBytes c t x.1 x.2 off data
  pure l.flatten

/-- The positions of one member where a tensor lies. -/
def memberPos (t : Tensor) : List Nat := if t.loc = 2 || t.dist = 1 then List.range 16 else [0]

/-- The writes of the same bytes at `off` of a tensor on each of its places of one member. -/
def wrMember (c : DCx) (t : Tensor) (rank off : Nat) (data : List Byte) : DM (List DWr) := do
  let l ← (memberPos t).mapM fun q => wrBytes c t rank q off data
  pure l.flatten

/-- The 32-bit values of a byte string. -/
def u32s (n : Nat) (bs : List Byte) : List Nat := (List.range n).map fun k => leAt bs (4 * k) 4
def u64s (n : Nat) (bs : List Byte) : List Nat := (List.range n).map fun k => leAt bs (8 * k) 8

/-! ### VMAP -/

/-- One place of a VMAP: its rows through the stage list, with the writes and flags. -/
def vmapPlace (c : DCx) (tx ty : Tensor) (x : Nat × Nat × Nat) : DM (List DWr × Nat) := do
  let rows ← dRows c tx x.1 x.2.1 x.2.2
  let s ← get
  let l := stagesOf c.ext
  let z := rows.map (widenRow tx)
  let e := stageEnv s (cdOfRank s c.p x.1) x.1 x.2.1 x.2.2 tx.cols 0 0 []
  let r := runStages e l (SRun.start (z.map fun row => row.map (·.v)) [])
  let (out, f) := storedRows r
  let ws ← wrRows c ty x.1 x.2.1 (out.map fun o => o.bytes (storedFmt l))
  pure (ws, flagsAll z.flatten ||| r.fl ||| f)

/-- Join writes and flags of places. -/
def joinW (l : List (List DWr × Nat)) : List DWr × Nat := ((l.map (·.1)).flatten, l.foldl (fun f x => f ||| x.2) 0)

/-- VMAP: the stage list on each element of TX (R224). -/
def vmapBody (c : DCx) : DM DRes := do
  let tx ← operand c 0
  let ty ← operand c 1
  let ps ← placesOf c [tx, ty] ty
  let l ← ps.mapM (vmapPlace c tx ty)
  dCommit c (joinW l).1 (joinW l).2
  pure { fl := (joinW l).2, idle := ps.all fun x => x.2.2 = 0 }

/-! ### VNORM -/

/-- FP32 operations rounded to nearest even, carrying flags. -/
def fl2 (op : Nat → Nat → FRes) (a b : FRes) : FRes :=
  let r := op a.v b.v
  ⟨r.v, a.fl ||| b.fl ||| r.fl⟩

/-- A row of VNORM: ss, r and y as the chapter gives them. -/
def normRow (eps : Nat) (x w : List Nat) : List FRes :=
  let sq := x.map fun a => fMul 1 0 a a
  let t := vTree (fAdd 1 0) 33 (sq.map (·.v))
  let ss : FRes := ⟨t.v, t.fl ||| flagsAll sq⟩
  let n := fEnc 1 0 false (ofInt (x.length : Nat))
  let m := fl2 (fAdd 1 0) (fl2 (fDiv 1 0) ss ⟨n.v, 0⟩) ⟨eps, 0⟩
  let r := transc 2 1 m.v
  let r : FRes := ⟨r.v, r.fl ||| m.fl⟩
  x.zipIdx.map fun a => fl2 (fMul 1 0) (fl2 (fMul 1 0) ⟨a.1, 0⟩ r) ⟨w.getD a.2 0, 0⟩

/-- One place of a VNORM. -/
def vnormPlace (c : DCx) (tx ty tz : Tensor) (eps : Nat) (x : Nat × Nat × Nat) : DM (List DWr × Nat) :=
  if x.2.2 = 0 then pure ([], 0)
  else do
    let wr ← dRow c tz x.1 x.2.1 0
    let rows ← dRows c tx x.1 x.2.1 x.2.2
    let w := widenRow tz wr
    let zs := rows.map (widenRow tx)
    let ys := zs.map fun z => normRow eps (z.map (·.v)) (w.map (·.v))
    let out := ys.map fun y => encodeRow ty.fmt 0 false (y.map (·.v))
    let ws ← wrRows c ty x.1 x.2.1 (out.map fun o => o.bytes ty.fmt)
    pure (ws, flagsAll w ||| flagsAll zs.flatten ||| flagsAll ys.flatten ||| out.foldl (fun f o => f ||| o.fl) 0)

/-- VNORM. -/
def vnormBody (c : DCx) : DM DRes := do
  let tx ← operand c 0
  let ty ← operand c 1
  let tz ← operand c 2
  let ps ← placesOf c [tx, ty] ty
  let l ← ps.mapM (vnormPlace c tx ty tz (bits (dArg0 c.d) 0 32))
  dCommit c (joinW l).1 (joinW l).2
  pure { fl := (joinW l).2, idle := ps.all fun x => x.2.2 = 0 }

/-! ### VMERGE (R521) -/

/-- A partial record (R242). -/
structure PRec where
  m : Nat
  s : Nat
  o : List Nat
  deriving DecidableEq, Repr

def precBytes (c2 : Nat) : Nat := alignUp (8 + 4 * c2) 32

/-- The records of `k` rows. -/
def precsOf (k c2 : Nat) (bs : List Byte) : List PRec :=
  (List.range k).map fun i =>
    let b := slice bs (i * precBytes c2) (precBytes c2)
    { m := leAt b 0 4, s := leAt b 4 4, o := u32s c2 (b.drop 8) }

def PRec.bytes (r : PRec) : List Byte := partialRec r.o.length (r.m, r.s) r.o

/-- 1.0 where a = m, else expf(rne_fp32(a − m)). -/
def mergeFactor (a m : Nat) : Nat := if eqF32 a m then f32One else expf (fSub 1 0 a m).v

/-- fold(a, b) of R521. It raises no flag. -/
def foldRec (a b : PRec) : PRec :=
  let m := fMaxMin true 1 a.m b.m
  let fa := mergeFactor a.m m
  let fb := mergeFactor b.m m
  let mix := fun (x y : Nat) => (fAdd 1 0 (fMul 1 0 x fa).v (fMul 1 0 y fb).v).v
  { m := m, s := mix a.s b.s, o := (a.o.zip b.o).map fun x => mix x.1 x.2 }

/-- MODE 1: rescale to G. -/
def rescaleRec (g : Nat) (r : PRec) : PRec :=
  let f := mergeFactor r.m g
  { m := g, s := (fMul 1 0 r.s f).v, o := r.o.map fun o => (fMul 1 0 o f).v }

def mergeC2 (c : DCx) : Nat := bits (dArg1 c.d) 0 10

/-- MODE 0 on one member: the records of its sixteen positions folded in order. -/
def mergeFold (c : DCx) (tx ty tz : Tensor) (x : Nat × Nat) : DM (List DWr) := do
  let (rank, k) := x
  let c2 := mergeC2 c
  let rs ← (List.range 16).mapM fun q => do
    let b ← dBytes c tx rank q 0 (k * precBytes c2)
    pure (precsOf k c2 b)
  let acc := (rs.drop 1).foldl (fun a b => (a.zip b).map fun y => foldRec y.1 y.2) (rs.headD [])
  let a ← wrMember c ty rank 0 (acc.map (·.bytes)).flatten
  let b ← wrMember c tz rank 0 (acc.map fun r => bytesLE 4 r.m).flatten
  pure (a ++ b)

/-- VMERGE MODE 0. -/
def vmergeBody (c : DCx) : DM DRes := do
  let tx ← operand c 0
  let ty ← operand c 1
  let tz ← operand c 2
  let len ← dLen c
  let s ← get
  let ks ← (List.range (nMembers s c.p)).mapM fun r => do
    let k ← placeCount c len ty r 0
    pure (r, k)
  let l ← (ks.filter fun x => x.2 ≠ 0).mapM (mergeFold c tx ty tz)
  dCommit c l.flatten
  pure { fl := 0, idle := ks.all fun x => x.2 = 0 }

/-- VMERGE MODE 1: each record rescaled to the maximum in TZ. -/
def vmergeRescaleBody (c : DCx) : DM DRes := do
  let tx ← operand c 0
  let ty ← operand c 1
  let tz ← operand c 2
  let c2 := mergeC2 c
  let ps ← placesOf c [tx, ty] ty
  let l ← (ps.filter fun x => x.2.2 ≠ 0).mapM fun x => do
    let b ← dBytes c tx x.1 x.2.1 0 (x.2.2 * precBytes c2)
    let g ← dBytes c tz x.1 x.2.1 0 (4 * x.2.2)
    let rs := (precsOf x.2.2 c2 b).zip (u32s x.2.2 g)
    wrBytes c ty x.1 x.2.1 0 (rs.map fun r => (rescaleRec r.2 r.1).bytes).flatten
  dCommit c l.flatten
  pure { fl := 0, idle := ps.all fun x => x.2.2 = 0 }

/-- VMERGE MODE 2: O / s in the output format; its flags enter the flag word. -/
def vmergeNormaliseBody (c : DCx) : DM DRes := do
  let tx ← operand c 0
  let ty ← operand c 1
  let c2 := mergeC2 c
  let fmt := bits (dArg0 c.d) 4 4
  let ps ← placesOf c [tx, ty] ty
  let l ← (ps.filter fun x => x.2.2 ≠ 0).mapM fun x => do
    let b ← dBytes c tx x.1 x.2.1 0 (x.2.2 * precBytes c2)
    let zs := (precsOf x.2.2 c2 b).map fun r => r.o.map fun o => fDiv 1 0 o r.s
    let out := zs.map fun z => encodeRow fmt (bits (dArg0 c.d) 8 1) false (z.map (·.v))
    let ws ← wrRows c ty x.1 x.2.1 (out.map fun o => o.bytes fmt)
    pure (ws, flagsAll zs.flatten ||| out.foldl (fun f o => f ||| o.fl) 0)
  dCommit c (joinW l).1 (joinW l).2
  pure { fl := (joinW l).2, idle := ps.all fun x => x.2.2 = 0 }

/-! ### VSAMPLE (R522–R524, R526) -/

def sampKs (c : DCx) : Nat := bits (dArg0 c.d) 2 7

/-- Insert an entry (value, index) by descending rank, equal ranks by lower index (R522). -/
def entryInsert (x : Nat × Nat) : List (Nat × Nat) → List (Nat × Nat)
  | [] => [x]
  | y :: ys => if fRank32 y.1 < fRank32 x.1 || (fRank32 y.1 = fRank32 x.1 && x.2 < y.2) then x :: y :: ys else y :: entryInsert x ys

/-- The KS entries of highest rank. -/
def topEntries (ks : Nat) (l : List (Nat × Nat)) : List (Nat × Nat) := (l.foldl (fun a x => entryInsert x a) []).take ks

/-- The entries of each row on every position of TX; padding entries rank as NaN (R522). -/
def sampEntries (c : DCx) (tx : Tensor) (k : Nat) : DM (List (List (Nat × Nat))) := do
  let s ← get
  let ks := sampKs c
  let rs ← (places (nMembers s c.p) [tx]).mapM fun x => do
    let b ← dBytes c tx x.1 x.2 0 (k * topkBytes ks)
    pure ((List.range k).map fun r =>
      let rec_ := b.drop (r * topkBytes ks)
      ((u32s ks rec_).zip (u32s ks (rec_.drop (4 * ks)))).map fun e => if e.2 = 0xFFFFFFFF then (fNan 1, e.2) else e)
  pure ((List.range k).map fun r => (rs.map fun x => x.getD r []).flatten)

/-- mix of R523. -/
def mix64 (z : Nat) : Nat :=
  let z := (z % 2 ^ 64 ^^^ (z % 2 ^ 64) >>> 30) * 0xBF58476D1CE4E5B9 % 2 ^ 64
  let z := (z ^^^ z >>> 27) * 0x94D049BB133111EB % 2 ^ 64
  z ^^^ z >>> 31

/-- uniform of R523, as FP32. -/
def uniform32 (seed q draw : Nat) : Nat :=
  let x := mix64 (seed % 2 ^ 64 ^^^ mix64 (q * 256 + draw))
  (fRound 1 0 false (x >>> 40) (-24)).v

/-- The weight e of an entry of sample(c), with the flags of its operations. -/
def sampleWeight (v0 v : Nat) : FRes :=
  if (fDec 1 v).isNan || v = f32NegInf then ⟨0, 0⟩
  else if eqF32 v v0 then ⟨f32One, 0⟩
  else
    let d := fSub 1 0 v v0
    let e := transc 0 1 d.v
    ⟨e.v, d.fl ||| e.fl⟩

/-- The running sums S of sample(c). -/
def sampleSums (v0 : Nat) : Nat → List (Nat × Nat) → List FRes
  | _, [] => []
  | acc, x :: xs =>
    let t := fl2 (fAdd 1 0) ⟨acc, 0⟩ (sampleWeight v0 x.1)
    t :: sampleSums v0 t.v xs

/-- sample(c) of R522: the token, with the flags of its operations (log 22). -/
def sampleRow (ks topP seed q : Nat) (l : List (Nat × Nat)) : FRes :=
  let es := topEntries ks l
  let v0 := (es.headD (0, 0)).1
  if ks = 1 || (fDec 1 v0).isNan || v0 = f32NegInf then ⟨(es.headD (0, 0)).2, 0⟩
  else
    let rs := sampleSums v0 0 es
    let ss := rs.map (·.v)
    let bar := fMul 1 0 topP (ss.getLastD 0)
    let n := min ((ss.findIdx fun x => (fCmp 1 2 bar.v x).v == 1) + 1) ss.length
    let th := fMul 1 0 (uniform32 seed q 0) (ss.getD (n - 1) 0)
    let j := (ss.take n).findIdx fun x => (fCmp 1 1 th.v x).v == 1
    ⟨(es.getD (min j (n - 1)) (0, 0)).2, flagsAll rs ||| bar.fl ||| th.fl⟩

/-- The DT at which a descriptor issued. -/
def issuedAt (s : State) (c : DCx) : Nat := match (polder s c.p).run with | some v => tget s.dt v.issueDt c.i | none => s.dt

/-- VSAMPLE MODE 0. -/
def vsampleBody (c : DCx) : DM DRes := do
  let tx ← operand c 0
  let ty ← operand c 1
  let len ← dLen c
  let k ← placeCount c len ty 0 0
  let a0 := dArg0 c.d
  let seed ← pword c (bits a0 22 12)
  let posw ← pword c (bits a0 34 12)
  let pos := posw % 2 ^ 32
  let es ← sampEntries c tx k
  if es.any fun l => l.all fun x => x.2 = 0xFFFFFFFF then invalid c
  else do
    let s ← get
    let anc ← if bit a0 9 then do
        let b ← dBytes c (tensorAt (polder s c.p) (bits a0 10 12)) 0 0 0 (8 * k)
        pure (some (u64s k b))
      else pure none
    let q := fun (i : Nat) => match anc with | some a => pos + popcount 64 (a.getD i 0) | none => pos + i + 1
    let toks := es.zipIdx.map fun x => sampleRow (sampKs c) (bits (dArg1 c.d) 0 32) seed (q x.2) x.1
    let a ← wrEverywhere c ty 0 (toks.map fun t => bytesLE 4 t.v).flatten
    let b ← wrEverywhere c ty 256 (bytesLE 8 (issuedAt s c))
    if k ≠ 0 then dCommit c (a ++ b) (flagsAll toks)
    pure { fl := flagsAll toks, idle := k = 0 }

/-- VSAMPLE MODE 1 (R524). -/
def vsampleIndicesBody (c : DCx) : DM DRes := do
  let tx ← operand c 0
  let ty ← operand c 1
  let len ← dLen c
  let k ← placeCount c len ty 0 0
  let es ← sampEntries c tx k
  let l ← es.zipIdx.mapM fun x =>
    wrEverywhere c ty (x.2 * ty.rowBytes) ((topEntries (sampKs c) x.1).map fun e => bytesLE 4 e.2).flatten
  dCommit c l.flatten
  pure { fl := 0, idle := k = 0 }

/-- A token record (Table 15-8). -/
def tokenRec (seq tok pos inv fl dt n : Nat) : List Byte :=
  bytesLE 4 seq ++ bytesLE 4 tok ++ bytesLE 4 pos ++ bytesLE 3 inv ++ bytesLE 1 fl ++ bytesLE 8 dt ++ bytesLE 2 n ++ bytesLE 2 0 ++ bytesLE 4 seq

/-- Runs of consecutive ring slots for records from slot `s0`: offset of the first, and the records (R519). -/
def ringRuns (cap : Nat) : Nat → Nat → List (List Byte) → List (Nat × List Byte)
  | 0, _, _ => []
  | fuel + 1, slot, rs =>
    if rs.isEmpty then []
    else
      let n := cap - slot % cap
      (32 * (slot % cap), (rs.take n).flatten) :: ringRuns cap fuel (slot + n) (rs.drop n)

/-- The writes of token records (R519): into the host buffer, or, for a tensor elsewhere, its bytes as a ring (log 22). -/
def tokenWrites (c : DCx) (ty : Tensor) (seq : Nat) (rs : List (List Byte)) : DM (List DWr) := do
  let s ← get
  let runs := fun (cap : Nat) => ringRuns cap rs.length seq (rs.take (2 ^ 32 - seq)) ++ ringRuns cap rs.length 0 (rs.drop (2 ^ 32 - seq))
  if ty.loc = 3 then
    let h := ty.addr % 256
    let cap := (hbuf s h).len / 32
    if cap = 0 then invalid c
    else pure ((runs cap).map fun r => .token h r.1 r.2)
  else
    let cap := (shareOf ty 0 0).2 * ty.rowBytes / 32
    if cap = 0 then invalid c
    else do
      let l ← (runs cap).mapM fun r => wrBytes c ty 0 0 r.1 r.2
      pure l.flatten

/-- A word with its low 32 bits replaced. -/
def lowWord (w v : Nat) : Nat := w / 2 ^ 32 * 2 ^ 32 + v % 2 ^ 32

/-- How many accepted tokens the step keeps, and whether it stops (R526). -/
def stopRule (toks stops : List Nat) (pos limit : Nat) : Nat × Bool :=
  let i := toks.zipIdx.findIdx fun x => (stops.filter (· ≠ 0xFFFFFFFF)).contains x.1 || limit ≤ pos + 1 + x.2
  if i < toks.length then (i + 1, true) else (toks.length, false)

/-- The count field alone, which gives C in MODE 2 (R526). -/
def plainCount (c : DCx) (ty : Tensor) : DM Nat := do
  let len ← dLen c
  placeCount c len ty 0 0

/-- VSAMPLE MODE 2 (R526). -/
def vsampleCommitBody (c : DCx) : DM DRes := do
  let tx ← operand c 0
  let ty ← operand c 1
  let tz ← operand c 2
  let a0 := dArg0 c.d
  let cc ← plainCount c ty
  let acc ← dBytes c tx 0 0 0 400
  let n0 := leAt acc 0 4
  if n0 = 0 || 64 < n0 then invalid c
  else do
    let ws ← (List.range 8).mapM (pword c)
    let posw ← pword c (bits a0 34 12)
    let st0 ← pword c (bits a0 46 12)
    let st1 ← pword c (bits a0 46 12 + 1)
    let lim ← pword c (bits (dArg1 c.d) 32 12)
    let pos := posw % 2 ^ 32
    let seq := ws.getD 3 0 % 2 ^ 32
    let stops := [st0 % 2 ^ 32, st0 / 2 ^ 32, st1 % 2 ^ 32, st1 / 2 ^ 32]
    let toks := u32s n0 (acc.drop 144)
    let (n, stop) := stopRule toks stops pos (lim % 2 ^ 32)
    let s ← get
    let live := stops.filter (· ≠ 0xFFFFFFFF)
    let recs := ((toks.take n).zipIdx).map fun x =>
      tokenRec (seq + x.2) x.1 (pos + 1 + x.2) (polder s c.p).invCur
        (b2n (decide (x.2 + 1 = n)) + 2 * b2n (live.contains x.1) + 4 * b2n stop) (leAt acc 8 8) n
    let a ← tokenWrites c ty seq recs
    let w' := ((ws.set 0 (lowWord (ws.getD 0 0) (pos + n))).set 1 (lowWord (ws.getD 1 0) (pos + n + cc))).set 3 (lowWord (ws.getD 3 0) (seq + n))
    let w' := w'.set 4 (lowWord (ws.getD 4 0) (toks.getD (n - 1) 0))
    let b ← wrEverywhere c tz 0 (w'.map (bytesLE 8)).flatten
    let h := if stop && c.rc.haltV then [DWr.sluice c.rc.haltSl] else []
    dCommit c (a ++ h ++ b)
    pure { fl := 0, idle := false }

/-! ### VACCEPT (R525) -/

/-- parent(c): the highest set bit of a[c] below bit c. -/
def parentOf (a : List Nat) (i : Nat) : Option Nat := (setBitsOf i (a.getD i 0)).getLast?

/-- The accepted path from `cur` on: each next candidate, and the last one. -/
def acceptFrom (c : Nat) (a d toks : List Nat) : Nat → Nat → List Nat
  | 0, _ => []
  | fuel + 1, cur =>
    match (span 1 (c - 1)).find? fun i => bit (a.getD i 0) i && parentOf a i == some cur && d.getD i 0 == toks.getD cur 0 with
    | none => []
    | some i => i :: acceptFrom c a d toks fuel i

/-- The accepted list (Table 16-6). -/
def acceptList (c dt : Nat) (a d toks : List Nat) : List Byte :=
  let path := acceptFrom c a d toks c 0
  let last := path.getLastD 0
  let out := path.map (fun i => d.getD i 0) ++ [toks.getD last 0]
  bytesLE 4 out.length ++ bytesLE 4 0 ++ bytesLE 8 dt ++ slice ((0 :: path).map (bytesLE 2)).flatten 0 128 ++
    slice (out.map (bytesLE 4)).flatten 0 256 ++ List.replicate 112 0

/-- VACCEPT. -/
def vacceptBody (c : DCx) : DM DRes := do
  let tx ← operand c 0
  let ty ← operand c 1
  let tz ← operand c 2
  let n ← plainCount c ty
  if n = 0 then pure { fl := 0, idle := true }
  else do
    let sr ← dBytes c tx 0 0 0 264
    let d ← dBytes c tz 0 0 0 (4 * n)
    let s ← get
    let a ← dBytes c (tensorAt (polder s c.p) (bits (dArg0 c.d) 0 12)) 0 0 0 (8 * n)
    let ws ← wrEverywhere c ty 0 (acceptList n (leAt sr 256 8) (u64s n a) (u32s n d) (u32s n sr))
    dCommit c ws
    pure { fl := 0, idle := false }

/-! ### VCOMPACT (R527, R528) -/

/-- Where row ρ of a tensor lies (R527): ranks and positions, and its row there. None where the tensor does not hold it (R528). A grist
tensor with no SHARE holds it on every position (log 22). -/
def rowHome (n : Nat) (t : Tensor) (g : Nat) : Option (List (Nat × Nat) × Nat) :=
  if t.share = 0 || (t.dist = 0 && t.loc ≠ 2) then
    (if g < t.rows then some (if t.loc = 2 then everyPos n else [(0, 0)], g) else none)
  else if t.dist = 2 && t.loc ≠ 2 then (if g < min t.rows (n * t.share) then some ([(g / t.share, 0)], g) else none)
  else if g < min t.rows (16 * n * t.share) then
    some ([(g / t.share / 16, g / t.share % 16)], if t.loc = 2 then g % t.share else g)
  else none

/-- Read row ρ. -/
def rowRead (c : DCx) (t : Tensor) (g : Nat) : DM (List Byte × List Byte) := do
  let s ← get
  match rowHome (nMembers s c.p) t g with
  | none => invalid c
  | some (at_, r) =>
    let x := at_.headD (0, 0)
    let el ← dRowPart c t x.1 x.2 r false 0 t.rowBytes
    let sc ← dRowPart c t x.1 x.2 r true 0 t.scaleBytes
    pure (el, sc)

/-- The writes of row ρ. -/
def rowWrite (c : DCx) (t : Tensor) (g : Nat) (d : List Byte × List Byte) : DM (List DWr) := do
  let s ← get
  match rowHome (nMembers s c.p) t g with
  | none => invalid c
  | some (at_, r) =>
    let l ← at_.mapM fun x => do
      let a ← wrPart c t x.1 x.2 r false 0 d.1
      let b ← wrPart c t x.1 x.2 r true 0 d.2
      pure (a ++ b)
    pure l.flatten

/-- The segments of a source row, one per destination. -/
def segments : List Tensor → List Byte × List Byte → List (List Byte × List Byte)
  | [], _ => []
  | t :: ts, d => (d.1.take t.rowBytes, d.2.take t.scaleBytes) :: segments ts (d.1.drop t.rowBytes, d.2.drop t.scaleBytes)

/-- The element rows that a TRANS operation leaves in a shadow: the ones it writes over the ones that stand. -/
def shadowRow (c : DCx) (tz : Tensor) (new : List (Nat × List Byte)) (g : Nat) : DM (List Byte) :=
  match new.find? fun x => x.1 == g with
  | some x => pure x.2
  | none => do
    let r ← rowRead c tz g
    pure r.1

/-- Requantise one 32-key block of V^T from its shadow (R527): writes and flags. -/
def requantise (c : DCx) (ty tz : Tensor) (new : List (Nat × List Byte)) (lim blk : Nat) : DM (List DWr × Nat) := do
  let m := max 1 tz.share
  let first := blk * 32
  let pi := first / m
  let k0 := first % m
  let len := min 32 (ty.cols - k0)
  let rows ← (List.range len).mapM fun i =>
    if first + i < lim then do
      let r ← shadowRow c tz new (first + i)
      pure (some r)
    else pure none
  let l ← (List.range tz.cols).mapM fun h => do
    let xs := rows.map fun r => match r with | some b => (elemToFp32 tz.fmt 0 (elemCode tz.fmt b h)).v | none => 0
    let q := mxQuantise ty.fmt 1 xs
    let s ← get
    match rowHome (nMembers s c.p) ty (pi * ty.share + h) with
    | none => invalid c
    | some (at_, r) =>
      let ws ← at_.mapM fun x => do
        let a ← wrPart c ty x.1 x.2 r false (k0 * fBits ty.fmt / 8) (packRow ty.fmt q.elems)
        let b ← wrPart c ty x.1 x.2 r true (k0 / 32) [BitVec.ofNat 8 q.scale]
        pure (a ++ b)
      pure (ws.flatten, q.fl)
  pure (joinW l)

/-- Blocks that a list of rows touches, each once. -/
def touchedBlocks (rows : List Nat) : List Nat := rows.foldl (fun l g => insertNat l (g / 32)) []

/-- The row moves of a VCOMPACT, one per destination: source bytes for each destination row. -/
def compactWrites (c : DCx) (j : Nat) (t : Tensor) (trans : Bool) (tz : Nat → Tensor) (rows : List (Nat × (List Byte × List Byte))) (lim : Nat) :
    DM (List DWr × Nat) :=
  if trans then do
    let z := tz j
    let new := rows.map fun r => (r.1, r.2.1)
    let a ← rows.mapM fun r => rowWrite c z r.1 r.2
    let b ← (touchedBlocks (rows.map (·.1))).mapM (requantise c t z new lim)
    pure (a.flatten ++ (joinW b).1, (joinW b).2)
  else do
    let a ← rows.mapM fun r => rowWrite c t r.1 r.2
    pure (a.flatten, 0)

/-- The destinations TY + j. -/
def compactDst (c : DCx) : DM (List Tensor × (Nat → Tensor)) := do
  let iy ← tIndex c 1 (dTensor c.d 1)
  let iz ← tIndex c 2 (dTensor c.d 2)
  let s ← get
  let po := polder s c.p
  pure ((List.range (bits (dArg0 c.d) 16 8)).map fun j => tensorAt po (iy + j), fun j => tensorAt po (iz + j))

def compactTrans (c : DCx) : Bool := bit (dArg0 c.d) 2

/-- Commit the moves of every destination. -/
def compactCommit (c : DCx) (l : List (List DWr × Nat)) (idle : Bool) : DM DRes := do
  dCommit c (joinW l).1 (joinW l).2
  pure { fl := (joinW l).2, idle := idle }

/-- VCOMPACT MODE 0 and MODE 2: source row `src n` to row `dst n` of each destination, below row `lim` of the shadow. -/
def compactFrom (c : DCx) (k : Nat) (src : Nat → DM Nat) (dst : Nat → Nat) (lim : Nat) : DM DRes := do
  let tx ← operand c 0
  let (dsts, tz) ← compactDst c
  let parts := if compactTrans c then dsts.zipIdx.map fun t => tz t.2 else dsts
  let rows ← (List.range k).mapM fun n => do
    let g ← src n
    if tx.rows ≤ g then invalid c
    else do
      let d ← rowRead c tx g
      pure (dst n, segments parts d)
  let l ← dsts.zipIdx.mapM fun t => compactWrites c t.2 t.1 (compactTrans c) tz (rows.map fun r => (r.1, r.2.getD t.2 ([], []))) lim
  compactCommit c l (k = 0)

/-- VCOMPACT MODE 0: append the new rows at POS. -/
def vcompactAppendBody (c : DCx) : DM DRes := do
  let (dsts, _) ← compactDst c
  let k ← plainCount c (dsts.headD (tensorOf ttEmpty))
  let w ← pword c (bits (dArg0 c.d) 4 12)
  let pos := w % 2 ^ 32
  compactFrom c k (fun n => pure n) (fun n => pos + n) (pos + k)

/-- VCOMPACT MODE 2: gather row w[c]. -/
def vcompactGatherBody (c : DCx) : DM DRes := do
  let (dsts, _) ← compactDst c
  let k ← plainCount c (dsts.headD (tensorOf ttEmpty))
  let src := fun (n : Nat) => do
    let w ← pword c (bits (dArg0 c.d) 24 12 + n)
    pure (w % 2 ^ 32)
  compactFrom c k src (fun n => n) k

/-- The moves of MODE 1 in their order: a row that an earlier move wrote is read as that move left it. -/
def moveRows (c : DCx) (t : Tensor) (dst src : Nat → Nat) : List Nat → List (Nat × (List Byte × List Byte)) →
    DM (List (Nat × (List Byte × List Byte)))
  | [], new => pure new
  | i :: rest, new => do
    let d ← match (new.filter fun x => x.1 == src i).getLast? with
      | some x => pure x.2
      | none => rowRead c t (src i)
    moveRows c t dst src rest (new ++ [(dst i, d)])

/-- VCOMPACT MODE 1: move the accepted rows together. -/
def vcompactMoveBody (c : DCx) : DM DRes := do
  let tx ← operand c 0
  let (dsts, tz) ← compactDst c
  let w ← pword c (bits (dArg0 c.d) 4 12)
  let pos := w % 2 ^ 32
  let acc ← dBytes c tx 0 0 0 144
  let n := leAt acc 0 4
  if n = 0 || 64 < n then invalid c
  else do
    let l ← dsts.zipIdx.mapM fun t => do
      let from_ := if compactTrans c then tz t.2 else t.1
      let rows ← moveRows c from_ (fun i => pos + i) (fun i => pos + leAt acc (16 + 2 * i) 2) (span 1 (n - 1)) []
      compactWrites c t.2 t.1 (compactTrans c) tz rows (pos + n)
    compactCommit c l false

/-! ### The commands -/

/-- A kind with its MODE. -/
def kindMode (k m : Nat) (d : List Byte) : Bool := dKind d == k && bits (dArg0 d) 0 2 == m

/-- VMAP (R257). -/
def execVmap (p i : Nat) (s : State) : Result := done (issueDesc p i (kindIs 0x10) vmapBody s)

/-- VNORM (R257). -/
def execVnorm (p i : Nat) (s : State) : Result := done (issueDesc p i (kindIs 0x11) vnormBody s)

/-- VMERGE (R521), MODE 0. -/
def execVmerge (p i : Nat) (s : State) : Result := done (issueDesc p i (kindMode 0x12 0) vmergeBody s)

/-- VMERGE_RESCALE (R521), MODE 1. -/
def execVmergeRescale (p i : Nat) (s : State) : Result := done (issueDesc p i (kindMode 0x12 1) vmergeRescaleBody s)

/-- VMERGE_NORMALISE (R521), MODE 2. -/
def execVmergeNormalise (p i : Nat) (s : State) : Result := done (issueDesc p i (kindMode 0x12 2) vmergeNormaliseBody s)

/-- VSAMPLE (R522), MODE 0. -/
def execVsample (p i : Nat) (s : State) : Result := done (issueDesc p i (kindMode 0x13 0) vsampleBody s)

/-- VSAMPLE_INDICES (R524), MODE 1. -/
def execVsampleIndices (p i : Nat) (s : State) : Result := done (issueDesc p i (kindMode 0x13 1) vsampleIndicesBody s)

/-- VSAMPLE_COMMIT (R526), MODE 2. -/
def execVsampleCommit (p i : Nat) (s : State) : Result := done (issueDesc p i (kindMode 0x13 2) vsampleCommitBody s)

/-- VACCEPT (R525). -/
def execVaccept (p i : Nat) (s : State) : Result := done (issueDesc p i (kindIs 0x14) vacceptBody s)

/-- VCOMPACT_APPEND (R527), MODE 0. -/
def execVcompactAppend (p i : Nat) (s : State) : Result := done (issueDesc p i (kindMode 0x15 0) vcompactAppendBody s)

/-- VCOMPACT_MOVE (R527), MODE 1. -/
def execVcompactMove (p i : Nat) (s : State) : Result := done (issueDesc p i (kindMode 0x15 1) vcompactMoveBody s)

/-- VCOMPACT_GATHER (R527), MODE 2. -/
def execVcompactGather (p i : Nat) (s : State) : Result := done (issueDesc p i (kindMode 0x15 2) vcompactGatherBody s)

end Sys2Proof.Machine
end

