-- ==== Sys2Proof/Machine/Movers.lean ====
section
/-! DEFINITION. Mover and collective descriptors (Tables 8-3, 8-6; R109, R111–R119, R258, R259, R472–R475, R518). -/

namespace Sys2Proof.Machine

/-! ### MCOPY, MFILL, MEVENT -/

/-- MCOPY: rows of TX bit for bit into TY. -/
def mcopyBody (c : DCx) : DM DRes := do
  let tx ← operand c 0
  let ty ← operand c 1
  let ps ← placesOf c [tx, ty] ty
  let l ← ps.mapM fun x => do
    let rows ← dRows c tx x.1 x.2.1 x.2.2
    wrRows c ty x.1 x.2.1 (rows.map fun r => (r.1.take ty.rowBytes, r.2.take ty.scaleBytes))
  dCommit c l.flatten
  pure { fl := 0, idle := ps.all fun x => x.2.2 = 0 }

/-- `n` bytes of a repeated 64-bit pattern. -/
def patternBytes (pat n : Nat) : List Byte := ((List.range (n / 8 + 1)).flatMap fun _ => bytesLE 8 pat).take n

/-- MFILL: the pattern of ARG0 over the rows of TY, scale bytes included. -/
def mfillBody (c : DCx) : DM DRes := do
  let ty ← operand c 1
  let ps ← placesOf c [ty] ty
  let row := (patternBytes (dArg0 c.d) ty.rowBytes, patternBytes (dArg0 c.d) ty.scaleBytes)
  let l ← ps.mapM fun x => wrRows c ty x.1 x.2.1 (List.replicate x.2.2 row)
  dCommit c l.flatten
  pure { fl := 0, idle := ps.all fun x => x.2.2 = 0 }

/-- MEVENT: a user event with the descriptor's LS and ARG0 (R518); with a run-time count of 0 on the lead it performs nothing (R266, R268). -/
def meventBody (c : DCx) : DM DRes := do
  let len ← dLen c
  let k ← countOn c len (dCount c.d) 0 0
  if len.isSome && k = 0 then pure { fl := 0, idle := true }
  else do
    modify fun s =>
      let cd := leadOf s c.p
      post s (mkRec s (lsDesc s c.p c.i 0 cd) 2 0 cd 0 (bytesLE 8 (dArg0 c.d)))
    pure { fl := 0, idle := false }

/-! ### MUPDATE -/

/-- The updates of one atom piece of a row: where, the elements, and where their old values go in TZ. -/
structure UpdPart where
  rank : Nat
  pa : Nat
  xs : List Nat
  row : Nat
  off : Nat
  pos : Nat
  deriving DecidableEq, Repr

/-- Cut a row's elements over its physical pieces; an element that is not naturally aligned is run-time invalid (R425). -/
def updParts (c : DCx) (sz rank pos row : Nat) : List (Nat × Nat) → Nat → List Nat → DM (List UpdPart)
  | [], _, _ => pure []
  | (pa, n) :: ps, off, xs =>
    if pa % sz ≠ 0 || n % sz ≠ 0 then invalid c
    else do
      let rest ← updParts c sz rank pos row ps (off + n) (xs.drop (n / sz))
      pure ({ rank := rank, pa := pa, xs := xs.take (n / sz), row := row, off := off, pos := pos } :: rest)

/-- The updates one place issues, in ascending row: TX's elements against TY's (R258). -/
def updPlace (c : DCx) (tx ty : Tensor) (sz : Nat) (x : Nat × Nat × Nat) : DM (List UpdPart) := do
  let l ← (List.range x.2.2).mapM fun i => do
    let r ← dRow c tx x.1 x.2.1 i
    let g ← rowIn c ty x.1 x.2.1 i
    let k := min r.1.length ty.rowBytes / sz
    let ps ← dXlat c x.1 (ty.addr + g * ty.pitch) (k * sz) 3
    if !dOrdered c.d then notHeld ps
    let s ← get
    if ty.loc ≠ 1 then invalid c
    else if imageHit s ps then throw (.violate vImage (ty.addr + g * ty.pitch) c.sub (c.mover x.1))
    else updParts c sz x.1 x.2.1 i ps 0 (elemsOf sz k r.1)
  pure l.flatten

/-- Perform one piece at its adder, its flags raised (R142); the old elements come back. -/
def updApply (c : DCx) (op fmt cmp : Nat) (u : UpdPart) : DM (UpdPart × UpdRes) := do
  let r ← dm fun s =>
    let m := { dCtx s c u.rank with req := .descUpdate c.p c.i }
    match updateAtom s m u.pa op fmt u.xs cmp with
    | (.ok r, s) => (.ok (u, r), modCore s c.p fun k => dcInval k u.pa (opSize fmt * u.xs.length))
    | (.error e, s) => (.error (memStop s m 2 e), s)
  dRaise c r.2.fl
  pure r

/-- A free order of a list: unordered updates reach their adders in any order (R118, R119; log 3). -/
def freeOrder {α : Type} : Nat → List α → DM (List α)
  | 0, l => pure l
  | n + 1, l =>
    dm fun s =>
      let (k, s) := drawPick s l.length
      match l[k]? with
      | none => (.ok [], s)
      | some x => (do let r ← freeOrder n (l.eraseIdx k); pure (x :: r) : DM (List α)) s

/-- The places of an MUPDATE: an ordered one is issued by every counted member (R258). -/
def updPlaces (c : DCx) (n : Nat) (tx ty : Tensor) : List (Nat × Nat) :=
  let ps := places n [tx, ty]
  if dOrdered c.d then
    (if ps.length = 1 then (List.range n).map fun r => (r, 0) else ps).filter fun x => x.1 < dContrib c.d
  else ps

/-- Where an ordered update's old elements go. -/
def retTo (s : State) (p : Nat) : Option DTarget → RetTo
  | some (.mem rank ps _) => .mem (cdOfRank s p rank) ps
  | some (.grist rank pos off _) => .grist (cdOfRank s p rank) pos off
  | some (.host h off _) => .host h off
  | _ => .none

/-- The adders of a polder: its members' stack controllers and the FM dies. -/
def addersOf (s : State) (p : Nat) : List Nat := members s p ++ [25, 26, 27, 28]

/-- What one source of an ordered MUPDATE sends (R111, R112): its updates in issue order, then its end marker to every adder. -/
def sourceSends (s : State) (c : DCx) (op fmt : Nat) (us : List (UpdPart × RetTo)) (rank : Nat) : List Flight :=
  let src := cdOfRank s c.p rank
  let win := fun (adder : Nat) => ({ adder := adder, p := c.p, i := c.i, sub := c.sub, src := src } : UpdWindow)
  (us.filter (·.1.rank == rank)).map (fun u =>
    { win := win (homeDie u.1.pa), upd := some { pa := u.1.pa, op := op, fmt := fmt, elems := u.1.xs.map toW, cmp := toW (dArg1 c.d), tag := 0 },
      tag := none, early := false, ret := u.2 }) ++
    (addersOf s c.p).map fun a => { win := win a, upd := none, tag := none, early := false, ret := .none }

/-- An ordered update takes a tag of its source; where none is free its source stalls in line (R480). An end marker holds none. -/
def flightTag (s : State) (f : Flight) : Flight × State :=
  match f.upd, f.tag with
  | some u, none =>
    let r := Requester.descUpdate f.win.p f.win.i
    let ls := lsDesc s f.win.p f.win.i f.win.sub f.win.src
    match if tagFor s f.win.src r then takeTag s f.win.src { kind := 2, dest := f.win.adder, addr := u.pa, ls := ls, req := r } else none with
    | some (n, s) => ({ f with tag := some n }, dropWaiter s f.win.src (· == r))
    | none => (f, addWaiter s f.win.src { kind := 2, dest := f.win.adder, addr := u.pa, ls := ls, req := r, first := false, granted := false })
  | _, _ => (f, s)

/-- Send a list of updates and markers. -/
def sendFlights (s : State) (l : List Flight) : State :=
  l.foldl (fun s f =>
    let (f, s) := flightTag s f
    { s with fabric := { s.fabric with flight := s.fabric.flight ++ [f] } }) s

/-- MUPDATE. In ordered mode the updates and end markers leave in issue order, and the adders apply them as they arrive (R111–R116). -/
def mupdateBody (c : DCx) : DM DRes := do
  let tx ← operand c 0
  let ty ← operand c 1
  let tz ← operand c 2
  let op := bits (dArg0 c.d) 0 3
  let fmt := bits (dArg0 c.d) 4 3
  let sz := opSize fmt
  let len ← dLen c
  let s ← get
  let ps ← (updPlaces c (nMembers s c.p) tx ty).mapM fun x => do
    let n ← placeCount c len ty x.1 x.2
    pure (x.1, x.2, n)
  let us ← ps.mapM (updPlace c tx ty sz)
  let ret := op = 3 || op = 4
  let zs ← if ret then do
      let l ← us.flatten.mapM fun u => do
        let g ← rowIn c tz u.rank u.pos u.row
        wrPart c tz u.rank u.pos g false u.off (List.replicate (sz * u.xs.length) 0)
      l.flatten.mapM (dResolve c)
    else pure []
  let us := us.flatten
  if dOrdered c.d then
    let l := us.zipIdx.map fun u => (u.1, retTo s c.p zs[u.2]?)
    if !ps.all fun x => x.2.2 = 0 then
      modify fun s => sendFlights s ((List.range (dContrib c.d)).flatMap (sourceSends s c op fmt l))
    pure { fl := 0, idle := ps.all fun x => x.2.2 = 0 }
  else
    let us ← freeOrder us.length us
    let rs ← us.mapM (updApply c op fmt (dArg1 c.d))
    if ret && !zs.isEmpty then
      let l ← rs.mapM fun r => do
        let g ← rowIn c tz r.1.rank r.1.pos r.1.row
        wrPart c tz r.1.rank r.1.pos g false r.1.off (r.2.old.map (bytesLE sz)).flatten
      dCommit c l.flatten
    pure { fl := 0, idle := ps.all fun x => x.2.2 = 0 }

/-! ### Hubs (R23, R25, R468–R472) -/

/-- How many bytes of a payload of `n` bytes at an address a hub carries: the atoms whose bit [8] names it, or all where it serves alone (R23,
R25). -/
def hubBytes (s : State) (a n hub : Nat) : Nat :=
  if (hubsIn s).length = 2 then (((pieces a n).filter fun x => x.1 / 256 % 2 == hub).map (·.2)).sum else if (hubsIn s).contains hub then n else 0

/-- The hubs that a payload uses. -/
def hubsFor (s : State) (a n : Nat) : List Nat := [0, 1].filter fun h => hubBytes s a n h ≠ 0

/-- A payload of a collective goes through the hubs: it waits where none is in service, and ends with TX_LINK where a member has lost
its bundle to a hub that carries it (R469). A polder of one CD needs no hub. -/
def hubPass (c : DCx) (a n kind : Nat) : DM Unit := do
  let s ← get
  if nMembers s c.p ≤ 1 then pure ()
  else if (hubsIn s).isEmpty then throw .hold
  else match ((members s c.p).flatMap fun m => (hubsFor s a n).map fun h => (m, h)).find? fun x => bundleLost s x.1 x.2 with
    | some x => throw (.error (lostRec s (lsDesc s c.p c.i c.sub x.1) x.1 x.2 kind))
    | none => pure ()

/-- Where a tensor's bytes lie, for the hub split of R23. The spec gives grist no physical address: the grist byte address stands in for it
(DESIGN CHOICE, log 18). -/
def splitAddr (t : Tensor) : Nat := if t.loc = 2 then t.addr * 32 else t.addr

/-! ### Collectives -/

/-- COUNT of a collective on a position (R266): elements or bytes; 0 takes `all` of them. -/
def collCount (c : DCx) (len : Option Nat) (all rank pos : Nat) : DM Nat := countOn c len (if dCount c.d = 0 then all else dCount c.d) rank pos

/-- What each member contributes: its count at its position 0 (log 18). -/
def collCounts (c : DCx) (len : Option Nat) (all : Nat) : DM (List Nat) := do
  let s ← get
  (List.range (nMembers s c.p)).mapM fun r => collCount c len all r 0

/-- The writes of a collective's result: each place of TY takes the elements that its count covers, or all of them where `whole`. -/
def collWrites (c : DCx) (len : Option Nat) (all : Nat) (ty : Tensor) (unit : Nat → Nat) (whole : Bool) (data : List Byte) : DM (List DWr) := do
  let s ← get
  let l ← (places (nMembers s c.p) [ty]).mapM fun x => do
    let k ← collCount c len all x.1 x.2
    if k = 0 then pure [] else wrBytes c ty x.1 x.2 0 (if whole then data else data.take (unit k))
  pure l.flatten

/-- Elements of all rows of a tensor. -/
def allElems (t : Tensor) : Nat := (shareOf t 0 0).2 * t.cols

/-- One member's elements added to the running results; a member whose count is lower brings none beyond it (R266). -/
def reduceWith (op fmt : Nat) : List FRes → List Nat → List FRes
  | [], l => l.map fun v => ⟨v, 0⟩
  | l, [] => l
  | a :: as, v :: vs =>
    let r := adderOp op fmt a.v v 0
    ⟨r.v, a.fl ||| r.fl⟩ :: reduceWith op fmt as vs

/-- Elements of every member's contribution summed in ascending CD number (R109). -/
def reduceAll (op fmt : Nat) (l : List (List Nat)) : List FRes := l.foldl (reduceWith op fmt) []

/-- CALLRED (R109): a member contributes from its position 0 (log 18), the result goes to every place of TY. -/
def callredBody (c : DCx) : DM DRes := do
  let tx ← operand c 0
  let ty ← operand c 1
  let op := bits (dArg0 c.d) 0 3
  let fmt := bits (dArg0 c.d) 4 3
  let sz := opSize fmt
  let len ← dLen c
  let ks ← collCounts c len (allElems ty)
  let xs ← ks.zipIdx.mapM fun k => do
    let b ← dBytes c tx k.2 0 0 (k.1 * sz)
    pure (elemsOf sz k.1 b)
  let n := ks.foldl max 0 * sz
  hubPass c (splitAddr ty) n 6
  let rs := reduceAll op fmt xs
  let ws ← collWrites c len (allElems ty) ty (· * sz) false (rs.map fun r => bytesLE sz r.v).flatten
  modify fun s => modRun s c.p fun v => { v with reds := tins v.reds c.i (n, splitAddr ty) }
  dCommit c ws (flagsAll rs)
  pure { fl := flagsAll rs, idle := n = 0 }

/-- Bytes of `k` elements of a tensor. -/
def elemBytes (t : Tensor) (k : Nat) : Nat := (k * fBits t.fmt + 7) / 8

/-- CBCAST: the root's elements to every member (R472). -/
def cbcastBody (c : DCx) : DM DRes := do
  let tx ← operand c 0
  let ty ← operand c 1
  let root := bits (dArg0 c.d) 0 5
  let len ← dLen c
  let s ← get
  if nMembers s c.p ≤ root then invalid c
  else do
    let ks ← collCounts c len (allElems ty)
    let b ← dBytes c tx root 0 0 (elemBytes tx (ks.foldl max 0))
    hubPass c (splitAddr ty) b.length 5
    let ws ← collWrites c len (allElems ty) ty (elemBytes tx) false b
    dCommit c ws
    pure { fl := 0, idle := ks.all (· == 0) }

/-- CGATHER: every member's elements, concatenated in rank order, to every member (R472). -/
def cgatherBody (c : DCx) : DM DRes := do
  let tx ← operand c 0
  let ty ← operand c 1
  let s ← get
  let len ← dLen c
  let all := allElems ty / nMembers s c.p
  let ks ← collCounts c len all
  let l ← ks.zipIdx.mapM fun k => dBytes c tx k.2 0 0 (elemBytes tx k.1)
  hubPass c (splitAddr ty) l.flatten.length 5
  let ws ← collWrites c len all ty (elemBytes tx) true l.flatten
  dCommit c ws
  pure { fl := 0, idle := ks.all (· == 0) }

/-- The rank of the next or previous CD of the ring, where it is a member (R22). -/
def ringRank (s : State) (p r : Nat) (next : Bool) : Option Nat :=
  let cd := cdOfRank s p r
  let o := if next then (cd + 1) % 24 else (cd + 23) % 24
  if (members s p).contains o && o ≠ cd then some (rankOf s p o) else none

/-- The planes one member receives from the next or the previous CD: what that CD sent towards it, `ks` the counts by rank. Which half of a
run each direction has is a free choice of the implementation (log 18). -/
def haloPlane (c : DCx) (tx : Tensor) (ks : List Nat) (r : Nat) (fromNext : Bool) : DM (Option (List Byte)) := do
  let s ← get
  match ringRank s c.p r fromNext with
  | none => pure none
  | some o => do
    let towardsNext := !fromNext
    let k := ks.getD o 0
    let b ← dBytes c tx o 0 (if towardsNext == Config.haloOutNext then 0 else k) k
    pure (some (b.take (ks.getD r 0)))

/-- CHALO: COUNT bytes each way between ring neighbours. Traffic of a ring link that is down goes through the hubs (R470). -/
def chaloBody (c : DCx) : DM DRes := do
  let tx ← operand c 0
  let ty ← operand c 1
  let len ← dLen c
  let ks ← collCounts c len ((shareOf ty 0 0).2 * ty.rowBytes / 2)
  let l ← (List.range ks.length).mapM fun r => do
    let k := ks.getD r 0
    let nx ← haloPlane c tx ks r true
    let pv ← haloPlane c tx ks r false
    let put := fun (b : Option (List Byte)) (next : Bool) =>
      match b with
      | some b => wrMember c ty r (if next == Config.haloInNext then 0 else k) b
      | none => pure []
    let a ← put nx true
    let b ← put pv false
    pure (a ++ b)
  if !ks.all (· == 0) then dCommit c l.flatten
  pure { fl := 0, idle := ks.all (· == 0) }

/-! ### The commands -/

/-- MCOPY (R252). -/
def execMcopy (p i : Nat) (s : State) : Result := done (issueDesc p i (kindIs 0x20) mcopyBody s)

/-- MUPDATE (R258). -/
def execMupdate (p i : Nat) (s : State) : Result := done (issueDesc p i (kindIs 0x21) mupdateBody s)

/-- MFILL (R252). -/
def execMfill (p i : Nat) (s : State) : Result := done (issueDesc p i (kindIs 0x22) mfillBody s)

/-- MEVENT (R518). -/
def execMevent (p i : Nat) (s : State) : Result := done (issueDesc p i (kindIs 0x23) meventBody s)

/-- CALLRED (R109). -/
def execCallred (p i : Nat) (s : State) : Result := done (issueDesc p i (kindIs 0x30) callredBody s)

/-- CBCAST (R472). -/
def execCbcast (p i : Nat) (s : State) : Result := done (issueDesc p i (kindIs 0x31) cbcastBody s)

/-- CGATHER (R472). -/
def execCgather (p i : Nat) (s : State) : Result := done (issueDesc p i (kindIs 0x32) cgatherBody s)

/-- CHALO (R259). -/
def execChalo (p i : Nat) (s : State) : Result := done (issueDesc p i (kindIs 0x33) chaloBody s)

/-- The body of a descriptor's kind, for its rerun after a not-present wait (R446). -/
def bodyOf (d : List Byte) : DCx → DM DRes :=
  let m := bits (dArg0 d) 0 2
  match dKind d with
  | 1 => matrixBody
  | 2 => chainBody
  | 0x10 => vmapBody
  | 0x11 => vnormBody
  | 0x12 => if m = 0 then vmergeBody else if m = 1 then vmergeRescaleBody else vmergeNormaliseBody
  | 0x13 => if m = 0 then vsampleBody else if m = 1 then vsampleIndicesBody else vsampleCommitBody
  | 0x14 => vacceptBody
  | 0x15 => if m = 0 then vcompactAppendBody else if m = 1 then vcompactMoveBody else vcompactGatherBody
  | 0x20 => mcopyBody
  | 0x21 => mupdateBody
  | 0x22 => mfillBody
  | 0x23 => meventBody
  | 0x30 => callredBody
  | 0x31 => cbcastBody
  | 0x32 => cgatherBody
  | _ => chaloBody

end Sys2Proof.Machine
end

