-- ==== Sys2Proof/Machine/Reduce.lean ====
section
/-! DEFINITION. Hub reductions as their contributions reach the hubs (R473–R475, R477). -/

namespace Sys2Proof.Machine

/-- The oldest reduction of a polder not yet complete: its first CALLRED in execution. -/
def oldestRed (s : State) (p : Nat) : Option Nat :=
  match running s p with
  | none => none
  | some (inv, rc) => (List.range rc.descCount).find? fun i => dKind (descAt s rc i) == 0x30 && descState inv i == some .inExec

/-- The slots open at a hub. -/
def slotsAt (s : State) (hub : Nat) : List Reduction := s.fabric.slots.filter fun r => r.key.hub == hub

/-- Running polders whose oldest reduction holds no slot of a hub: their reserve stays free. -/
def reserved (s : State) (hub : Nat) : List Nat :=
  polderNums.filter fun p => (polder s p).run.isSome && !(slotsAt s hub).any fun r => r.key.p == p && oldestRed s p == some r.key.i

/-- May a reduction open a slot: a general one, or its polder's reserve where it is the oldest. -/
def mayOpen (s : State) (k : RedKey) : Bool :=
  let own := oldestRed s k.p == some k.i
  (slotsAt s k.hub).length + ((reserved s k.hub).filter fun p => !(own && p == k.p)).length < 32

/-- The bytes of one slot per contributor. -/
def segMax : Nat := 16384

/-- The length of segment `seg` of a payload of `n` bytes at a hub (R474). -/
def segLen (n seg : Nat) : Nat := min segMax (n - segMax * seg)

/-- Is a contribution one that a hub expects: of a member, for a CALLRED in execution with its operation and format, a segment of the bytes that
the hub carries for it (R23, R474), and not yet made. -/
def redOk (s : State) (k : RedKey) (src : Nat) (d : List Byte) : Bool :=
  match running s k.p with
  | none => false
  | some (inv, rc) =>
    let x := descAt s rc k.i
    let (n, a) := tget (0, 0) inv.reds k.i
    (members s k.p).contains src && dKind x == 0x30 && descState inv k.i == some .inExec && opValid k.op k.fmt &&
      k.op == bits (dArg0 x) 0 3 && k.fmt == bits (dArg0 x) 4 3 && segMax * k.seg < hubBytes s a n k.hub &&
      d.length == segLen (hubBytes s a n k.hub) k.seg && !inv.redDone.contains k && !(s.fabric.redWait.any fun w => w.1 == k && w.2.1 == src) &&
      !s.fabric.slots.any fun r => r.key == k && (tfind r.parts src).isSome

/-- A contribution takes its place in its slot, opens one, which the pass releases (R549), or waits at its source (R473). -/
def redPut (s : State) (k : RedKey) (src : Nat) (d : List Byte) : State :=
  if s.fabric.slots.any (·.key == k) then
    { s with fabric := { s.fabric with slots := s.fabric.slots.map fun r =>
        if r.key = k && (tfind r.parts src).isNone then { r with parts := tins r.parts src d } else r } }
  else if mayOpen s k then
    kilnRelease { s with fabric := { s.fabric with slots := s.fabric.slots ++ [{ key := k, parts := [(src, d)] }] } }
      fun u => u.type == 14 && u.die == 29 + k.hub
  else { s with fabric := { s.fabric with redWait := s.fabric.redWait ++ [(k, src, d)] } }

/-- A contribution reaches its hub under a tag that its source holds until the slot closes (R473, R478); one that needs a lost bundle ends with
TX_LINK (R469). -/
def redContribution (s : State) (k : RedKey) (src : Nat) (d : List Byte) : State :=
  let r := Requester.descriptor k.p k.i
  let ls := lsDesc s k.p k.i 0 src
  if !redOk s k src d then s
  else if bundleLost s src k.hub then detectInv s k.p (lostRec s ls src k.hub 6)
  else
    match if tagFor s src r then takeTag s src { kind := 6, dest := 29 + k.hub, addr := 0, ls := ls, req := r, work := .red k } else none with
    | some (_, s) => redPut (dropWaiter s src (· == r)) k src d
    | none => addWaiter s src { kind := 6, dest := 29 + k.hub, addr := 0, ls := ls, req := r, first := false, granted := false }

/-- Contributions that waited for a slot try again, in order. -/
def redRetry (s : State) : State :=
  let l := s.fabric.redWait
  l.foldl (fun s w => redPut s w.1 w.2.1 w.2.2) { s with fabric := { s.fabric with redWait := [] } }

/-- The contributions of a slot are answered: their tags are free. -/
def redAnswered (s : State) (k : RedKey) : State :=
  ((s.fabric.owners.flatMap fun o => o.2.tags).filter fun t => t.work == .red k).foldl (fun s t => releaseTag s t.src t.num) s

/-- Every member has contributed (R109, R475): the sum in CD order goes to every member, each under a tag of the hub, its flags enter the
invocation's flag word, and the slot closes. The members' own writes are CALLRED's (log 20). -/
def redResult (s : State) (k : RedKey) : State :=
  match s.fabric.slots.find? (·.key == k) with
  | none => s
  | some r =>
    let mem := members s k.p
    if !mem.all fun c => (tfind r.parts c).isSome then s
    else match mem.find? fun m => bundleLost s m k.hub with
      | some m => detectInv s k.p (lostRec s (lsDesc s k.p k.i 0 m) m k.hub 7)
      | none =>
        let q := Requester.descriptor k.p k.i
        if !tagFor s (29 + k.hub) q then
          addWaiter s (29 + k.hub) { kind := 7, dest := leadOf s k.p, addr := 0, ls := lsDesc s k.p k.i 0 (29 + k.hub), req := q, first := false, granted := false }
        else
          let s := mem.foldl (fun s _ => tagPulse s (29 + k.hub)) (dropWaiter s (29 + k.hub) (· == q))
          let sz := opSize k.fmt
          let rs := reduceAll k.op k.fmt (mem.map fun c => let d := tget [] r.parts c; elemsOf sz (d.length / sz) d)
          let s := modRun s k.p fun v => { v with flags := v.flags ||| BitVec.ofNat 5 (flagsAll rs), redDone := v.redDone ++ [k] }
          redRetry (redAnswered { s with fabric := { s.fabric with slots := s.fabric.slots.filter fun x => x.key ≠ k } } k)

/-- Does a descriptor's reduction still hold slots or contributions. -/
def redPending (s : State) (p i : Nat) : Bool :=
  (s.fabric.slots.any fun r => r.key.p == p && r.key.i == i) || s.fabric.redWait.any fun w => w.1.p == p && w.1.i == i

end Sys2Proof.Machine
end

