-- ==== Sys2Proof/Machine/Ring.lean ====
section
/-! DEFINITION. Command rings (R507–R514): when a ring begins a command, the rules of its header (R511, R631), completion entries. -/

namespace Sys2Proof.Machine

/-- Statuses of Table 15-5. -/
def cmOk : Nat := 0x80
def cmRange : Nat := 0x84
def cmState : Nat := 0x85
def cmXlt : Nat := 0x87
def cmMem : Nat := 0x88
def cmViol : Nat := 0x89

/-- NAK codes of the transport (R492–R495). -/
def nakInvalid : Nat := 1
def nakAccess : Nat := 2
def nakOp : Nat := 3

/-- May ring `r` begin its next command: it is enabled and not frozen, holds a command, none is in progress or has its entry unwritten
(R509), its completion buffer has room (R510), no record of it waits for space (R517), and RST_N is not
held low (R613). -/
def ringReady (s : State) (r : Nat) : Bool :=
  let k := ring s r
  !s.power.rstLow && k.en && !k.frozen && k.busy.isNone && k.held.isEmpty && k.head ≠ k.tail && (k.cplProd + 2 ^ 32 - k.cplCons) % 2 ^ 32 ≠ cplCap s r &&
    !ringWaits s r

/-- What a completion entry carries beside the command's own fields (Table 15-6). -/
structure Cpl where
  status : Nat
  flags : Nat := 0
  detail2 : Nat := 0
  detail : Nat := 0
  result : List Byte := []
  deriving DecidableEq, Repr

/-- The 32 bytes of a completion entry. -/
def cplBytes (s : State) (h : CmdHdr) (opc : Nat) (c : Cpl) : List Byte :=
  bytesLE 1 opc ++ bytesLE 1 c.status ++ bytesLE 1 h.ring ++ bytesLE 1 c.flags ++ bytesLE 4 h.cookie ++ bytesLE 2 (ring s h.ring).head ++
    bytesLE 2 c.detail2 ++ bytesLE 4 c.detail ++ slice c.result 0 16

/-- The command of a ring completes: its entry is written as soon as it can be, and HEAD advances (R509). -/
def complete (s : State) (h : CmdHdr) (opc : Nat) (c : Cpl) : State :=
  let e := cplBytes s h opc c
  modRing s h.ring fun k => { k with busy := none, head := (k.head + 1) % 2 ^ 16, held := k.held ++ [(lsCmd s h, e)] }

/-- A command completes with a status alone. -/
def completeSt (s : State) (h : CmdHdr) (opc status : Nat) : State := complete s h opc { status := status }

/-- A violation of the ring (R511): its record, its freeze with HEAD at the command, and the entry with CM_VIOL. -/
def violateRingAt (s : State) (h : CmdHdr) (opc detail vcode addr : Nat) : State :=
  let e := cplBytes s h opc { status := cmViol, detail := detail }
  let l := lsCmd s h
  let s := freezeRing s h vcode addr
  modRing s h.ring fun k => { k with busy := none, atCmd := true, held := k.held ++ [(l, e)] }
def violateRing (s : State) (h : CmdHdr) (opc detail : Nat) : State := violateRingAt s h opc detail vCommand 0

/-- A long command begins: it holds its ring until the event that ends it (R509). -/
def begin_ (s : State) (h : CmdHdr) (opc : Nat) : State := modRing s h.ring fun k => { k with busy := some (h, opc) }

/-- Scope of an opcode (Table 15-4). -/
inductive CmdScope where
  | device
  | polder
  | either
  deriving DecidableEq, Repr

/-- Does a POLDER field break its rule (R631). -/
def polBad (sc : CmdScope) (pol : Nat) : Bool :=
  (decide (23 < pol) && pol ≠ 0xFF) || (pol = 0xFF && sc == .polder) || (pol ≠ 0xFF && sc == .device)

/-- The opcodes that a ring still performs after a class 3 error (R532): NOP and the management commands. -/
def servedFatal (opc : Nat) : Bool := opc == 1 || (0x60 ≤ opc && opc ≤ 0x6F)

/-- A ring performs a command of an opcode: nothing happens while the ring may not begin it; the header is judged (R631), then R532, then
the command's own effect. -/
def hostCmd (sc : CmdScope) (opc : Nat) (h : CmdHdr) (f : State → State) (s : State) : State :=
  if !ringReady s h.ring then s
  else if polBad sc h.pol then violateRing s h opc 3
  else if (scopeAt s 24).fatal && !servedFatal opc then completeSt s h opc cmState
  else if h.pol < 24 && !named s h.pol then completeSt s h opc cmState
  else f s

/-- A command that performs and completes in one step, its answer given with the state. -/
def quickCmd (sc : CmdScope) (opc : Nat) (h : CmdHdr) (f : State → Cpl × State) : State → State :=
  hostCmd sc opc h fun s => let (c, s) := f s; complete s h opc c

/-! ### Memory that a command names -/

/-- Is [pa, pa+len) near or far memory (Table 12-1). -/
def physOk (pa len : Nat) : Bool := (isNear pa && pa + len ≤ 0xC000000000) || (isFar pa && pa + len ≤ reserveBase)

/-- Memory that the host names by its physical address: a stack of a CD in no polder refuses it (R34). -/
def physOpen (s : State) (pa len : Nat) : Bool :=
  physOk pa len && (!isNear pa || [pa >>> 35, (pa + len - 1) >>> 35].all fun n => (cdAt s n).polder ≠ 0xFF)

/-- Reeve's reads for a command (R23 src 31; it allocates no near-cache line, log 25). -/
def reeveCtx (ls : LS) : MemCtx := { src := 31, ls := ls, cls := none, p := 0xFF, req := .reeve }

/-- Bytes of device memory for a command of Reeve: none where they are no memory, a trip stops its traffic (R595), or they cannot be corrected, which
posts its record. -/
def devRead (s : State) (ls : LS) (pa len : Nat) : Option (List Byte) × State :=
  if !physOk pa len || s.power.trip then (none, s)
  else match readSpan s (reeveCtx ls) (pieces pa len) with
    | (.ok d, s) => (some d, s)
    | (.error (.uncorr cw), s) => (none, detect s (uncorrRec s (reeveCtx ls) 1 cw) false)
    | (.error .lost, s) => (none, s)

/-! ### Results that a command writes into a host buffer -/

/-- Can a transfer to host buffer `h` leave now: its connection serves and NW has a tag for it (R478, R496). -/
def bufCan (s : State) (h : Nat) : Bool := connUp s (hbuf s h).conn && tagFor s 24 .reeve

/-- A command that writes bytes into a host buffer and completes: CM_RANGE where the handle is not valid or its LEN would be passed; it
waits while the buffer's connection is out of service or no tag is free (log 25). -/
def bufCmd (s : State) (h : CmdHdr) (opc hb off : Nat) (data : List Byte) (c : Cpl) : State :=
  if !(hbuf s hb).valid || (hbuf s hb).len < off + data.length then completeSt s h opc cmRange
  else if data.isEmpty then complete s h opc c
  else if !bufCan s hb then s
  else complete (hostWrite s hb off data (lsCmd s h) (.ring h.ring)) h opc c

end Sys2Proof.Machine
end

