-- ==== Sys2Proof/Machine/VQueue.lean ====
section
/-! DEFINITION. The members' vector queues (R346, R347, R358): what an accepted instruction does when the members perform it, in issue order. -/

namespace Sys2Proof.Machine

/-- The instructions of major opcode 0x39 that the queues hold, by function (Table 9-3). -/
def vqBody39 (f : Nat) (p : Nat) (o : VOp) : VMode → State → State :=
  match f with
  | 0x0 => vfaddBody p o
  | 0x1 => vfsubBody p o
  | 0x2 => vfmulBody p o
  | 0x3 => vfdivBody p o
  | 0x4 => vfsqrtBody p o
  | 0x5 => vfmaBody p o
  | 0x6 => vfnmaBody p o
  | 0x7 => vfminBody p o
  | 0x8 => vfmaxBody p o
  | 0x9 => vfeqBody p o
  | 0xa => vfltBody p o
  | 0xb => vfleBody p o
  | 0xc => vfnegBody p o
  | 0xd => vfabsBody p o
  | 0xe => vfsgnjBody p o
  | 0xf => vfkindBody p o
  | _ => fun _ s => s

/-- The instructions of major opcode 0x3a that the queues hold, by function (Table 9-3). -/
def vqBody3A (f : Nat) (p : Nat) (o : VOp) : VMode → State → State :=
  match f with
  | 0x0 => vaddBody p o
  | 0x1 => vsubBody p o
  | 0x2 => vmulBody p o
  | 0x3 => vmulhBody p o
  | 0x4 => vmulhuBody p o
  | 0x5 => vandBody p o
  | 0x6 => vorBody p o
  | 0x7 => vxorBody p o
  | 0x8 => vsllBody p o
  | 0x9 => vsrlBody p o
  | 0xa => vsraBody p o
  | 0xb => vminBody p o
  | 0xc => vmaxBody p o
  | 0xd => vminuBody p o
  | 0xe => vmaxuBody p o
  | 0xf => vsaddBody p o
  | 0x10 => vssubBody p o
  | 0x11 => vsadduBody p o
  | 0x12 => vssubuBody p o
  | 0x13 => vmseqBody p o
  | 0x14 => vmsltBody p o
  | 0x15 => vmsltuBody p o
  | 0x16 => vselBody p o
  | 0x17 => vmvBody p o
  | _ => fun _ s => s

/-- The instructions of major opcode 0x3b that the queues hold, by function (Table 9-3). -/
def vqBody3B (f : Nat) (p : Nat) (o : VOp) : VMode → State → State :=
  match f with
  | 0x0 => vldBody p o
  | 0x1 => vldsBody p o
  | 0x2 => vldxBody p o
  | 0x4 => vldgBody p o
  | 0x5 => vldmBody p o
  | 0x8 => vstBody p o
  | 0x9 => vstsBody p o
  | 0xa => vstxBody p o
  | 0xc => vstgBody p o
  | 0xd => vstmBody p o
  | _ => fun _ s => s

/-- The instructions of major opcode 0x3c that the queues hold, by function (Table 9-3). -/
def vqBody3C (f : Nat) (p : Nat) (o : VOp) : VMode → State → State :=
  match f with
  | 0x0 => vpermBody p o
  | 0x1 => vslideupBody p o
  | 0x2 => vslidednBody p o
  | 0x3 => vcompressBody p o
  | 0x4 => viotaBody p o
  | 0x10 => vscanAddBody p o
  | 0x11 => vscanMinBody p o
  | 0x12 => vscanMaxBody p o
  | 0x13 => vscanMinuBody p o
  | 0x14 => vscanMaxuBody p o
  | 0x18 => vmandBody p o
  | 0x19 => vmorBody p o
  | 0x1a => vmxorBody p o
  | 0x1b => vmandnBody p o
  | 0x30 => vscanFaddBody p o
  | 0x31 => vscanFminBody p o
  | 0x32 => vscanFmaxBody p o
  | _ => fun _ s => s

/-- The instructions of major opcode 0x3d that the queues hold, by function (Table 9-3). -/
def vqBody3D (f : Nat) (p : Nat) (o : VOp) : VMode → State → State :=
  match f with
  | 0x0 => vexpBody p o
  | 0x1 => vlogBody p o
  | 0x2 => vrsqrtBody p o
  | 0x3 => vtanhBody p o
  | 0x4 => verfBody p o
  | 0x5 => vsigmBody p o
  | 0x6 => vsiluBody p o
  | 0x7 => vgeluBody p o
  | 0x10 => vcvtFBody p o
  | 0x11 => vcvtFsBody p o
  | 0x12 => vcvtIBody p o
  | 0x13 => vcvtIzBody p o
  | 0x14 => vcvtUBody p o
  | 0x15 => vcvtUzBody p o
  | 0x18 => vqmxBody p o
  | 0x19 => vdqmxBody p o
  | _ => fun _ s => s

/-- The instructions of major opcode 0x3e that the queues hold, by function (Table 9-3). -/
def vqBody3E (f : Nat) (p : Nat) (o : VOp) : VMode → State → State :=
  match f with
  | 0x9 => vmvSBody p o
  | _ => fun _ s => s

/-- What a queued instruction does. -/
def vqBody (e : VqEntry) (p : Nat) : VMode → State → State :=
  match e.maj.toNat with
  | 0x39 => vqBody39 e.func.toNat p e.op
  | 0x3a => vqBody3A e.func.toNat p e.op
  | 0x3b => vqBody3B e.func.toNat p e.op
  | 0x3c => vqBody3C e.func.toNat p e.op
  | 0x3d => vqBody3D e.func.toNat p e.op
  | 0x3e => vqBody3E e.func.toNat p e.op
  | _ => fun _ s => s

/-- The lead core as the instruction saw it when it issued. -/
def vqSee (e : VqEntry) (c : Core) : Core :=
  { c with regs := e.regs, vl := e.vl, vtype := e.vtype, fpctl := e.fpctl, asid := e.asid, user := e.user, npWait := none }

/-- The lead core after the members have performed: what they read is its own again, with the flags that they raised. -/
def vqBack (c0 c : Core) : Core :=
  { c with regs := c0.regs, vl := c0.vl, vtype := c0.vtype, fpctl := raise c0.fpctl (fld c.fpctl 0 5), asid := c0.asid, user := c0.user,
           npWait := c0.npWait }

/-- Does a page that the queue's first instruction needs stay not present (R358). -/
def vqFault (s : State) (p : Nat) : Bool := s.xlat.faults.any fun f => f.waiters.any fun q => isVecReq p q.req

/-- The members perform the instructions of their queues, oldest first, until one has to wait (R347). -/
def vqRun (p : Nat) : Nat → State → State
  | 0, s => s
  | n + 1, s =>
    match (polder s p).vqueue with
    | [] => s
    | e :: rest =>
      if halted s || (scopeAt s p).fatal || vqFault s p then s
      else
        let c := core s p
        let s := vqBody e p .run (modCore s p (vqSee e))
        let waits := (core s p).npWait.isSome
        let s := modCore s p (vqBack c)
        if waits then s else vqRun p n (modPolder s p fun po => { po with vqueue := rest })

/-- The queues of polder `p` go on. -/
def vqGo (s : State) (p : Nat) : State := vqRun p (polder s p).vqueue.length s

/-- The queues of every polder go on. -/
def vqGoAll (s : State) : State := polderNums.foldl (fun s p => if (polder s p).vqueue.isEmpty then s else vqGo s p) s

end Sys2Proof.Machine
end

