-- ==== Sys2Proof/Machine/Walks.lean ====
section
/-! DEFINITION. Walks at the local walkers and the CTU, what each request that a walk serves meets (R439–R452), and the resume of a not-present
fault (R446–R449). -/

namespace Sys2Proof.Machine

/-- Statuses of Table 13-8. -/
def xlOk : Nat := 0x70
def xlDup : Nat := 0x71
def xlGenGap : Nat := 0x72
def xlStale : Nat := 0x73
def xlRange : Nat := 0x74

/-! ### Requests -/

/-- The command in progress of ring `r`. -/
def ringCmd (s : State) (r : Nat) : Option (CmdHdr × Nat) := (ring s r).busy

/-- Is a request one that its space can hold (R430): of a polder of the image, canonical, under the space's tag, from a member or from NW, and for
a ring of the command that it performs. -/
def reqValid (s : State) (q : XlatReq) : Bool :=
  named s q.p && q.va < 2 ^ 48 && q.space ≤ 2 && (if q.space = 0 then q.asid == 0 else q.asid == (core s q.p).asid) &&
    ((members s q.p).contains q.cd || q.cd == 24) &&
    match q.req with
    | .ring r => (ringCmd s r).any fun c => c.1.pol == q.p
    | _ => true

/-- Do two requests lie on one 64 KiB page. -/
def samePage (a b : XlatReq) : Bool := sameMiss a b && a.va >>> 16 == b.va >>> 16

/-- Is a request a host RDMA (R450). -/
def isHostReq (q : XlatReq) : Bool := match q.req with | .hostRead _ | .hostWrite _ => true | _ => false

/-- The LS of a request. -/
def xreqLs (s : State) (q : XlatReq) : LS :=
  match q.req with
  | .descriptor p i | .descUpdate p i => lsDesc s p i 0 q.cd
  | .hostRead _ | .hostWrite _ => lsHost s q.p
  | .ring r => match ringCmd s r with
    | some (h, _) => lsCmd s h
    | none => lsDevice 24
  | _ => lsCore s q.p

/-- Is descriptor `i` in execution. -/
def descRuns (s : State) (p i : Nat) : Bool := (polder s p).run.any fun inv => (descState inv i).any inExec

/-! ### Masters (Table 11-15) -/

/-- The mover's rank that a descriptor's request belongs to: a mover kind's data is the requesting member's mover's, all else its queue's. -/
def descMover (s : State) (p i : Nat) (q : XlatReq) : Option Nat :=
  (running s p).bind fun (inv, rc) =>
    let pb := inv.req.pb
    if queueOf (dKind (descAt s rc i)) = 2 && !(pb ≤ q.va && q.va < pb + 8 * rc.pbWords) then some (rankOf s p q.cd) else none

/-- The number of a request's master. -/
def masterOf (s : State) (q : XlatReq) : Nat :=
  match q.req with
  | .descriptor p i | .descUpdate p i => match descMover s p i q, running s p with
    | some r, _ => 0x2000 + r
    | none, some (_, rc) => 0x1000 + queueOf (dKind (descAt s rc i))
    | none, none => 0x1000
  | .ring r => 0x3000 + r
  | .core _ | .coreAtomic _ | .vector .. => 0
  | _ => 0x4000

/-- Put a request in its place by master number, which decides whose record stands for several freezes (R395). -/
def putMaster (s : State) (q : XlatReq) : List XlatReq → List XlatReq
  | [] => [q]
  | x :: l => if masterOf s q < masterOf s x then q :: x :: l else x :: putMaster s q l

/-- Requests in ascending master number. -/
def byMaster (s : State) (qs : List XlatReq) : List XlatReq := qs.foldl (fun l q => putMaster s q l) []

/-- The master behind a descriptor's request freezes. -/
def freezeDesc (s : State) (p i : Nat) (q : XlatReq) (v : Nat) : State :=
  match running s p, descMover s p i q with
  | some _, some r => freezeMover s p r i 0 v q.va
  | some (_, rc), none => freezeQueue s p (queueOf (dKind (descAt s rc i))) i 0 v q.va
  | none, _ => s

/-- A refused request freezes its master (R451): the lead core, for a vector element too, whose instruction leaves its queue; a queue or mover; a
ring. A host's access draws its NAK (R450). -/
def refuseReq (s : State) (q : XlatReq) (v : Nat) : State :=
  match q.req with
  | .core p | .coreAtomic p =>
    if coreReady s p then let (w, s) := peekWord s p; violate s p v q.half2 0xFFFFFFFF q.va w else s
  | .vector p e =>
    if named s p && (polder s p).frzCore.isNone then
      let (w, s) := peekWord s p
      violate (modPolder s p fun po => { po with vqueue := po.vqueue.tail }) p v false e q.va w
    else s
  | .descriptor p i | .descUpdate p i => if descRuns s p i then setDesc (freezeDesc s p i q v) p i .failed else s
  | .ring r => match ringCmd s r with
    | some (h, opc) => violateRingAt s h opc 4 vCommand q.va
    | none => s
  | .hostRead c | .hostWrite c => send s (.nak c nakAccess)
  | _ => s

/-- What one request meets when a walk read failed (R452, Table 12-3); a vector element is not written when its instruction performs. -/
def readFailed (s : State) (q : XlatReq) : State :=
  match q.req with
  | .core p | .coreAtomic p => if coreReady s p then let (w, s) := peekWord s p; raiseExc s p cMemerr q.va 0 q.half2 w else s
  | .descriptor p i | .descUpdate p i => if descRuns s p i then setDesc s p i .failed else s
  | .ring r => match ringCmd s r with
    | some (h, opc) => completeSt s h opc cmMem
    | none => s
  | .hostRead c | .hostWrite c => send s (.nak c nakOp)
  | _ => s

/-- The one detection of a walk whose read failed, with its transaction status, and the outcome of each request (R452). -/
def walkFailed (s : State) (qs : List XlatReq) (pa st : Nat) : State :=
  match qs with
  | [] => s
  | q :: _ =>
    let r := walkRecSt s (xreqLs s q) (if qs.all isHostReq then 0 else 1) pa st
    let isD := fun (x : XlatReq) => match x.req with | .descriptor p i | .descUpdate p i => descRuns s p i | _ => false
    let s := if qs.any isD then detectInv s q.p r else detect s r false
    qs.foldl readFailed s

/-- A request of an open not-present fault is held (R444): the lead core at its instruction, a descriptor in execution; the queue holds a
vector element. -/
def holdReq (s : State) (q : XlatReq) : State :=
  match q.req with
  | .core p | .coreAtomic p => if coreReady s p then let (w, s) := peekWord s p; modCore s p fun c => { c with npWait := some w } else s
  | .descriptor p i | .descUpdate p i => if descRuns s p i then setDesc s p i .waitFault else s
  | _ => s

/-- A walk ended at an absent entry: a host's access draws its NAK (R450) and a ring's command CM_XLT; every other request waits at the fault. -/
def walkAbsent (s : State) (qs : List XlatReq) (pa lvl : Nat) : State :=
  let no := fun (s : State) (q : XlatReq) => match q.req with
    | .hostRead c | .hostWrite c => send s (.nak c nakAccess)
    | .ring r => match ringCmd s r with
      | some (h, opc) => completeSt s h opc cmXlt
      | none => s
    | _ => s
  let waits := qs.filter fun q => match q.req with | .hostRead _ | .hostWrite _ | .ring _ => false | _ => true
  let s := qs.foldl no s
  match waits with
  | [] => s
  | q :: rest => (q :: rest).foldl holdReq (openFaults s q rest (xreqLs s q) pa lvl).2

/-- Each request on a leaf proceeds or meets a permission fault under R437, with the structures of R442 filled for it. -/
def serveLeaf (s : State) (e : Word) (lvl : Nat) (l1 : Option Word) (qs : List XlatReq) : State :=
  let s := qs.foldl (fun s q => fillWalked s q e lvl l1) s
  (byMaster s qs).foldl (fun s q =>
    match judge s q e lvl with
    | .perm => refuseReq s q vPerm
    | .outside => refuseReq s q vOutside
    | _ => s) s

/-- The level at which a walk ended. -/
def WalkEnd.level : WalkEnd → Nat
  | .absent _ l => l
  | .malformed l => l
  | .leaf _ l => l
  | .failed _ l => l

/-- The requests that a walk's end serves: all of them above level 3, at level 3 those of the page walked (R440). -/
def served (w : WalkEnd) (q : XlatReq) (qs : List XlatReq) : List XlatReq := if w.level = 3 then qs.filter (samePage q) else qs

/-- The outcome of a walk for the requests that it serves. -/
def serveEnd (s : State) (w : Walked) (qs : List XlatReq) : State :=
  match w.fin with
  | .leaf e l => serveLeaf s e l w.l1 qs
  | .malformed _ => (byMaster s qs).foldl (fun s q => refuseReq s q vPerm) s
  | .failed pa _ => walkFailed s qs pa (if reach s 24 (homeDie pa) pa then 3 else 2)
  | .absent pa l => walkAbsent s qs pa l

/-- The joined misses of other pages continue from the level-2 entry that the finished walk read, at once in this model (R440, log 27). -/
def serveRest (l1 : Option Word) (e : Word) : Nat → State → List XlatReq → State
  | 0, s, _ => s
  | fuel + 1, s, qs =>
    match qs with
    | [] => s
    | q :: rest =>
      let (w, s) := walkOn s q l1 e
      serveRest l1 e fuel (serveEnd s w ((q :: rest).filter (samePage q))) (rest.filter fun x => !samePage q x)

/-- A CTU walk ends. -/
def serveWalk (s : State) (qs : List XlatReq) : State :=
  match qs with
  | [] => s
  | q :: rest =>
    let (w, s) := walkRoot s q
    let mine := served w.fin q (q :: rest)
    let s := serveEnd s w mine
    match w.l2 with
    | some e => serveRest w.l1 e rest.length s (rest.filter fun x => !mine.contains x)
    | none => s

/-- Walks from the root for a list of requests, those that miss together sharing one. -/
def walkAll : Nat → State → List XlatReq → State
  | 0, s, _ => s
  | fuel + 1, s, qs =>
    match qs with
    | [] => s
    | q :: rest => walkAll fuel (serveWalk s ((q :: rest).filter (sameMiss q))) (rest.filter fun x => !sameMiss q x)

/-! ### Walkers -/

/-- A free CTU walker in service. -/
def freeWalk (s : State) : Nat := ((List.range 33).find? fun k => !s.xlat.walkersOut.contains k && !s.xlat.walks.any fun w => w.id == k).getD 33

/-- The walk read's tag: of NW, first in line (R478, R480). -/
def walkTag (s : State) (q : XlatReq) (id : Nat) : Option State :=
  let r := Requester.walker q.p
  if !tagFor s 24 r then none
  else (takeTag s 24 { kind := 4, dest := homeDie (rootTable s q), addr := rootTable s q, ls := xreqLs s q, req := r, work := .walk id }).map fun x =>
    dropWaiter x.2 24 (· == r)

/-- The oldest waiting requests take walkers as they come free (R441), each with a tag; the pass releases a walker that it tests. -/
def startWalks : Nat → State → State
  | 0, s => s
  | fuel + 1, s =>
    match s.xlat.waiting with
    | q :: rest =>
      if s.xlat.walks.length < walkersMax s then
        let id := freeWalk s
        match walkTag s q id with
        | none => addWaiter s 24 { kind := 4, dest := homeDie (rootTable s q), addr := rootTable s q, ls := xreqLs s q, req := .walker q.p, first := true, granted := false }
        | some s =>
          let s := kilnRelease s fun u => u.type == 10 && u.index == id
          startWalks fuel { s with xlat := { s.xlat with
            waiting := rest.filter fun x => !sameMiss q x
            walks := s.xlat.walks ++ [{ id := id, reqs := q :: rest.filter (sameMiss q) }] } }
      else s
    | [] => s

/-- A request reaches the CTU: the central TLB answers it, a walk in flight takes it, or it waits for a walker; none is taken while the waiting
list holds 4,096 (R439–R441). -/
def ctuWalk (s : State) (q : XlatReq) : State :=
  let s' := { s with xlat := { s.xlat with local_ := s.xlat.local_.filter (· ≠ q) } }
  if !spaceOn s q then refuseReq s' q vPerm
  else match tlbFind q s.xlat.central with
  | some (t, l) => serveLeaf { s' with xlat := { s'.xlat with central := l } } t.pte t.level none [q]
  | none =>
    if !(s.xlat.walks.any fun w => w.reqs.any (sameMiss q)) && waitFull s then s
    else
      let s := joinMiss s' q
      startWalks s.xlat.waiting.length s

/-- The distinct misses that the local walkers of a CD hold (R440, R441). -/
def localMisses (s : State) (cd : Nat) : List XlatReq :=
  (s.xlat.local_.filter (·.cd == cd)).foldl (fun l q => if l.any (sameMiss q) then l else l ++ [q]) []

/-- A request that missed its nearest copy reaches a local walker of its CD: a level-2 leaf that admits it resolves it there, every other
outcome goes to the CTU; while the waiting list is full the walker keeps it, and a fifth distinct miss stalls at its issuer (R439, R441). -/
def localWalk (s : State) (q : XlatReq) : State :=
  if 24 ≤ q.cd || (spaceOn s q && (tlbFind q (nearCopy s q)).isSome) ||
      (4 ≤ (localMisses s q.cd).length && !(localMisses s q.cd).any (sameMiss q)) then s
  else
    let up := fun (s : State) =>
      if spaceOn s q && waitFull s && !(s.xlat.walks.any fun w => w.reqs.any (sameMiss q)) then
        { s with xlat := { s.xlat with local_ := s.xlat.local_.filter (· ≠ q) ++ [q] } }
      else ctuWalk s q
    match walkHit s q with
    | (none, s) => up s
    | (some w, s) =>
      if !spaceOn s q then up s
      else match readPte s q q.cd (pteAddr w.pte + 8 * vaIndex q.va 2) with
      | (none, s) => up s
      | (some e, s) =>
        if pteV e && !malformed s q.p e 2 && pteLeaf e && admits e 2 q.access q.user q.cls then
          let s := fillLeaf s q e 2 false
          match judge s q e 2 with
          | .outside => refuseReq s q vOutside
          | _ => s
        else up s

/-- A walk leaves its walker with its tag, and the next waiting request takes the walker. -/
def walkOver (s : State) (id : Nat) (serve : State → List XlatReq → State) : State :=
  match s.xlat.walks.find? fun w => w.id == id with
  | none => s
  | some w =>
    let tags := (owner s 24).tags.filter fun t => t.work == .walk id
    let s := tags.foldl (fun s t => releaseTag s 24 t.num) s
    let s := serve { s with xlat := { s.xlat with walks := s.xlat.walks.filter fun x => x.id ≠ id } } w.reqs
    let s := startWalks s.xlat.waiting.length s
    (w.reqs.map (·.p)).eraseDups.foldl vqGo s

/-- A CTU walk completes. -/
def walkComplete (s : State) (id : Nat) : State := walkOver s id serveWalk

/-- The transaction of a walk in flight ended with a status other than a response (R452, R485). -/
def walkLost (s : State) (id pa st : Nat) : State := walkOver s id fun s qs => walkFailed s qs pa st

/-! ### Resume (R446–R449) -/

/-- The faults of a polder under a number. -/
def faultOf (s : State) (p fid : Nat) : Option NpFault := s.xlat.faults.find? fun f => f.fid == fid && f.p == p

/-- Close a fault. -/
def closeFault (s : State) (f : NpFault) : State := { s with xlat := { s.xlat with faults := s.xlat.faults.filter (· ≠ f) } }

/-- The descriptors that wait on a fault, once each. -/
def faultDescs (f : NpFault) : List Nat :=
  (f.waiters.filterMap fun q => match q.req with | .descriptor _ i | .descUpdate _ i => some i | _ => none).eraseDups

/-- A descriptor in execution goes on, where nothing holds it any longer. -/
def descGo (s : State) (p i : Nat) : State :=
  match running s p with
  | none => s
  | some (inv, rc) => goOn p i (bodyOf (descAt s rc i)) rc inv s

/-- A request of the lead core's instruction that waits, not of a queue's. -/
def isNpReq (s : State) (p : Nat) (q : XlatReq) : Bool := isCoreReq p q && !(isVecReq p q.req && !(polder s p).vqueue.isEmpty)

/-- Close a fault, give each of its requests its outcome by `serve`, and let what waited go on. The instruction of the lead core is the one
that waited. -/
def endFault (s : State) (p : Nat) (f : NpFault) (serve : State → List XlatReq → State) : State :=
  let w := (core s p).npWait
  let mine := f.waiters.any (isNpReq s p)
  let s := closeFault s f
  let s := serve (if mine then modCore s p fun c => { c with npWait := none } else s) f.waiters
  let s := if mine && (s.xlat.faults.any fun g => g.waiters.any (isNpReq s p)) then modCore s p fun c => { c with npWait := w } else s
  vqGo ((faultDescs f).foldl (fun s i => descGo s p i) s) p

/-- A resume (R446). -/
def xltResume (s : State) (p fid : Nat) : Nat × State :=
  match faultOf s p fid with
  | none => (xlStale, s)
  | some f => (xlOk, endFault s p f fun s qs => walkAll qs.length s qs)

/-- A resume with FAIL: every waiting request meets a permission fault (R448, R451). -/
def xltResumeFail (s : State) (p fid : Nat) : Nat × State :=
  match faultOf s p fid with
  | none => (xlStale, s)
  | some f => (xlOk, endFault s p f fun s qs => (byMaster s qs).foldl (fun s q => refuseReq s q vPerm) s)

/-- A load that affects the polder walks its remaining requests again (R449). -/
def rewalk (s : State) (p : Nat) : State :=
  ((s.xlat.faults.filter (·.p == p)).map (·.fid)).foldl (fun s fid => (xltResume s p fid).2) s

end Sys2Proof.Machine
end

