-- ==== Sys2Proof/Machine/Sequencer.lean ====
section
/-! DEFINITION. The sequencer (chapter 8): starts and invocations (R284–R290), sluices from outside (R272, R273), the tensor table
(R263), withdrawal (R283), the stall watchdog (R295) and the power states of positions (R291–R294). -/

namespace Sys2Proof.Machine

/-- Statuses of Table 8-16. -/
def stOk : Nat := 0x30
def stEmpty : Nat := 0x31
def stFull : Nat := 0x32
def stBusy : Nat := 0x33
def stInternal : Nat := 0x34
def stRange : Nat := 0x35
def stRunning : Nat := 0x36
def stLocked : Nat := 0x37
def stFrozen : Nat := 0x38

/-- Set STATE of every member of a polder that is in service (R40); one out of service keeps 0b11 (R39, R545). -/
def setMembers (s : State) (p v : Nat) : State :=
  (members s p).foldl (fun s cd => modCd s cd fun c => { c with state := if c.state = 3 then 3 else v }) s

/-! ### Starts (R284) -/

/-- Does an admission into slot `k` run. -/
def admitting (po : Polder) (k : Nat) : Bool := po.adm.any fun a => a.slot == k

/-- Is the parameter block at `pb` valid for a recipe (R284, R629). -/
def pbOk (rc : Recipe) (pb : Nat) : Bool := pb % 8 = 0 && pb + 8 * rc.pbWords ≤ 2 ^ 48

/-- A start (R284): its status; an accepted one joins the pending starts and leaves STATE of the members at 0b10 (R40). -/
def startInv (s : State) (p slot : Nat) (pb : Option Nat) (host : Bool) (cookie : Nat) : Nat × State :=
  let po := polder s p
  if 16 ≤ slot then (stRange, s)
  else match tfind po.slots slot with
    | none => (stEmpty, s)
    | some rc =>
      let a := pb.getD rc.pbVa
      if s.phiro.busy || !po.quies.isEmpty || admitting po slot then (stBusy, s)
      else if !po.frzQueue.isEmpty then (stFrozen, s)
      else if 16 ≤ po.pend.length then (stFull, s)
      else if !pbOk rc a then (stRange, s)
      else
        let s := setPolder s p { po with pend := po.pend ++ [{ slot := slot, pb := a, host := host, cookie := if host then cookie else 0 }] }
        (stOk, setMembers s p 2)

/-! ### Sluices from outside the recipe (R272, R273) -/

/-- The sluices that the running invocation's recipe sets. -/
def internalNow (s : State) (p : Nat) : List Nat := ((running s p).map (·.2.internal)).getD []

/-- A set or clear by the host or the lead core. -/
def sluiceCtl (s : State) (p n : Nat) (set_ : Bool) : Nat × State :=
  if (polder s p).sec.sluices ≤ n then (stRange, s)
  else if (internalNow s p).contains n then (stInternal, s)
  else (stOk, if set_ then modPolder s p fun po => { po with sluices := tset false po.sluices n true } else clearSluice s p n)

/-! ### The tensor table and withdrawal -/

/-- A write of a tensor-table entry (R263). -/
def ttPut (s : State) (p idx : Nat) (e : TensorEntry) : Nat × State :=
  let po := polder s p
  if po.sec.ttEntries ≤ idx then (stRange, s)
  else if po.slots.any fun r => r.2.locked.contains idx then (stLocked, s)
  else (stOk, setPolder s p { po with tt := tset ttEmpty po.tt idx e })

/-- Is a slot running, armed to run next, or named by a pending start (R283). -/
def slotInUse (po : Polder) (k : Nat) : Bool :=
  po.run.any (fun i => i.req.slot == k) || po.armed.any (fun r => r.slot == k) || po.pend.any fun r => r.slot == k

/-- Withdraw a slot (R283); a withdrawal is a request that RCP_STATUS reports (Table 8-14), and its completion is source 4 (Table 11-6). -/
def withdrawSlot (s : State) (p k : Nat) : Nat × State :=
  let po := polder s p
  let code := if 16 ≤ k then stRange else if (tfind po.slots k).isNone then stEmpty else if slotInUse po k then stRunning else stOk
  let slots := if code = stOk then tdel po.slots k else po.slots
  (code, setInt (setPolder s p { po with slots := slots, rcp := { RcpStatus.reset with code := code } }) p 4)

/-! ### Invocations -/

/-- May the sequencer begin an invocation: none runs, it is not held (R288), no QUIESCE runs (R289), no queue is frozen, the polder is not
FATAL (R531), no record that is never dropped waits for space (R516), and no die is held (R595, R613). -/
def mayBegin (s : State) (p : Nat) : Bool :=
  let po := polder s p
  named s p && !halted s && po.run.isNone && !po.held && po.quies.isEmpty && po.frzQueue.isEmpty && !po.resetting && !(scopeAt s p).fatal &&
    s.port.evq.wait.isEmpty

/-- The invocation that begins: internal sluices clear (R271), every queue has its head (R295), and the shadow values with point of effect
IB take effect (R48). -/
def beginInv (s : State) (p : Nat) (r : StartReq) : State :=
  match recipeAt s p r.slot with
  | none => postCancelled s p r
  | some rc =>
    let s := applyIB s p
    let inv : Invocation :=
      { req := r, begun := false, dtStart := s.dt, descs := [], flags := 0, abort := false, err := none,
        headSince := (List.range 4).map fun q => (q, s.dt), stalled := [], issueDt := [], words := [], reds := [], redDone := [] }
    modPolder s p fun po => { po with run := some inv, sluices := tdrop po.sluices fun k => rc.internal.contains k }

/-- Begin the armed invocation, else the oldest pending start (R285, R286). -/
def beginNext (s : State) (p : Nat) : State :=
  let po := polder s p
  if mayBegin s p then
    match po.armed, po.pend with
    | some r, _ => beginInv (setPolder s p { po with armed := none }) p r
    | none, r :: rest => beginInv (setPolder s p { po with pend := rest }) p r
    | none, [] => s
  else s

/-- A descriptor's request of polder `p`. -/
def isDescReq (p : Nat) (w : XlatReq) : Bool :=
  match w.req with
  | .descriptor q _ => q == p
  | .descUpdate q _ => q == p
  | _ => false

/-- Does an ended invocation wait for a descriptor: one in execution, but for what a frozen queue or mover has still to issue (R288, R394). -/
def endWaits (s : State) (p : Nat) (rc : Recipe) (e : Nat × DescState) : Bool :=
  e.2 == .inExec || (inExec e.2 && !queueFrozen (polder s p) (queueOf (dKind (descAt s rc e.1))))

/-- The running invocation ends: ordinarily once every descriptor has completed (R103), after a class 1 error or an abort once no
descriptor is in execution (R288, R290, R394); the waits of a frozen queue end with it. Reductions of other polders that waited for its slots go
on (R473). -/
def endInv (s : State) (p : Nat) : State :=
  match running s p with
  | none => s
  | some (inv, rc) =>
    if inv.err.isSome || inv.abort then
      if inv.descs.any (endWaits s p rc) then s else redRetry (finishInv (dropWaiters s p (isDescReq p)) p)
    else if (List.range rc.descCount).all (descDone inv) then redRetry (finishInv s p)
    else s

/-- What holds a descriptor in execution: tags, host writes not yet sent, updates and markers on their way, adder windows and hub reductions
(R98, R113, R116, R473). -/
def descPending (s : State) (p i : Nat) : Bool :=
  (s.fabric.owners.any fun o => o.2.tags.any fun t => isDesc p i t.req) || (s.port.resend.any fun t => isDesc p i t.req) ||
    (s.fabric.flight.any fun f => f.win.p == p && f.win.i == i) || (s.fabric.windows.any fun w => w.p == p && w.i == i) || redPending s p i

/-! ### QUIESCE (R289, R290) -/

/-- The opcode of QUIESCE. -/
def opQuiesce : Nat := 0x24

/-- Steps 1 and 2: starts are refused, an armed invocation ends CANCELLED. -/
def quiesceBegin (s : State) (p : Nat) (h : Option CmdHdr) : State :=
  let po := polder s p
  let s := setPolder s p { po with quies := po.quies ++ [h], armed := none }
  po.armed.toList.foldl (fun s r => postCancelled s p r) s

/-- ABORT: the running invocation issues nothing further and ends with SEQ_ABORT, unless an error ends it already (R290). -/
def quiesceAbortInv (s : State) (p : Nat) (ls : LS) : State :=
  match (polder s p).run with
  | none => s
  | some inv =>
    let s := modRun s p fun v => { v with abort := true }
    let s := if inv.err.isSome then s else detectInv s p (mkRec s ls 0x42 1 (leadOf s p) 0 (errBytes { reqClass := 0xFF }))
    let s := modRun s p fun v => { v with descs := v.descs.map fun e => if e.2 = .waitFault then (e.1, .failed) else e }
    dropWaiters s p (isDescReq p)

/-- Steps 4 to 8, once nothing runs: pending starts end CANCELLED, HELD clears, shadow values apply, STATE becomes 0b01, and the waiting
commands complete. -/
def quiesceEnd (s : State) (p : Nat) : State :=
  let po := polder s p
  if po.quies.isEmpty || po.run.isSome then s
  else
    let s := po.pend.foldl (fun s r => postCancelled s p r) s
    let s := modPolder s p fun po => { po with pend := [], held := false, quies := [] }
    let s := setMembers (applyAll s p) p 1
    po.quies.foldl (fun s h => match h with | some h => completeSt s h opQuiesce stOk | none => s) s

/-! ### The stall watchdog (R295) -/

/-- The head of a queue: its first descriptor that has not issued. -/
def queueHead (s : State) (rc : Recipe) (inv : Invocation) (q : Nat) : Option Nat :=
  (List.range rc.descCount).find? fun j => queueOf (dKind (descAt s rc j)) == q && !issued inv j

/-- The number under which the watchdog keeps an R218 wait, above every sluice's. -/
def groupWait : Nat := 0x1000

/-- The waits of a head that are measured: an R218 wait, and the external sluices that read 0, until its waits have been satisfied. -/
def measuredWaits (s : State) (p : Nat) (rc : Recipe) (inv : Invocation) (i : Nat) : List Nat :=
  (if groupHold (polder s p) then [groupWait] else []) ++
    (if (descState inv i).isSome then []
     else ((dWaits (descAt s rc i)).filter fun w => !rc.internal.contains w.1 && !sluice (polder s p) w.1).map (·.1))

/-- A measured wait of a queue's head has exceeded WDOG_STALL: one class 0 SEQ_STALL record per wait. -/
def seqStall (s : State) (p q : Nat) : State :=
  match running s p with
  | none => s
  | some (inv, rc) =>
    match queueHead s rc inv q with
    | none => s
    | some i =>
      match (measuredWaits s p rc inv i).find? fun n => !inv.stalled.contains (q * 8192 + n) with
      | none => s
      | some n =>
        let lim := (polder s p).sec.wdogStall
        let since := max (tget 0 inv.headSince q) (tget 0 inv.headSince (16 + n))
        if lim = 0 || inv.err.isSome || inv.abort then s
        else
          let s := advanceTo s (since + lim * dtUs + 1)
          let r := mkRec s (lsDesc s p i 0 (leadOf s p)) 0x41 0 (leadOf s p) 0 (errBytes { extra := min n 0xFFF + q <<< 12 })
          modRun (post s r) p fun v => { v with stalled := insertNat v.stalled (q * 8192 + n) }

/-! ### Position power states (R291–R294, Table 19-6) -/

/-- Change the power state of a position on the members of a polder that a test on rank selects. -/
def modPos (s : State) (p pos : Nat) (q : Nat → Bool) (f : PosState → PosState) : State :=
  ((members s p).zipIdx.filter fun m => q m.2).foldl (fun s m => modCd s m.1 fun c => { c with pos := tset .off c.pos pos (f (tget .off c.pos pos)) }) s

/-- The descriptors of the running invocation that use a position of a member rank and that a test selects. -/
def usersOf (s : State) (p rank pos : Nat) (q : Invocation → Nat → Bool) : Bool :=
  match running s p with
  | none => false
  | some (inv, rc) => rc.posUsed.any fun e => e.2.getLsbD (rank * 16 + pos) && q inv e.1

/-- The descriptors that the sequencer looks ahead to: 1,024 past the oldest that has not issued (R291). -/
def lookAhead : Nat := 1024

/-- Is a descriptor one that has still to use its positions: looked ahead and not issued, or waiting for their wake. -/
def ahead (inv : Invocation) (i : Nat) : Bool :=
  descState inv i == some .waitWake || (!issued inv i && ((List.range (i - lookAhead)).all fun j => issued inv j))

/-- Wake a position, on the members where a looked-ahead descriptor uses it (R291). When its use lies near enough is time's (log 2). -/
def wakePos (s : State) (p pos : Nat) : State :=
  if named s p && pos < 16 then
    (members s p).zipIdx.foldl (fun s m => if usersOf s p m.2 pos ahead then wakeAt s m.1 pos else s) s
  else s

/-- The descriptors that wait for a position go on where nothing holds them any longer (R294). -/
def wakeGo (s : State) (p : Nat) : State :=
  match (polder s p).run with
  | none => s
  | some inv => ((inv.descs.filter fun e => e.2 == .waitWake).map (·.1)).foldl (fun s i => descGo s p i) s

/-- A waking position becomes Ready. -/
def wakeDone (s : State) (p pos : Nat) : State :=
  if named s p && pos < 16 then
    wakeGo (modPos s p pos (fun _ => true) fun st => match st with | .wakingOff => .ready | .wakingSleep => .ready | x => x) p
  else s

/-- Do the grist and cask of a position of a member hold nothing written since they were last cleared (R292). -/
def posClear (s : State) (p rank pos : Nat) : Bool := !(cdAt s (cdOfRank s p rank)).written.getLsbD pos

/-- A position enters Sleep or Off on the members where it may (R292): no descriptor in execution uses it and no group is open. Off asks besides,
during an invocation, that no remaining descriptor uses it and its KEEP_MASK bit is 0, and between invocations that its grist and cask hold
nothing. -/
def sleepPos (s : State) (p pos : Nat) (off : Bool) : State :=
  if !named s p || 16 ≤ pos || !(polder s p).groups.isEmpty then s
  else
    let idle := fun (r : Nat) => !usersOf s p r pos fun inv i => (descState inv i).any inExec
    let ok := fun (r : Nat) => idle r && match running s p with
      | none => posClear s p r pos
      | some (_, rc) => !(usersOf s p r pos fun inv i => !issued inv i) && !rc.keepMask.getLsbD pos
    if off then modPos s p pos ok fun st => match st with | .ready => .off | .sleep => .off | x => x
    else modPos s p pos idle fun st => match st with | .ready => .sleep | x => x

/-! ### The commands -/

/-- INVOCATION_START (R92). -/
def execInvocationStart (p : Nat) (s : State) : Result := done (beginNext s p)

/-- INVOCATION_COMPLETE (R285). -/
def execInvocationComplete (p : Nat) (s : State) : Result := done (endInv s p)

/-- DESCRIPTOR_COMPLETE (R98). -/
def execDescriptorComplete (p i : Nat) (s : State) : Result :=
  done (match running s p with
    | some (inv, _) => if descState inv i = some .inExec && !descPending s p i then completeDesc s p i else s
    | none => s)

/-- SEQ_STALL (R295). -/
def execSeqStall (p queue : Nat) (s : State) : Result := done (seqStall s p queue)

/-- POSITION_WAKE (R291). -/
def execPositionWake (p pos : Nat) (s : State) : Result := done (wakePos s p pos)

/-- POSITION_WAKE_DONE (R294). -/
def execPositionWakeDone (p pos : Nat) (s : State) : Result := done (wakeDone s p pos)

/-- POSITION_SLEEP (R292). -/
def execPositionSleep (p pos : Nat) (off : Bool) (s : State) : Result := done (sleepPos s p pos off)

/-- The START command. -/
def startCmd (h : CmdHdr) (slot : Nat) (pb : Option Nat) : State → State :=
  quickCmd .polder 0x22 h fun s => let (c, s) := startInv s h.pol slot pb true h.cookie; ({ status := c }, s)

/-- START (R284). -/
def execStart (h : CmdHdr) (slot : Nat) (pb : Option Nat) (s : State) : Result := done (startCmd h slot pb s)

/-- The SLUICE command. -/
def sluiceCmd (h : CmdHdr) (sl : Nat) (v : Bool) : State → State :=
  quickCmd .polder 0x23 h fun s => let (c, s) := sluiceCtl s h.pol sl v; ({ status := c }, s)

/-- SLUICE_SET (R272). -/
def execSluiceSet (h : CmdHdr) (sl : Nat) (s : State) : Result := done (sluiceCmd h sl true s)

/-- SLUICE_CLEAR (R272). -/
def execSluiceClear (h : CmdHdr) (sl : Nat) (s : State) : Result := done (sluiceCmd h sl false s)

/-- The QUIESCE command: it holds its ring until QUIESCE_COMPLETE. -/
def quiesceCmd (h : CmdHdr) (abort : Bool) : State → State :=
  hostCmd .polder opQuiesce h fun s =>
    let s := quiesceBegin (begin_ s h opQuiesce) h.pol (some h)
    if abort then quiesceAbortInv s h.pol (lsCmd s h) else s

/-- QUIESCE (R289). -/
def execQuiesce (h : CmdHdr) (s : State) : Result := done (quiesceCmd h false s)

/-- QUIESCE_ABORT (R290). -/
def execQuiesceAbort (h : CmdHdr) (s : State) : Result := done (quiesceCmd h true s)

/-- RESUME (R288): clears HELD. -/
def resumePolder (s : State) (p : Nat) : State := modPolder s p fun po => { po with held := false }

/-- The RESUME command. -/
def resumeCmd (h : CmdHdr) : State → State := quickCmd .polder 0x25 h fun s => ({ status := stOk }, resumePolder s h.pol)

/-- RESUME (R288). -/
def execResume (h : CmdHdr) (s : State) : Result := done (resumeCmd h s)

/-- The TT_WRITE command. -/
def ttWriteCmd (h : CmdHdr) (index : Nat) (e : TensorEntry) : State → State :=
  quickCmd .polder 0x26 h fun s => let (c, s) := ttPut s h.pol index e; ({ status := c }, s)

/-- TT_WRITE (R263). -/
def execTtWrite (h : CmdHdr) (index : Nat) (w0 w1 w2 w3 : Word) (s : State) : Result :=
  done (ttWriteCmd h index { w0 := w0, w1 := w1, w2 := w2, w3 := w3 } s)

/-- The WITHDRAW command. -/
def withdrawCmd (h : CmdHdr) (slot : Nat) : State → State :=
  quickCmd .polder 0x21 h fun s => let (c, s) := withdrawSlot s h.pol slot; ({ status := c }, s)

/-- WITHDRAW (R283). -/
def execWithdraw (h : CmdHdr) (slot : Nat) (s : State) : Result := done (withdrawCmd h slot s)

end Sys2Proof.Machine
end

