-- ==== Sys2Proof/Machine/Admission.lean ====
section
/-! DEFINITION. Admission (R248–R282, R293): the image is read, then checked in the order of R279. Each check is a function of the image
and of the polder's tables; the first failure is the answer. Points the chapter leaves to the reader stand in log 23. -/

namespace Sys2Proof.Machine

/-- A failed admission: the status of Table 8-9, DETAIL, DETAIL2 and the cycle list. -/
structure AdFail where
  code : Nat
  detail : Nat := 0
  detail2 : Nat := 0
  cyc : List Nat := []
  trunc : Bool := false
  deriving DecidableEq, Repr

abbrev AM := Except AdFail

/-- Refuse with a code and DETAIL where a test holds. -/
def refuseIf (b : Bool) (code i : Nat) : AM Unit := if b then throw { code := code, detail := i } else pure ()

/-! ### Reading the image (R249) -/

/-- The translation request of admission: a read in the polder space by the lead's sequencer. -/
def adReq (s : State) (p va : Nat) : XlatReq :=
  { cd := leadOf s p, p := p, space := 0, asid := 0, va := va, access := 1, user := false, req := .descriptor p 0, cls := 3 }

/-- Read pieces of the image; an error is the offset in the image of the first byte that could not be read. No fault opens. -/
def adRead (p va : Nat) : List (Nat × Nat) → State → Except Nat (List Byte) × State
  | [], s => (.ok [], s)
  | (a, n) :: rest, s =>
    match translateNow s (adReq s p a) with
    | (.ok pa, s) =>
      let m : MemCtx := { src := leadOf s p, ls := lsCore s p, cls := some 3, p := p, req := .descriptor p 0 }
      match readAtom s m pa n with
      | (.error (.uncorr cw), s) => (.error (a - va + (cw - pa)), s)
      | (.error .lost, s) => (.error (a - va), s)
      | (.ok d, s) =>
        match adRead p va rest s with
        | (.ok ds, s) => (.ok (d ++ ds), s)
        | (.error e, s) => (.error e, s)
    | (_, s) => (.error (a - va), s)

/-- The physical address of each 4 KiB unit of an image that has been read. -/
def adPages (s : State) (p va len : Nat) : List Nat :=
  (List.range ((va % 4096 + len + 4095) / 4096)).map fun k =>
    let v := max va ((va / 4096 + k) * 4096)
    match (translateNow s (adReq s p v)).1 with
    | .ok pa => pa - v % 4096
    | _ => 0

/-- The virtual pages that hold an image, each as base and size: those of the leaves that translated it, in whichever structure they lie
(R249, R457). -/
def adHeld (s : State) (p va len : Nat) : List (Nat × Nat) :=
  ((List.range ((va % 4096 + len + 4095) / 4096)).filterMap fun k =>
    let q := adReq s p (max va ((va / 4096 + k) * 4096))
    let s := (translateNow s q).2
    ((tlbFind q (nearCopy s q)).or (tlbFind q s.xlat.central)).map fun t => (t.1.page * 2 ^ pageShift t.1.level, 2 ^ pageShift t.1.level)).eraseDups

/-- The first header field that breaks Table 8-1, by its offset. -/
def headerBad (sluices : Nat) (b : List Byte) : Option Nat :=
  let w := fun (off n : Nat) => leAt b off n
  ([(0x00, w 0 4 == 0x45504352), (0x04, w 4 2 == 1), (0x06, w 6 2 == 0), (0x08, 1 ≤ w 8 4 && w 8 4 ≤ 65536), (0x0C, decide (w 12 4 ≤ 65536)),
    (0x10, decide (w 16 2 ≤ 4096)), (0x12, 1 ≤ w 18 2 && w 18 2 ≤ 4096), (0x16, decide (w 0x16 1 < 64)),
    (0x18, w 0x18 2 < 4096 && (!bit (w 0x16 1) 5 || decide (w 0x18 2 < sluices))), (0x1A, w 0x1A 6 == 0),
    (0x28, w 0x28 8 % 8 == 0 && w 0x28 8 < 2 ^ 48), (0x30, w 0x30 8 == 0 && w 0x38 8 == 0)].find? fun x => !x.2).map (·.1)

/-- A read image: its bytes and counts. -/
structure Img where
  b : List Byte
  nd : Nat
  ne : Nat
  nc : Nat
  deriving DecidableEq, Repr

def imgLen (h : List Byte) : Nat := 64 + 64 * (leAt h 8 4 + leAt h 12 4) + 32 * leAt h 16 2

/-- Fetch and check the image: the header first, then the whole. -/
def adFetch (s : State) (p va : Nat) : AM Img × State :=
  if va % 64 ≠ 0 then (.error { code := 0x41 }, s)
  else
    match adRead p va (pieces va 64) s with
    | (.error e, s) => (.error { code := 0x41, detail := e }, s)
    | (.ok h, s) =>
      match headerBad (polder s p).sec.sluices h with
      | some off => (.error { code := 0x41, detail := off }, s)
      | none =>
        match adRead p va (pieces va (imgLen h)) s with
        | (.error e, s) => (.error { code := 0x41, detail := e }, s)
        | (.ok b, s) => (.ok { b := b, nd := leAt h 8 4, ne := leAt h 12 4, nc := leAt h 16 2 }, s)

def Img.desc (m : Img) (i : Nat) : List Byte := slice m.b (64 + 64 * i) 64
def Img.ext (m : Img) (d : List Byte) : List Byte := if dExt d then slice m.b (64 + 64 * m.nd + 64 * dExtIdx d) 64 else []
def Img.cfg (m : Img) (k : Nat) : List Byte := slice m.b (64 + 64 * (m.nd + m.ne) + 32 * k) 32
def Img.pbWords (m : Img) : Nat := leAt m.b 0x12 2
def Img.keep (m : Img) : Nat := leAt m.b 0x14 2
def Img.descs (m : Img) : List (List Byte) := (List.range m.nd).map m.desc

/-! ### Kinds, flags, reserved bits, arguments (R253, R259) -/

/-- The Extension column of Table 8-3: 0 none, 1 optional, 2 required; none for an undefined kind. -/
def kindExt (k : Nat) : Option Nat :=
  if k = 1 then some 1 else if k = 2 || k = 0x10 then some 2
  else if (0x11 ≤ k && k ≤ 0x15) || (0x20 ≤ k && k ≤ 0x23) || (0x30 ≤ k && k ≤ 0x33) then some 0 else none

/-- The common fields of a descriptor break R253. -/
def commonBad (ne : Nat) (d : List Byte) : Bool :=
  let slu := fun (j : Nat) => leAt d (0x10 + 2 * j) 2
  let ind := dInd d
  (match kindExt (dKind d) with
    | none => true
    | some 0 => dExt d
    | some 2 => !dExt d
    | some _ => false) ||
  (if dExt d then decide (ne ≤ dExtIdx d) else dExtIdx d ≠ 0) || leAt d 1 1 ≥ 16 || leAt d 4 1 ≥ 32 || leAt d 5 3 ≠ 0 ||
  (List.range 4).any (fun j => bits (slu j) 12 3 ≠ 0) || (List.range 2).any (fun j => dFlag d (2 + j) && !bit (slu j) 15) ||
  (!dLenV d && (dLenPw d ≠ 0 || dLenMode d ≠ 0)) || (!dIdxV d && (dIdxPw d ≠ 0 || dIdxOp d ≠ 0 || dIdxRange d ≠ 0)) || dIdxOp d = 3 ||
  bits ind 14 2 ≠ 0 || bit ind 31 || bits ind 48 16 ≠ 0

/-- The members are consecutive in the ring CD0–CD1–…–CD23–CD0 (R259). -/
def ringMembers (ms : List Nat) : Bool := ms.any fun m => (List.range ms.length).all fun k => ms.contains ((m + k) % 24)

/-- ARG0 or ARG1 has a bit outside a mask. -/
def outsideMask (v m : Nat) : Bool := v &&& m ≠ v

/-- FP32 codes of (0, 1]. -/
def topPOk (v : Nat) : Bool := 0 < v && v ≤ 0x3F800000

/-- The body of a vector, mover or collective descriptor breaks Tables 8-6 and 16-5. -/
def bodyBad (s : State) (p : Nat) (d : List Byte) : Bool :=
  let tx := dTensor d 0
  let ty := dTensor d 1
  let tz := dTensor d 2
  let a0 := dArg0 d
  let a1 := dArg1 d
  let mode := bits a0 0 2
  let op := bits a0 0 3
  let fmt := bits a0 4 3
  bits (dWord d 0x20) 36 28 ≠ 0 || leAt d 0x3C 4 ≠ 0 ||
  match dKind d with
  | 0x10 =>
    tz ≠ 0 || a0 ≠ 0 || a1 ≠ 0 ||
      (List.range (if dIdxV d && dIdxOp d = 0 then dIdxRange d else 1)).any fun u =>
        let t := tensorAt (polder s p) (tx + u)
        t.loc ≠ 0 && (t.fmt = 0 || 14 ≤ t.fmt)
  | 0x11 => a0 ≥ 2 ^ 32 || a1 ≠ 0
  | 0x12 => mode = 3 || outsideMask a0 0x1F3 || bits a0 4 4 > 13 || a1 = 0 || a1 > 512 || (mode = 2 && tz ≠ 0)
  | 0x13 =>
    mode = 3 || bits a0 2 7 = 0 || bits a0 2 7 > 64 || a0 ≥ 2 ^ 58 || a1 ≥ 2 ^ 44 || !topPOk (bits a1 0 32) || (mode ≠ 2 && tz ≠ 0)
  | 0x14 => a0 ≥ 2 ^ 12 || a1 ≠ 0 || dCount d = 0 || dCount d > 64
  | 0x15 => mode = 3 || bit a0 3 || bits a0 16 8 = 0 || a0 ≥ 2 ^ 36 || a1 ≠ 0 || (!bit a0 2 && tz ≠ 0)
  | 0x20 => tz ≠ 0 || a0 ≠ 0 || a1 ≠ 0
  | 0x21 => outsideMask a0 0x77 || !opValid op fmt || (op < 3 && tz ≠ 0) || (op ≠ 4 && a1 ≠ 0)
  | 0x22 => tx ≠ 0 || tz ≠ 0 || a1 ≠ 0
  | 0x23 => tx ≠ 0 || ty ≠ 0 || tz ≠ 0 || a1 ≠ 0 || dCount d ≠ 0
  | 0x30 => outsideMask a0 0x77 || op > 2 || !opValid op fmt || tz ≠ 0 || a1 ≠ 0
  | 0x31 => nMembers s p ≤ a0 || tz ≠ 0 || a1 ≠ 0
  | 0x32 => tz ≠ 0 || a0 ≠ 0 || a1 ≠ 0
  | _ => tz ≠ 0 || a0 ≠ 0 || a1 ≠ 0 || !ringMembers (members s p)

def isMatrix (d : List Byte) : Bool := dKind d == 1 || dKind d == 2
def isChain (d : List Byte) : Bool := dKind d == 2

/-- The reserved and unused fields of a matrix body (Table 8-4). -/
def matBodyBad (d : List Byte) : Bool :=
  bits (dWord d 0x30) 60 4 ≠ 0 || dWord d 0x38 ≠ 0 || (!isChain d && (dWord d 0x28 ≠ 0 || dTa2 d ≠ 0 || dCfg2 d ≠ 0))

/-! ### What a descriptor touches -/

/-- An access of a descriptor to a tensor: the operand (0 to 2; 3 where ARG0 names it), index in the table, tensor, whether it writes, whether
those writes are sure at maximum counts, and the byte ranges of the share's rows, taken as one run, on each rank and position. -/
structure Touch where
  op : Nat
  idx : Nat
  t : Tensor
  write : Bool
  sure : Bool
  at_ : List (Nat × Nat × List (Nat × Nat))
  deriving DecidableEq, Repr

/-- The whole share of a tensor on each of its places: rows that only run time names. -/
def wholeAt (n : Nat) (t : Tensor) : List (Nat × Nat × List (Nat × Nat)) :=
  (places n [t]).map fun x => (x.1, x.2, [(0, (shareOf t x.1 x.2).2 * max 1 t.rowBytes)])

/-- The touches of a descriptor of a vector, mover or collective kind, its indirect operand at offset `u`. -/
def bodyTouches (s : State) (p : Nat) (d : List Byte) (u : Nat) : List Touch :=
  let po := polder s p
  let n := nMembers s p
  let ix := fun (k : Nat) => dTensor d k + (if dIdxV d && dIdxOp d = k then u else 0)
  let sure := fun (k : Nat) => !(dIdxV d && dIdxOp d = k && dIdxRange d > 1)
  let tx := tensorAt po (ix 0)
  let ty := tensorAt po (ix 1)
  let tz := tensorAt po (ix 2)
  let a0 := dArg0 d
  let mode := bits a0 0 2
  let ks := bits a0 2 7
  let c2 := bits (dArg1 d) 0 10
  let cnt := fun (r q : Nat) => if dCount d = 0 then (shareOf ty r q).2 else dCount d
  let rd := fun (k : Nat) (t : Tensor) (l : List (Nat × Nat × List (Nat × Nat))) => ({ op := k, idx := ix k, t := t, write := false, sure := false, at_ := l } : Touch)
  let wr := fun (k : Nat) (t : Tensor) (l : List (Nat × Nat × List (Nat × Nat))) => ({ op := k, idx := ix k, t := t, write := true, sure := sure k, at_ := l } : Touch)
  let on := fun (ts : List Tensor) (f : Nat → List (Nat × Nat)) => (places n ts).map fun x => (x.1, x.2, f (cnt x.1 x.2))
  let ranks := fun (f : Nat → List (Nat × Nat)) => (List.range n).map fun r => (r, 0, f r)
  let one := fun (l : List (Nat × Nat)) => [(0, 0, l)]
  let rows := fun (t : Tensor) (m : Nat) => [(0, m * max 1 t.rowBytes)]
  match dKind d with
  | 0x10 => [rd 0 tx (on [tx, ty] (rows tx)), wr 1 ty (on [tx, ty] (rows ty))]
  | 0x11 => [rd 0 tx (on [tx, ty] (rows tx)), wr 1 ty (on [tx, ty] (rows ty)),
             rd 2 tz (on [tx, ty] fun m => if m = 0 then [] else rows tz 1)]
  | 0x12 =>
    let recs := fun (m : Nat) => [(0, m * precBytes c2)]
    if mode = 0 then
      [rd 0 tx ((everyPos n).map fun x => (x.1, x.2, recs (cnt x.1 0))),
       wr 1 ty ((List.range n).flatMap fun r => (memberPos ty).map fun q => (r, q, recs (cnt r 0))),
       wr 2 tz ((List.range n).flatMap fun r => (memberPos tz).map fun q => (r, q, [(0, 4 * cnt r 0)]))]
    else if mode = 1 then
      [rd 0 tx (on [tx, ty] recs), wr 1 ty (on [tx, ty] recs), rd 2 tz (on [tx, ty] fun m => [(0, 4 * m)])]
    else [rd 0 tx (on [tx, ty] recs), wr 1 ty (on [tx, ty] (rows ty))]
  | 0x13 =>
    let m := cnt 0 0
    let all := fun (t : Tensor) (l : List (Nat × Nat)) => (places n [t]).map fun x => (x.1, x.2, l)
    if mode = 2 then
      [rd 0 tx (one [(0, 4), (8, 16), (144, 400)]), { wr 1 ty (one [(0, (shareOf ty 0 0).2 * max 1 ty.rowBytes)]) with sure := false }, wr 2 tz (all tz [(0, 64)])]
    else
      [rd 0 tx (all tx [(0, m * topkBytes ks)]),
       wr 1 ty (all ty (if mode = 0 then [(0, 4 * m), (256, 264)] else (List.range m).map fun i => (i * ty.rowBytes, i * ty.rowBytes + 4 * ks)))] ++
      (if mode = 0 && bit a0 9 then
        let ta := tensorAt po (bits a0 10 12)
        [{ op := 3, idx := bits a0 10 12, t := ta, write := false, sure := false, at_ := one [(0, 8 * m)] }]
       else [])
  | 0x14 =>
    let m := dCount d
    let ta := tensorAt po (bits a0 0 12)
    [rd 0 tx (one [(0, 4 * m), (256, 264)]), wr 1 ty ((places n [ty]).map fun x => (x.1, x.2, [(0, 512)])), rd 2 tz (one [(0, 4 * m)]),
     { op := 3, idx := bits a0 0 12, t := ta, write := false, sure := false, at_ := one [(0, 8 * m)] }]
  | 0x15 =>
    let nt := bits a0 16 8
    let dst := fun (k j : Nat) =>
      let t := tensorAt po (ix k + j)
      let l := if mode = 2 && k = 1 && !bit a0 2 then
          (everyPos n).map fun x => let h := shareOf t x.1 x.2; (x.1, x.2, rows t (min (dCount d - h.1) h.2))
        else wholeAt n t
      ({ op := k, idx := ix k + j, t := t, write := true, sure := mode = 2 && sure k && t.loc = 2 && t.share = 0 && !bit a0 2, at_ := l } : Touch)
    [if mode = 1 then rd 0 tx (one [(0, 4), (16, 144)]) else rd 0 tx (wholeAt n tx)] ++ (List.range nt).map (dst 1) ++
      (if bit a0 2 then (List.range nt).flatMap fun j =>
        let t := tensorAt po (ix 2 + j)
        [{ op := 2, idx := ix 2 + j, t := t, write := false, sure := false, at_ := wholeAt n t }, dst 2 j] else [])
  | 0x20 => [rd 0 tx (on [tx, ty] (rows tx)), wr 1 ty (on [tx, ty] (rows ty))]
  | 0x21 =>
    let ps := fun (t : Tensor) => (if dOrdered d && (places n [tx, ty]).length = 1 then (List.range n).map fun r => (r, 0) else places n [tx, ty]).map
      fun x => (x.1, x.2, rows t (cnt x.1 x.2))
    [rd 0 tx (ps tx), { wr 1 ty (ps ty) with sure := false }] ++ (if 3 ≤ bits a0 0 3 then [wr 2 tz (ps tz)] else [])
  | 0x22 => [wr 1 ty (on [ty] (rows ty))]
  | 0x23 => []
  | 0x30 =>
    let k := (if dCount d = 0 then allElems ty else dCount d) * opSize (bits a0 4 3)
    [rd 0 tx (ranks fun _ => [(0, k)]), wr 1 ty ((places n [ty]).map fun x => (x.1, x.2, [(0, k)]))]
  | 0x31 =>
    let k := elemBytes tx (if dCount d = 0 then allElems ty else dCount d)
    [rd 0 tx [(bits a0 0 5, 0, [(0, k)])], wr 1 ty ((places n [ty]).map fun x => (x.1, x.2, [(0, k)]))]
  | 0x32 =>
    let k := elemBytes tx (if dCount d = 0 then allElems ty / n else dCount d)
    [rd 0 tx (ranks fun _ => [(0, k)]), wr 1 ty ((places n [ty]).map fun x => (x.1, x.2, [(0, n * k)]))]
  | _ =>
    let k := if dCount d = 0 then (shareOf ty 0 0).2 * ty.rowBytes / 2 else dCount d
    [rd 0 tx (ranks fun _ => [(0, 2 * k)]),
     { wr 1 ty ((List.range n).flatMap fun r => (memberPos ty).map fun q => (r, q, [(0, 2 * k)])) with sure := n = 24 }]

/-- The operands of a matrix descriptor, its indirect one at offset `u`: A1, B1 and, for a CHAIN, A2. -/
def matOperands (s : State) (p : Nat) (d : List Byte) (u : Nat) : List (Nat × Tensor × OpWord) :=
  let po := polder s p
  let ix := fun (k named : Nat) => named + (if dIdxV d && dIdxOp d = k then u else 0)
  let o := fun (k named : Nat) (w : OpWord) => (ix k named, tensorAt po (ix k named), w)
  [o 0 (dTa1 d) (dOpw1 d), o 1 (dTb1 d) (dOpw1 d)] ++ (if isChain d then [o 2 (dTa2 d) (dOpw2 d)] else [])

/-- Rows of a matrix operand on a position: A by ROWS, B by the columns that its share holds. -/
def matTouches (s : State) (p : Nat) (d : List Byte) (u : Nat) : List Touch :=
  let n := nMembers s p
  (matOperands s p d u).zipIdx.map fun x =>
    let (idx, t, w) := x.1
    let at_ := (everyPos n).map fun y =>
      let have_ := (shareOf t y.1 y.2).2
      (y.1, y.2, [(0, min have_ (if x.2 = 1 then w.n * w.cols else w.rows) * max 1 t.rowBytes)])
    { op := x.2, idx := idx, t := t, write := false, sure := false, at_ := at_ }

/-- The indirect offsets that admission checks (R269); the direct operands of an empty range are still checked. -/
def idxOffsets (d : List Byte) : List Nat := if dIdxV d then List.range (max 1 (dIdxRange d)) else [0]

/-- Is an operand's tensor named at all: an indirect one with IDX_RANGE 0 names none (R269). -/
def namesOp (d : List Byte) (k : Nat) : Bool := !(dIdxV d && dIdxRange d = 0 && dIdxOp d = k)

/-- Every touch of a descriptor over its indirect range. -/
def touches (s : State) (p : Nat) (d : List Byte) : List Touch :=
  ((idxOffsets d).flatMap fun u => if isMatrix d then matTouches s p d u else bodyTouches s p d u).filter fun t => namesOp d t.op

/-! ### Tensors (R261, R262, R269, R629) -/

/-- Does some descriptor of the recipe chain (R236). -/
def Img.chained (m : Img) : Bool := m.descs.any isChain

/-- The grist a recipe's tensors and stages may use: all of it, or what the reserved grist leaves (R236). -/
def gristTop (s : State) (p : Nat) (m : Img) : Nat := if m.chained then gristSize - (polder s p).sec.fuseGrist * 65536 else gristSize

/-- A host tensor within its valid entry (R505). -/
def hostTensorOk (s : State) (t : Tensor) : Bool :=
  let ok := fun (a : Nat) => a < 256 && (hbuf s a).valid
  ok t.addr && t.rows * t.pitch ≤ (hbuf s t.addr).len && (!fIsMx t.fmt || ok t.saddr)

/-- The last byte of a grist tensor, elements and scales (R262). -/
def gristEnd (t : Tensor) : Nat :=
  max (if t.rows = 0 then 0 else t.addr * 32 + (t.rows - 1) * t.pitch + t.rowBytes) (if fIsMx t.fmt then t.saddr * 32 + t.rows * t.scaleBytes else 0)

/-- An entry that no kind accepts: empty, reserved bits, DIST 0b11, PITCH not a multiple of 32. -/
def entryBad (e : TensorEntry) : Bool :=
  let t := tensorOf e
  t.loc = 0 || t.dist = 3 || t.pitch % 32 ≠ 0 || fld e.w0 48 16 ≠ 0 || fld e.w1 48 16 ≠ 0

/-- A touch beyond its share's rows at maximum counts, or at or above 2^48 (R261, R629): the rows that run time may choose are those of
the touch. -/
def touchOver (t : Touch) : Bool :=
  let rb := max 1 t.t.rowBytes
  t.at_.any fun x =>
    let hi := x.2.2.foldl (fun h y => max h y.2) 0
    let (first, have_) := shareOf t.t x.1 x.2.1
    let last := first + (hi + rb - 1) / rb
    have_ * rb < hi || (t.t.loc = 1 && hi ≠ 0 && (2 ^ 48 < t.t.addr + (last - 1) * t.t.pitch + t.t.rowBytes || 2 ^ 48 < t.t.saddr + last * t.t.scaleBytes))

/-- A location that the kind does not accept: reads come from memory or grist, updates go to memory. -/
def locBad (s : State) (d : List Byte) (t : Touch) : Bool :=
  if !t.write then t.t.loc = 3
  else if dKind d = 0x21 && t.idx = dTensor d 1 then t.t.loc ≠ 1
  else t.t.loc = 3 && !hostTensorOk s t.t

/-- Shapes and formats that a kind fixes: VMAP keeps the columns of TX and writes the stored format (R225); VNORM writes FP32 or BF16 with a
weight per column; MCOPY moves whole rows (log 23). -/
def shapeBad (s : State) (p : Nat) (m : Img) (d : List Byte) (u : Nat) : Bool :=
  let po := polder s p
  let ix := fun (k : Nat) => dTensor d k + (if dIdxV d && dIdxOp d = k then u else 0)
  let tx := tensorAt po (ix 0)
  let ty := tensorAt po (ix 1)
  let tz := tensorAt po (ix 2)
  let x := namesOp d 0
  let y := namesOp d 1
  let z := namesOp d 2
  match dKind d with
  | 0x10 => let f := storedFmt (stagesOf (m.ext d)); (x && y && tx.cols ≠ ty.cols) || (y && f ≤ 13 && ty.fmt ≠ f)
  | 0x11 => (x && y && tx.cols ≠ ty.cols) || (x && z && tz.cols ≠ tx.cols) || (z && tz.rows = 0) || (y && !(ty.fmt = 1 || ty.fmt = 3))
  | 0x20 => x && y && (tx.rowBytes ≠ ty.rowBytes || tx.scaleBytes ≠ ty.scaleBytes)
  | _ => false

/-- Matrix operands: their FMT is the operation word's and lies in memory or grist (R262). -/
def matOperandBad (x : Nat × Tensor × OpWord) (k : Nat) : Bool :=
  let (_, t, w) := x
  t.fmt ≠ (if k = 1 then w.fmtB else w.fmtA) || 14 ≤ t.fmt || !(t.loc = 1 || t.loc = 2)

/-- AD_TENSOR for one descriptor. -/
def tensorBad (s : State) (p : Nat) (m : Img) (d : List Byte) : Bool :=
  let po := polder s p
  let ts := touches s p d
  let top := gristTop s p m
  ts.any (fun t => decide (po.sec.ttEntries ≤ t.idx) || entryBad (tget ttEmpty po.tt t.idx) || (t.t.loc = 2 && decide (top < gristEnd t.t)) ||
    touchOver t) ||
  (if isMatrix d then (idxOffsets d).any fun u => (matOperands s p d u).zipIdx.any fun x => namesOp d x.2 && matOperandBad x.1 x.2
   else ts.any (locBad s d) || (idxOffsets d).any (shapeBad s p m d))

/-! ### Formats and parameter words (R57, R223, R264, R269) -/

/-- Formats that the stage words name (R223). -/
def stageFmts (l : List Stage) : List Nat :=
  l.filterMap fun x => if x.op = 6 then some x.mode else if x.op = 5 || ((x.op = 1 || x.op = 2) && x.mode ≠ 2) then some (if bit x.fl 0 then 3 else 1) else none

/-- The kinds that move bits as bits (R57). -/
def movesBits (k : Nat) : Bool := k == 0x20 || k == 0x22 || k == 0x31 || k == 0x32 || k == 0x33

/-- AD_FMT_OFF for one descriptor. The output format code of VMERGE MODE 2 counts among the formats that a descriptor names (DESIGN CHOICE,
log 23: the three ways of R57 do not list it). -/
def fmtBad (s : State) (p : Nat) (m : Img) (d : List Byte) : Bool :=
  let po := polder s p
  let tens := if movesBits (dKind d) then [] else (touches s p d).map fun t => t.t.fmt
  let ops := if isMatrix d then [(dOpw1 d).fmtA, (dOpw1 d).fmtB] ++ (if isChain d then [(dOpw2 d).fmtA, (dOpw2 d).fmtB] else []) else []
  let more := if dKind d = 0x12 && bits (dArg0 d) 0 2 = 2 then [bits (dArg0 d) 4 4] else []
  (tens ++ ops ++ more ++ stageFmts (stagesOf (m.ext d))).any fun f => !fmtOn po f

/-- Parameter words that a descriptor names. -/
def pwords (m : Img) (d : List Byte) : List Nat :=
  let a0 := dArg0 d
  (if dLenV d then [dLenPw d] else []) ++ (if dIdxV d then [dIdxPw d] else []) ++
    (((stagesOf (m.ext d)).filter fun x => x.op == 7).map fun x => x.pidx) ++
    (match dKind d with
      | 0x13 => [bits a0 22 12, bits a0 34 12, bits a0 46 12, bits a0 46 12 + 1, bits (dArg1 d) 32 12]
      | 0x15 => [bits a0 4 12, bits a0 24 12]
      | _ => [])

/-! ### Matrix operations (R181, R198, R255) -/

/-- A group configuration entry that R198 refuses for its values or reserved bits. -/
def cfgEntryBad (b : List Byte) : Bool :=
  let c0 := toW (leAt b 0 8)
  fld c0 30 11 > 1024 || fld c0 23 7 > 64 || fld c0 20 3 > 4 || fld c0 14 2 = 3 || fld c0 41 23 ≠ 0 || fld c0 0 14 ≠ 0 || leAt b 16 8 ≥ 2 ^ 34 ||
    leAt b 24 8 ≠ 0

/-- Slots of an operation on each position (R199). -/
def opSlots (w : OpWord) : Nat := w.n * ((w.rows + 7) / 8)

/-- Bytes of a row of Y where a result leaves through stages, or through none (R216, R233). -/
def yBytes (l : List Stage) (cols : Nat) (c0 : Word) : Nat :=
  if l.isEmpty then yRowBytes cols (cfgWide c0) else alignUp (rowLen (storedFmt l) cols) 32

/-- One operation of a matrix descriptor: its word, its configuration, its A operand, its B operand where it names one. `keys`: the depth
that a CHAIN's second operation needs. Only an operation that opens its group is held to the entry's contents (R196, R198); `l`: the
stages that its result leaves through. -/
def mopBad (s : State) (p : Nat) (m : Img) (w : OpWord) (k : Nat) (ta : Tensor) (tb : Option Tensor) (l : List Stage) (opens : Bool) (second : Bool)
    (first : Bool) (keys : Nat) : Bool :=
  if m.nc ≤ k then true
  else
    let b := m.cfg k
    let c0 := toW (leAt b 0 8)
    let c2 := toW (leAt b 16 8)
    match pairing w.fmtA w.fmtB with
    | none => true
    | some (c, dd) =>
      opWordBad (polder s p) w ||
        (opens && (cfgEntryBad b || cfgBad c (w.n * w.cols) (yBytes l w.rows c0) c0 c2 || (!first && decide (256 < opSlots w)) || ((second || !first) && cfgDest c0 ≠ 1))) ||
        (w.depth ≠ ta.cols && (w.depth % dd ≠ 0 || (c == .mx && w.depth % 32 ≠ 0))) ||
        tb.any (fun t => t.cols ≠ ta.cols) || (everyPos (nMembers s p)).any (fun x => decide ((shareOf ta x.1 x.2).2 < w.rows)) || decide (ta.cols < keys)

/-- The MATRIX that opened the group which MATRIX `i` names, by list order: the first since the group's last close (R196, R233). -/
def openerOf (m : Img) (i : Nat) : Nat :=
  let g := (dOpw1 (m.desc i)).grp
  let cur := (List.range i).foldl (fun (o : Option Nat) j =>
    let d := m.desc j
    if dKind d = 1 && (dOpw1 d).grp = g then (if (dOpw1 d).close then none else some (o.getD j)) else o) none
  cur.getD i

/-- The stage list that the group of MATRIX `i` leaves through, by list order: that of the descriptor whose operation closes it (R233). -/
def closerStages (m : Img) (i : Nat) : List Stage :=
  let g := (dOpw1 (m.desc i)).grp
  match (span i (m.nd - i)).find? fun j => dKind (m.desc j) = 1 && (dOpw1 (m.desc j)).grp = g && (dOpw1 (m.desc j)).close with
  | some j => stagesOf (m.ext (m.desc j))
  | none => []

/-- The parts of a chain's list: before DEFER, DEFER, after it. -/
def chainParts (l : List Stage) : List Stage × Stage × List Stage :=
  let a := l.takeWhile fun x => x.op ≠ 10
  (a, l.getD a.length (stageOf 0), l.drop (a.length + 1))

/-- The stages that a chain's second result leaves through: DEFER and those after it. -/
def secondStages (l : List Stage) : List Stage := let x := chainParts l; x.2.1 :: x.2.2

/-- The configuration entry that its group opened with. -/
def openerCfg (m : Img) (i : Nat) : Nat := dCfg1 (m.desc (openerOf m i))

/-- The shape fields that R192 records. -/
def shapeOf (w : OpWord) : List Nat := [w.fmtA, w.fmtB, w.prec, w.ma, w.bc, w.cols, w.rows]

/-- A MATRIX whose group stands open with another shape (R193). -/
def groupClash (m : Img) (i : Nat) (d : List Byte) : Bool := dKind d = 1 && shapeOf (dOpw1 (m.desc (openerOf m i))) ≠ shapeOf (dOpw1 d)

/-- AD_MATRIX for one descriptor. -/
def matrixBad (s : State) (p : Nat) (m : Img) (i : Nat) (d : List Byte) : Bool :=
  isMatrix d && (groupClash m i d || (idxOffsets d).any fun u =>
    match matOperands s p d u with
    | [a, b] => mopBad s p m a.2.2 (dCfg1 d) a.2.1 (some b.2.1) (closerStages m i) (openerOf m i == i) false false 0
    | [a, b, v] =>
      mopBad s p m a.2.2 (dCfg1 d) a.2.1 (some b.2.1) [] true false true 0 || mopBad s p m v.2.2 (dCfg2 d) v.2.1 none (secondStages (stagesOf (m.ext d))) true true false a.2.2.rows
    | _ => true)

/-! ### Stages and chains (R222, R233, R235–R237) -/

/-- A finite FP32 code, not negative where asked. -/
def clampArgBad (mode arg : Nat) : Bool := bits arg 23 8 = 255 || (mode ≤ 1 && bit arg 31 && arg ≠ 0x80000000)

/-- A stage word outside Table 7-2. -/
def stageBad (chain : Bool) (x : Stage) : Bool :=
  match x.op with
  | 1 => x.mode > 2 || x.fl > 1 || (x.mode ≠ 2 && x.arg ≠ 0)
  | 2 => x.mode > 3 || x.fl > 1 || (x.mode ≠ 2 && x.arg ≠ 0)
  | 3 => x.mode > 6 || x.fl ≠ 0 || x.arg ≠ 0
  | 4 => x.mode > 3 || x.fl ≠ 0 || clampArgBad x.mode x.arg
  | 5 => x.mode ≠ 0 || x.fl > 1 || x.arg ≠ 0
  | 6 => x.mode > 13 || x.fl > 3 || x.arg ≠ 0
  | 7 => x.mode > 1 || x.fl ≠ 0 || x.qgrp = 0 || x.qgrp > 64 || bits x.arg 0 8 ≠ 0
  | 8 => x.mode > 1 || x.fl ≠ 0 || x.arg ≠ 0 || (x.mode = 1 && !chain)
  | 9 => x.mode ≠ 0 || x.fl ≠ 0 || x.topk = 0 || x.topk > 64 || x.arg ≥ 128
  | 10 => x.mode > 2 || x.fl ≠ 0 || x.arg ≠ 0 || !chain
  | _ => true

/-- A stage list that R222 or R235 refuses: more stages than FUSE_STAGES, a word outside the table, or anything after the end. -/
def listBad (stages : Nat) (chain : Bool) (ext : List Byte) : Bool :=
  let l := stagesOf ext
  decide (stages < l.length) || l.any (stageBad chain) || ((List.range 8).drop l.length).any fun i => leAt ext (8 * i) 8 ≠ 0

/-- The group configuration's RED, OUTW and DEST of a descriptor's entry. -/
def Img.red (m : Img) (k : Nat) : Nat := fld (toW (leAt (m.cfg k) 0 8)) 18 2
def Img.outw (m : Img) (k : Nat) : Nat := fld (toW (leAt (m.cfg k) 0 8)) 16 1
def Img.dest (m : Img) (k : Nat) : Nat := fld (toW (leAt (m.cfg k) 0 8)) 14 2

/-- Groups a matrix descriptor writes (R239). -/
def groupsOf (d : List Byte) : List Nat :=
  let g := (dOpw1 d).grp
  if isChain d then [g, g ^^^ 1, (dOpw2 d).grp] else [g]

/-- R234, R235. -/
def chainBad (m : Img) (d : List Byte) (l : List Stage) : Bool :=
  let w1 := dOpw1 d
  let w2 := dOpw2 d
  let (a, df, b) := chainParts l
  let arrays := fun (w : OpWord) => span w.ma w.n
  let soft := fun (x : Stage) => x.op == 8 && x.mode == 1
  (l.filter fun x => x.op == 10).length ≠ 1 || (arrays w1).any (fun x => (arrays w2).contains x) || w1.bc ≠ w2.bc || w1.cols ≠ w2.cols ||
    w2.grp = w1.grp || w2.grp = w1.grp ^^^ 1 || w2.fmtB ≠ storedFmt a || (pairing w2.fmtA w2.fmtB).isNone ||
    m.red (dCfg1 d) ≠ 0 || m.red (dCfg2 d) ≠ 0 || m.outw (dCfg1 d) ≠ 0 || m.outw (dCfg2 d) ≠ 0 || m.dest (dCfg1 d) ≠ 2 || m.dest (dCfg2 d) ≠ 1 ||
    b.any soft || (a.filter soft).length > 1 || (a.any soft) ≠ decide (df.mode = 1 ∨ df.mode = 2) ||
    l.any fun x => x.op == 9 || (x.op == 8 && x.mode == 0)

/-- Bytes that a stage uses at OFF on a position of `nq` rows and `np` columns, and whether it writes them. `last`: it is the CONVERT whose
scale bytes go to grist (R228). -/
def stageRun (nq np : Nat) (last : Bool) (x : Stage) : Nat × Bool :=
  let w := if bit x.fl 0 then 2 else 4
  if x.op = 5 || (x.op = 2 && x.mode = 3) then (nq * alignUp (np * w) 32, false)
  else if x.op = 1 || x.op = 2 then ((if x.mode = 0 then np else if x.mode = 1 then nq else 0) * w, false)
  else if x.op = 6 then ((if last && fIsMx x.mode then alignUp (nq * blocksOf x.mode np) 32 else 0), true)
  else if x.op = 7 then ((if x.mode = 1 && nq ≠ 0 then 8 * ((nq - 1) / max 1 x.qgrp + 1) else 0), false)
  else if x.op = 8 then ((if x.mode = 0 then statRun nq else 0), true)
  else if x.op = 9 then (nq * topkBytes x.topk, true)
  else if x.op = 10 then ((if x.mode = 2 then nq * alignUp (8 + 4 * np) 32 else 0), true)
  else (0, false)

/-- The runs of a part of a list, as (offset, end, writes). -/
def partRuns (nq np : Nat) (stored : Bool) (l : List Stage) : List (Nat × Nat × Bool) :=
  l.zipIdx.filterMap fun x =>
    let last := stored && !(l.drop (x.2 + 1)).any fun y => y.op == 6
    let (n, w) := stageRun nq np last x.1
    if n = 0 then none else some (x.1.off * 32, x.1.off * 32 + n, w)

/-- Rows that a descriptor's stages and results have on a position at maximum counts, one figure for each index of its indirect operand: of a
VMAP those it maps there, of a matrix kind the columns of B that the position's share holds (R214, R261). -/
def rowsOn (s : State) (p : Nat) (d : List Byte) (r q : Nat) : List Nat :=
  let po := polder s p
  (idxOffsets d).map fun u =>
    if isMatrix d then min ((dOpw1 d).n * (dOpw1 d).cols) (match matOperands s p d u with | _ :: b :: _ => (shareOf b.2.1 r q).2 | _ => 0)
    else if dCount d ≠ 0 then dCount d
    else (shareOf (tensorAt po (dTensor d 1 + if dIdxV d && dIdxOp d = 1 then u else 0)) r q).2

def maxOf (l : List Nat) : Nat := l.foldl max 0
def minOf (l : List Nat) : Nat := l.foldl min (l.headD 0)

/-- The grist runs of a descriptor's stages over `n` rows. -/
def stageRuns (s : State) (p : Nat) (m : Img) (d : List Byte) (n : Nat) : List (Nat × Nat × Bool) :=
  let l := stagesOf (m.ext d)
  let w := dOpw1 d
  if dKind d = 0x10 then partRuns n (tensorAt (polder s p) (dTensor d 0)).cols false l
  else if isChain d then
    let (a, df, b) := chainParts l
    partRuns n w.rows false a ++ partRuns n (dOpw2 d).rows true (df :: b)
  else partRuns n w.rows true l

/-- The runs of Y, in rows of `yb` bytes, and of the group's records at a configuration's places. -/
def Img.yRuns (m : Img) (k nq : Nat) (yb : Word → Nat) : List (Nat × Nat × Bool) :=
  let c0 := toW (leAt (m.cfg k) 0 8)
  let c2 := toW (leAt (m.cfg k) 16 8)
  (if cfgYout c0 && nq ≠ 0 then [(cfgYoff c2, cfgYoff c2 + nq * yb c0, true)] else []) ++
    (if recordRun nq c0 = 0 then [] else [(cfgStatOff c2, cfgStatOff c2 + recordRun nq c0, true)])

/-- What a matrix descriptor's results write over `n` rows: a MATRIX at its close, a CHAIN its second group's (R216, R233). -/
def resultRuns (m : Img) (i : Nat) (d : List Byte) (n : Nat) : List (Nat × Nat × Bool) :=
  let w := dOpw1 d
  let l := stagesOf (m.ext d)
  if isChain d then m.yRuns (dCfg2 d) n (yBytes (secondStages l) (dOpw2 d).rows)
  else if dKind d = 1 && w.close then m.yRuns (openerCfg m i) n (yBytes l w.rows)
  else []

/-- The most rows that a descriptor has on any position. -/
def mostRows (s : State) (p : Nat) (d : List Byte) : Nat := maxOf ((everyPos (nMembers s p)).flatMap fun x => rowsOn s p d x.1 x.2)

/-- AD_FUSION for one descriptor. -/
def fusionBad (s : State) (p : Nat) (m : Img) (i : Nat) (d : List Byte) : Bool :=
  let ext := m.ext d
  let l := stagesOf ext
  let top := gristTop s p m
  let oc := openerCfg m i
  (dExt d && listBad (polder s p).sec.fuseStages (isChain d) ext) || (dKind d = 0x10 && l.any fun x => x.op > 6) ||
    (dKind d = 1 && !l.isEmpty && (m.red oc ≠ 0 || m.outw oc ≠ 0 || m.dest oc ≠ 1)) || (isChain d && chainBad m d l) ||
    (stageRuns s p m d (mostRows s p d) ++ resultRuns m i d (mostRows s p d)).any fun r => decide (top < r.2.1)

/-- The pass length of a chain (R237): none where no window fits; the passes and repeats must stay within 256 sub-operations. -/
def planChain (sec : PolderSec) (d : List Byte) (l : List Stage) : Except Nat Nat :=
  let w1 := dOpw1 d
  let w2 := dOpw2 d
  let nq := w1.n * w1.cols
  let kb := depthS w2.fmtB
  let cask := sec.fuseCask * 65536 - nq * (4 * w2.rows + 8)
  let per := nq * (4 * fBits w2.fmtB + (if fIsMx w2.fmtB then 1 else 0))
  let lim := min (cask / (4 * nq)) (sec.fuseGrist * 65536 * 32 / per)
  let len := lim / kb * kb
  if len = 0 then .error 0x4D
  else
    let len := min len (kb * ((w1.rows + kb - 1) / kb))
    if 256 < (w1.rows + len - 1) / len * (1 + repeats l) then .error 0x4E else .ok len

/-- The chain checks of one descriptor. -/
def chainPlanOk (s : State) (p : Nat) (m : Img) (i : Nat) (d : List Byte) : AM Unit :=
  if isChain d then
    match planChain (polder s p).sec d (stagesOf (m.ext d)) with
    | .ok _ => pure ()
    | .error c => throw { code := c, detail := i }
  else pure ()

/-! ### One descriptor, in the order of R279 -/

def adDesc (s : State) (p : Nat) (m : Img) (i : Nat) : AM Unit := do
  let d := m.desc i
  let po := polder s p
  refuseIf (commonBad m.ne d || (if isMatrix d then matBodyBad d else bodyBad s p d)) 0x44 i
  refuseIf ((List.range 4).any fun j => decide (i < leAt d (8 + 2 * j) 2)) 0x45 i
  refuseIf (((dWaits d).map (·.1) ++ dSets d).any fun n => decide (po.sec.sluices ≤ n)) 0x46 i
  refuseIf (tensorBad s p m d) 0x47 i
  refuseIf (fmtBad s p m d) 0x48 i
  refuseIf ((pwords m d).any (fun w => decide (m.pbWords ≤ w)) || (dIdxV d && dIdxRange d = 0)) 0x49 i
  refuseIf (if dOrdered d then dKind d ≠ 0x21 || dContrib d = 0 || decide (nMembers s p < dContrib d) else dContrib d ≠ 0) 0x4A i
  refuseIf (matrixBad s p m i d) 0x4B i
  refuseIf (fusionBad s p m i d) 0x4C i
  chainPlanOk s p m i d

/-! ### Staging (R257) -/

/-- Two windows of each memory operand of a matrix descriptor (R256, R175). -/
def stagingNeed (s : State) (p : Nat) (d : List Byte) : Nat :=
  if !isMatrix d then 0
  else (idxOffsets d).foldl (fun a u => max a (((matOperands s p d u).zipIdx.map fun x =>
    let (_, t, w) := x.1
    if t.loc = 1 then 2 * (if x.2 = 1 then w.n * w.cols else w.rows) * (rowBytes t.fmt w.depth + rowBlocks t.fmt w.depth) else 0).sum)) 0

/-- The grist bytes of a tensor's rows lo to hi of a run, and of their scales. -/
def gristBytesOf (t : Tensor) (x : Nat × Nat) : List (Nat × Nat) :=
  if x.2 ≤ x.1 then []
  else
    let rb := max 1 t.rowBytes
    let r0 := x.1 / rb
    let r1 := (x.2 + rb - 1) / rb
    ((span r0 (r1 - r0)).map fun r => (t.addr * 32 + r * t.pitch + (max x.1 (r * rb) - r * rb), t.addr * 32 + r * t.pitch + (min x.2 ((r + 1) * rb) - r * rb))) ++
      (if fIsMx t.fmt then [(t.saddr * 32 + r0 * t.scaleBytes, t.saddr * 32 + r1 * t.scaleBytes)] else [])

/-- The grist tensors that a recipe names. -/
def gristTensors (s : State) (p : Nat) (m : Img) : List Tensor :=
  (m.descs.flatMap fun d => (touches s p d).map (·.t)).filter fun t => t.loc = 2

def meets (a b : Nat × Nat) : Bool := a.1 < b.2 && b.1 < a.2

/-- AD_STAGE. -/
def stagingBad (s : State) (p : Nat) (m : Img) : Bool :=
  let lo := leAt m.b 0x20 4 * 32
  let hi := lo + leAt m.b 0x24 4 * 32
  (lo < hi && (decide (gristTop s p m < hi) ||
    (gristTensors s p m).any fun t => (gristBytesOf t (0, t.rows * max 1 t.rowBytes)).any (meets (lo, hi)))) ||
    m.descs.any fun d => decide (hi - lo < stagingNeed s p d)

/-! ### The issue graph and dependency order (R280–R282) -/

abbrev Edges := List (Nat × Nat)

/-- Predecessor and sluice edges. -/
def depEdges (m : Img) : Edges :=
  let ds := m.descs.zipIdx
  ds.flatMap fun x => (dPreds x.1 x.2).map (fun j => (j, x.2)) ++
    (dWaits x.1).flatMap fun w => (ds.filter fun y => (dSets y.1).contains w.1).map fun y => (y.2, x.2)

/-- Queue edges. -/
def queueEdges (m : Img) : Edges :=
  let ds := m.descs.zipIdx
  ds.filterMap fun x => ((ds.take x.2).filter fun y => queueOf (dKind y.1) == queueOf (dKind x.1)).getLast?.map fun y => (y.2, x.2)

def succs (e : Edges) (v : Nat) : List Nat := (e.filter fun x => x.1 == v).map (·.2)
def predsOf (e : Edges) (v : Nat) : List Nat := (e.filter fun x => x.2 == v).map (·.1)

/-- The nodes that a front leads to in at most `n` more edges. -/
def reachN (next : Nat → List Nat) : Nat → List Nat → List Nat → List Nat
  | 0, seen, _ => seen
  | n + 1, seen, front =>
    let new := (front.flatMap next).foldl (fun l v => if seen.contains v then l else insertNat l v) []
    if new.isEmpty then seen else reachN next n (seen ++ new) new

/-- The nodes after `v`. -/
def after (e : Edges) (n v : Nat) : List Nat := reachN (succs e) n [] [v]

/-- Distance levels to `v`: level k holds the nodes whose shortest way to `v` has k edges. -/
def levelsTo (e : Edges) (v : Nat) : Nat → List Nat → List Nat → List (List Nat)
  | 0, _, _ => []
  | n + 1, seen, front =>
    let new := (front.flatMap (predsOf e)).foldl (fun l u => if seen.contains u then l else insertNat l u) []
    front :: (if new.isEmpty then [] else levelsTo e v n (seen ++ new) new)

/-- The lowest node on a cycle. -/
def onCycle (e : Edges) (n : Nat) : Option Nat := (List.range n).find? fun v => (after e n v).contains v

/-- Follow the lowest successors down the levels. -/
def cycleFrom (e : Edges) (levels : List (List Nat)) : Nat → Nat → List Nat
  | 0, _ => []
  | k + 1, v =>
    match (succs e v).filter fun u => (levels.getD k []).contains u with
    | [] => []
    | l => let u := l.foldl min (l.headD 0); if k = 0 then [] else u :: cycleFrom e levels k u

/-- The cycle list of R281: a shortest cycle through D, lowest sequence first. -/
def cycleOf (e : Edges) (n d : Nat) : List Nat :=
  let levels := levelsTo e d (n + 1) [d] [d]
  let len := ((List.range (n + 1)).find? fun k => (succs e d).any fun u => (levels.getD k []).contains u).getD 0
  d :: cycleFrom e levels (len + 1) d

/-! ### Groups, CLR waits, carried reads (R219, R193, R274, R293) -/

/-- A dependency order as a test: a precedes b. -/
abbrev Prec := Nat → Nat → Bool

/-- The first two of a list that the order leaves unordered, lower index first. -/
def unordered (prec : Prec) (l : List Nat) : Option (Nat × Nat) :=
  (l.flatMap fun a => (l.filter fun b => a < b).map fun b => (a, b)).find? fun x => !prec x.1 x.2 && !prec x.2 x.1

/-- A list that is wholly ordered, in that order. -/
def sortBy (prec : Prec) (l : List Nat) : List Nat :=
  l.foldl (fun acc a => acc.filter (fun b => prec b a) ++ a :: acc.filter fun b => !prec b a) []

/-- An opening of a group: its opener, its closer, its slots. -/
structure Opening where
  op : Nat
  close : Nat
  slots : Nat
  deriving DecidableEq, Repr

/-- Walk the writers of one group in order (R219); their shapes agree (`groupClash`). -/
def walkGroup (m : Img) : Option Nat → List Nat → AM (List Opening)
  | none, [] => pure []
  | some o, [] => throw { code := 0x4B, detail := o }
  | cur, i :: rest =>
    let d := m.desc i
    let w := dOpw1 d
    if isChain d then
      match cur with
      | some o => throw { code := 0x4B, detail := i, detail2 := o }
      | none => walkGroup m none rest
    else
      let o := cur.getD i
      if w.close then do
        let l ← walkGroup m none rest
        pure ({ op := o, close := i, slots := opSlots (dOpw1 (m.desc o)) } :: l)
      else walkGroup m (some o) rest

/-- The slots of a CHAIN (R239). -/
def chainSlots (d : List Byte) : Nat := 2 * (dOpw1 d).n * 8 + opSlots (dOpw2 d)

/-- Groups against D. -/
def adGroups (m : Img) (prec : Prec) : AM Unit := do
  let ms := (List.range m.nd).filter fun i => isMatrix (m.desc i)
  let ops ← (List.range 16).mapM fun g => do
    let ws := ms.filter fun i => (groupsOf (m.desc i)).contains g
    match unordered prec ws with
    | some (a, b) => throw { code := 0x4B, detail := a, detail2 := b }
    | none => walkGroup m none (sortBy prec ws)
  let ops := ops.flatten ++ (ms.filter fun i => isChain (m.desc i)).map fun i => { op := i, close := i, slots := chainSlots (m.desc i) }
  match ops.find? fun x =>
      256 < x.slots + ((ops.filter fun y => y ≠ x && y.close ≠ x.op && !prec y.close x.op && !prec x.op y.op).map (·.slots)).sum with
  | some x =>
    let y := (ops.filter fun y => y ≠ x && y.close ≠ x.op && !prec y.close x.op && !prec x.op y.op).headD x
    throw { code := 0x4B, detail := x.op, detail2 := y.op }
  | none => pure ()

/-- CLR waits and the halt sluice against D (R274). -/
def adSluices (m : Img) (prec : Prec) : AM Unit := do
  let ds := m.descs.zipIdx
  let internal := m.descs.flatMap dSets
  let clr := fun (i : Nat) => ((dWaits (m.desc i)).filter fun w => w.2 && !internal.contains w.1).map (·.1)
  let pairs := (List.range m.nd).flatMap fun a => ((List.range m.nd).filter fun b => a < b && (clr a).any fun n => (clr b).contains n).map fun b => (a, b)
  match pairs.find? fun x => !prec x.1 x.2 && !prec x.2 x.1 with
  | some (a, b) => throw { code := 0x46, detail := a, detail2 := b }
  | none =>
    let h := leAt m.b 0x18 2
    match ds.find? fun x => bit (leAt m.b 0x16 1) 5 && ((dSets x.1).contains h || (dWaits x.1).contains (h, true)) with
    | some x => throw { code := 0x46, detail := x.2 }
    | none => pure ()

/-- Positions a descriptor uses on rank r at maximum lengths (R291): those of its touches with bytes, all of them for a matrix kind. -/
def usesAt (s : State) (p : Nat) (m : Img) (i r q : Nat) : Bool :=
  let d := m.desc i
  isMatrix d || (touches s p d).any fun t => t.at_.any fun x => x.1 == r && x.2.1 == q && x.2.2.any fun y => y.1 < y.2

/-- The grist bytes that descriptor `i` reads, or surely writes, on a position. -/
def gristAt (s : State) (p : Nat) (m : Img) (i r q : Nat) (write : Bool) : List (Nat × Nat) :=
  let d := m.desc i
  if !usesAt s p m i r q then []
  else
    let tens := (touches s p d).flatMap fun t =>
      if t.t.loc = 2 && t.write == write && (!write || t.sure) then
        (t.at_.filter fun x => x.1 == r && x.2.1 == q).flatMap fun x => x.2.2.flatMap (gristBytesOf t.t)
      else []
    let c0 := toW (leAt (m.cfg (if isChain d then dCfg2 d else openerCfg m i)) 0 8)
    let c1 := toW (leAt (m.cfg (dCfg1 d)) 0 8)
    let delivers := q % cfgSpan c0 = 0 && (!isChain d || q % cfgSpan c1 = 0)
    let acts := if dKind d = 1 then (dOpw1 d).close && delivers else !isChain d || q % cfgSpan c1 = 0
    let n := (if write then minOf else maxOf) (rowsOn s p d r q)
    let runs := if acts then (stageRuns s p m d n ++ (if delivers then resultRuns m i d n else [])).filter fun x => x.2.2 == write else []
    tens ++ runs.map fun x => (x.1, x.2.1)

/-- What a run leaves of a range after taking away another. -/
def minus (l : List (Nat × Nat)) (w : Nat × Nat) : List (Nat × Nat) :=
  l.flatMap fun x => [(x.1, min x.2 w.1), (max x.1 w.2, x.2)].filter fun y => y.1 < y.2

/-- AD_KEEP: a carried read outside KEEP_MASK (R293). -/
def keepBad (s : State) (p : Nat) (m : Img) (prec : Prec) (i : Nat) : Bool :=
  (everyPos (nMembers s p)).any fun x =>
    !bit m.keep x.2 &&
      let rs := gristAt s p m i x.1 x.2 false
      !rs.isEmpty && !((((List.range m.nd).filter fun j => prec j i).flatMap fun j => gristAt s p m j x.1 x.2 true).foldl minus rs).isEmpty

/-! ### The whole admission -/

/-- Every check after the image is read (R279). -/
def adChecks (s : State) (p : Nat) (m : Img) : AM Unit := do
  (List.range m.nd).forM (adDesc s p m)
  refuseIf (stagingBad s p m) 0x4F 0
  let dep := depEdges m
  let e := dep ++ queueEdges m
  match onCycle e m.nd with
  | some d =>
    let c := cycleOf e m.nd d
    throw { code := 0x50, detail := d, cyc := c.take 8, trunc := decide (8 < c.length) }
  | none => pure ()
  let order := (List.range m.nd).map (after dep m.nd)
  let prec : Prec := fun a b => (order.getD a []).contains b
  adGroups m prec
  adSluices m prec
  match (List.range m.nd).find? (keepBad s p m prec) with
  | some i => throw { code := 0x51, detail := i }
  | none => pure ()

/-- The recipe that an admitted image becomes. -/
def recipeOf (s : State) (p va : Nat) (m : Img) : Recipe :=
  let h := fun (off n : Nat) => leAt m.b off n
  let len := m.b.length
  { va := va, len := len, pages := adPages s p va len, held := adHeld s p va len, descCount := m.nd, extCount := m.ne, cfgCount := m.nc, pbWords := m.pbWords,
    keepMask := BitVec.ofNat 16 m.keep, nextSlot := bits (h 0x16 1) 0 4, nextV := bit (h 0x16 1) 4, haltV := bit (h 0x16 1) 5, haltSl := h 0x18 2,
    stgOff := h 0x20 4, stgLen := h 0x24 4, pbVa := h 0x28 8,
    passLen := (List.range m.nd).filterMap fun i =>
      let d := m.desc i
      if isChain d then match planChain (polder s p).sec d (stagesOf (m.ext d)) with | .ok l => some (i, l) | .error _ => none else none
    fuseGrist := if m.chained then (polder s p).sec.fuseGrist else 0,
    internal := (m.descs.flatMap dSets).foldl insertNat [],
    locked := (m.descs.flatMap fun d => (touches s p d).map (·.idx)).foldl insertNat [],
    posUsed := (List.range m.nd).map fun i =>
      (i, BitVec.ofNat 384 (maskOf ((List.range (16 * nMembers s p)).filter fun k => usesAt s p m i (k / 16) (k % 16)))) }

/-- Admit an image into a slot: the recipe or the first failure, with the state its reads leave. -/
def admitImage (s : State) (p slot va : Nat) : AM Recipe × State :=
  if 16 ≤ slot || (tfind (polder s p).slots slot).isSome then (.error { code := 0x42 }, s)
  else
    match adFetch s p va with
    | (.error e, s) => (.error e, s)
    | (.ok m, s) =>
      match adChecks s p m with
      | .error e => (.error e, s)
      | .ok _ => (.ok (recipeOf s p va m), s)

/-- The opcode of ADMIT. -/
def opAdmit : Nat := 0x20

/-- What an admission's answer leaves in RCP_STATUS and RCP_CYC (Tables 8-14, 8-15). -/
def rcpOf (f : AdFail) : RcpStatus := { trunc := f.trunc, code := f.code, detail2 := f.detail2, detail := f.detail, cyc := f.cyc }

/-- The completion entry of an admission (Table 15-6). -/
def adCpl (f : AdFail) : Cpl :=
  { status := f.code, flags := b2n f.trunc, detail2 := f.detail2, detail := f.detail,
    result := if f.code = 0x50 then ((List.range 8).map fun k => bytesLE 2 (f.cyc.getD k 0xFFFF)).flatten else [] }

/-- A running admission ends (Table 11-6, source 4). -/
def adEnd (s : State) (p : Nat) (a : Admission) : State :=
  let (r, s) := admitImage s p a.slot a.va
  let (f, s) : AdFail × State := match r with
    | .error f => (f, s)
    | .ok rc => ({ code := 0x40 }, modPolder s p fun po => { po with slots := tins po.slots a.slot rc })
  let s := setInt (modPolder s p fun po => { po with adm := none, rcp := rcpOf f }) p 4
  match a.cmd with
  | some h => complete s h opAdmit (adCpl f)
  | none => s

/-- A request for admission (R278): AD_BUSY while an admission of the polder or a load runs, else the admission begins. -/
def adRequest (s : State) (p : Nat) (cmd : Option CmdHdr) (slot va : Nat) : Bool × State :=
  let po := polder s p
  if po.adm.isSome || s.phiro.busy then (false, setPolder s p { po with rcp := rcpOf { code := 0x43 } })
  else (true, setPolder s p { po with adm := some { cmd := cmd, slot := slot, va := va } })

/-- ADMISSION (R279). -/
def execAdmission (p : Nat) (s : State) : Result :=
  done (match (polder s p).adm with
    | some a => adEnd s p a
    | none => s)

/-- The ADMIT command: it holds its ring until ADMISSION. -/
def admitHost (h : CmdHdr) (slot va : Nat) : State → State :=
  hostCmd .polder opAdmit h fun s =>
    match adRequest s h.pol (some h) slot va with
    | (true, s) => begin_ s h opAdmit
    | (false, s) => complete s h opAdmit (adCpl { code := 0x43 })

/-- ADMIT (R278). -/
def execAdmitCmd (h : CmdHdr) (slot va : Nat) (s : State) : Result := done (admitHost h slot va s)

end Sys2Proof.Machine
end

