-- ==== Sys2Proof/Machine/MemCmds.lean ====
section
/-! DEFINITION. Requests as they reach their home: reads and writes (R402, R411–R416), memory-side updates and ordered windows
(R111–R121), far-memory frames (R407–R409) and refresh (R410). -/

namespace Sys2Proof.Machine

/-! ### Requests and their outcomes -/

/-- The polder that a requester works for. -/
def reqPolder : Requester → Option Nat
  | .descriptor p _ | .descUpdate p _ | .core p | .coreAtomic p | .vector p _ | .walker p => some p
  | _ => none

/-- The LS of a requester's work (R91). -/
def reqLs (s : State) (src : Nat) : Requester → LS
  | .descriptor p i | .descUpdate p i => lsDesc s p i 0 src
  | .core p | .coreAtomic p | .vector p _ | .walker p => lsCore s p
  | .ring r => match ringCmd s r with
    | some (h, _) => lsCmd s h
    | none => lsDevice 24
  | .hostRead _ | .hostWrite _ => lsDevice 24
  | .reeve => lsDevice 31

/-- The context of a request. -/
def reqCtx (s : State) (r : MemReq) : MemCtx :=
  { src := r.src, ls := reqLs s r.src r.req, cls := if r.cls < 6 then some r.cls else none, p := (reqPolder r.req).getD 0xFF, req := r.req }

/-- Is there work that makes a requester's requests: a polder of the image, a descriptor in execution (R123), a command in progress; and no trip in
force (R595) nor RST_N held low (R613). -/
def reqLive (s : State) (req : Requester) : Bool :=
  !halted s && (match reqPolder req with | some p => named s p | none => true) &&
    match req with
    | .descriptor p i | .descUpdate p i => descRuns s p i
    | .ring r => (ringCmd s r).isSome
    | .reeve => !s.reeve.frozen
    | _ => true

/-- Does a stack refuse a request: its CD is in no polder and the request is not MG's (R34). -/
def stackShut (s : State) (pa : Nat) (req : Requester) : Bool := isNear pa && (cdAt s (pa >>> 35)).polder == 0xFF && req ≠ .reeve

/-- Does a request lie within one atom. -/
def inAtom (pa len : Nat) : Bool := 0 < len && pa % 256 + len ≤ 256 && pa < 2 ^ 44

/-- What a request of a polder's master, or of Reeve, breaks before its home takes it: memory that is not the polder's (R33, R400), or a write
into an admitted image (R250). -/
def reqBroken (s : State) (pa len : Nat) (write : Bool) (req : Requester) : Option Nat :=
  match reqPolder req with
  | some p => if outside s p pa then some vOutside else if write && imageHit s [(pa, len)] then some vImage else none
  | none => if req = .reeve && write && imageHit s [(pa, len)] then some vImage else none

/-- A violation at a physical access freezes its master; the address that a core's record carries is the request's virtual one. -/
def breakReq (s : State) (src va : Nat) (inst : Word32) (req : Requester) (v : Nat) : State :=
  match req with
  | .core p | .coreAtomic p => if (polder s p).frzCore.isNone then violate s p v false 0xFFFFFFFF va inst else s
  | .vector p e => if (polder s p).frzCore.isNone then violate s p v false e va inst else s
  | .descriptor p _ | .descUpdate p _ =>
    refuseReq s { cd := src, p := p, space := 0, asid := 0, va := va, access := 0, user := false, req := req, cls := 3 } v
  | .reeve => freezeReeve s v va
  | _ => s

/-- The outcome that Table 12-3 gives a requester of an uncorrectable access of a kind (Table 14-4); a store of the core ends with its record
alone (log 11). -/
def reqFail (s : State) (m : MemCtx) (kind va : Nat) (inst : Word32) : MemErr → State
  | .lost => s
  | .uncorr cw =>
    let r := failRec s m 1 kind cw
    match m.req with
    | .descriptor p _ | .descUpdate p _ => detectInv s p r
    | .core p | .coreAtomic p =>
      let s := detect s r false
      if kind ≠ 1 && coreReady s p then raiseExc s p cMemerr va 0 false inst else s
    | .hostRead c | .hostWrite c => send (detect s r false) (.nak c nakOp)
    | .walker _ => detect s (walkRec s m.ls 1 cw) false
    | _ => detect s r false

/-- Does a home of DT `t` still apply a write or an update that was issued `age` units ago (R482). -/
def inTime (s : State) (age : Nat) : Bool := age + 8 < s.phiro.txnTimeout * dtUs

/-- The work that a response stands for, and the tag that a request takes. -/
def reqWork (r : MemReq) : TxWork := match r.req with | .core _ | .coreAtomic _ => .core r.va r.inst | _ => .none
def reqTag (s : State) (kind : Nat) (r : MemReq) : TagReq :=
  { kind := kind, dest := homeDie r.pa, addr := r.pa, ls := reqLs s r.src r.req, req := r.req, work := reqWork r, age := r.age }

/-- Keep a request's tag outstanding until its response is accepted or it ends. -/
def keepTag (s : State) (kind : Nat) (r : MemReq) : State := ((takeTag s r.src (reqTag s kind r)).map (·.2)).getD s

/-- A write or update that reached its home too late keeps its tag; no response follows (R482). -/
def lateTag (s : State) (kind : Nat) (r : MemReq) : State := ((takeTag s r.src { reqTag s kind r with work := .discarded }).map (·.2)).getD s

/-- Give the tag of a read that has been answered its bytes. -/
def answerTag (s : State) (r : MemReq) (d : List Byte) : State :=
  match takeTag s r.src { reqTag s 0 r with work := .data d } with
  | some (_, s) => s
  | none => s

/-- A request that no tag is free for stands in line (R480). -/
def lineUp (s : State) (kind : Nat) (r : MemReq) : State :=
  addWaiter s r.src { kind := kind, dest := homeDie r.pa, addr := r.pa, ls := reqLs s r.src r.req, req := r.req, first := false, granted := false }

/-- A home takes a request of a kind, or refuses it, stalls it for a tag, or holds it while its frame or row is being copied (R408); `go` is
its effect. -/
def arrive (s : State) (kind : Nat) (r : MemReq) (held : HeldAcc) (go : State → State) : State :=
  if !inAtom r.pa r.len || !reqLive s r.req || stackShut s r.pa r.req then s
  else match reqBroken s r.pa r.len (kind ≠ 0) r.req with
    | some v => breakReq s r.src r.va r.inst r.req v
    | none =>
      if !(isNear r.pa || isFar r.pa) then s
      else if !tagFor s r.src r.req then lineUp s kind r
      else
        let s := dropWaiter s r.src (· == r.req)
        if frameHeld s r.pa then { s with health := { s.health with heldAcc := s.health.heldAcc ++ [(s.dt, held)] } } else go s

/-- A read at its home (R412, R415); a host's read sends its bytes. -/
def readGo (r : MemReq) (s : State) : State :=
  match readAtom s (reqCtx s r) r.pa r.len with
  | (.error e, s) => reqFail s (reqCtx s r) 0 r.va r.inst e
  | (.ok d, s) =>
    if r.held then answerTag s r d
    else match r.req with
      | .hostRead c => send s (.readResp c d)
      | _ => s

/-- The lead core's cached copies of what a descriptor writes go (R102). -/
def writtenBy (s : State) (req : Requester) (pa len : Nat) : State :=
  match req with
  | .descUpdate p _ | .descriptor p _ => modCore s p fun k => dcInval k pa len
  | _ => s

/-- A write at its home (R402, R415), while it is in time (R482). -/
def writeGo (r : MemReq) (data : List Byte) (s : State) : State :=
  if !inTime s r.age then lateTag s 1 r
  else match writeAtom s (reqCtx s r) r.pa data with
    | (some e, s) => reqFail s (reqCtx s r) 1 r.va r.inst e
    | (none, s) =>
      let s := writtenBy s r.req r.pa r.len
      if r.held then keepTag s 1 r else s

/-- A read reaches its home. -/
def memRead (s : State) (r : MemReq) : State := arrive s 0 r (.read r) (readGo r)

/-- A write reaches its home. -/
def memWrite (s : State) (r : MemReq) (data : List Byte) : State := if data.length ≠ r.len then s else arrive s 1 r (.write r data) (writeGo r data)

/-! ### Memory-side updates -/

/-- Is an update one that an adder applies: an operation of Table 12-7 on whole elements of one atom, naturally aligned (R425). -/
def updOk (u : MemUpdate) : Bool :=
  opValid u.op u.fmt && !u.elems.isEmpty && u.pa % opSize u.fmt = 0 && u.pa % 256 + opSize u.fmt * u.elems.length ≤ 256

/-- The elements of an update at their size, and its bytes. -/
def updElems (u : MemUpdate) : List Nat := u.elems.map fun w => w.toNat % 2 ^ (8 * opSize u.fmt)
def updLen (u : MemUpdate) : Nat := opSize u.fmt * u.elems.length

/-- Apply an update at an adder by `upd`, whose result is answered; a descriptor's flags join its invocation's (R428), and lines of the lead core
that it writes go stale (R102). -/
def updPerform (s : State) (m : MemCtx) (u : MemUpdate)
    (upd : State → MemCtx → Nat → Nat → Nat → List Nat → Nat → Except MemErr UpdRes × State) : Option UpdRes × State :=
  match upd s m u.pa u.op u.fmt (updElems u) u.cmp.toNat with
  | (.error e, s) => (none, reqFail s m 2 0 0 e)
  | (.ok r, s) =>
    let s := match m.req with
      | .descUpdate p _ | .descriptor p _ => modRun s p fun v => { v with flags := v.flags ||| BitVec.ofNat 5 r.fl }
      | _ => s
    (some r, writtenBy s m.req u.pa (updLen u))

/-- The die whose tag an unordered update holds. -/
def reqSrc (s : State) : Requester → Nat
  | .reeve => 31
  | .ring _ | .hostRead _ | .hostWrite _ => 24
  | r => match reqPolder r with | some p => leadOf s p | none => 24

/-- Record an update's tag as applied at its adder (R121). -/
def markApplied (s : State) (adder tag : Nat) : State := { s with fabric := { s.fabric with applied := s.fabric.applied ++ [(adder, tag)] } }

/-- An update as a request. -/
def updReq (s : State) (req : Requester) (u : MemUpdate) (age : Nat) (held : Bool) : MemReq :=
  { src := reqSrc s req, req := req, cls := 6, pa := u.pa, len := updLen u, va := 0, inst := 0, age := age, held := held }

/-- An unordered update at its adder, while it is in time (R118, R482); a copy of one already applied is dropped (R121). -/
def updGo (req : Requester) (u : MemUpdate) (age : Nat) (held : Bool) (s : State) : State :=
  let r := updReq s req u age held
  if s.fabric.applied.contains (homeDie u.pa, u.tag) then s
  else if !inTime s age then lateTag s 2 r
  else
    let (x, s) := updPerform s (reqCtx s r) u updateAtom
    let s := if x.isSome then markApplied s (homeDie u.pa) u.tag else s
    if held && x.isSome then keepTag s 2 r else s

/-- An unordered update reaches its adder. -/
def unorderedUpd (s : State) (req : Requester) (u : MemUpdate) (age : Nat) (held : Bool) : State :=
  if !updOk u then s else arrive s 2 (updReq s req u age held) (.update req u age held) (updGo req u age held)

/-! ### Ordered windows (R111–R116) -/

/-- The sources that an ordered MUPDATE counts: the first members in ascending CD number (R258); none for any other descriptor. -/
def winSources (s : State) (p i : Nat) : List Nat :=
  match running s p with
  | none => []
  | some (inv, rc) =>
    let d := descAt s rc i
    if named s p && descState inv i = some .inExec && dKind d = 0x21 && dOrdered d then (members s p).take (dContrib d) else []

/-- Is a window that of an adder, and is an item of it. -/
def winIs (w : UpdWindow) (x : AddWindow) : Bool := x.adder == w.adder && x.p == w.p && x.i == w.i && x.sub == w.sub
def inWin (w : UpdWindow) (f : Flight) : Bool := { f.win with src := w.src } == w

/-- The sources whose end marker has taken effect at a window. -/
def winEnds (s : State) (w : UpdWindow) : List Nat := ((s.fabric.windows.find? (winIs w)).map (·.ends)).getD []

/-- Is it a source's turn: the markers of every lower-numbered counted source have taken effect (R112). -/
def winTurn (s : State) (w : UpdWindow) (srcs : List Nat) : Bool := srcs.all fun c => w.src ≤ c || (winEnds s w).contains c

/-- Is an item the first of its source at its window: those before it, in issue order, have been applied (R112). -/
def winFirst (s : State) (f : Flight) : Bool := (s.fabric.flight.find? fun g => g.win == f.win) == some f

/-- Early updates that an adder buffers (R114). -/
def winBuffered (s : State) (adder : Nat) : Nat := (s.fabric.flight.filter fun f => f.win.adder == adder && f.early && f.upd.isSome).length

/-- May a window take its first message: it is open, or one of 64 of its adder (R115). -/
def winRoom (s : State) (w : UpdWindow) : Bool :=
  s.fabric.windows.any (winIs w) || decide ((s.fabric.windows.filter (·.adder == w.adder)).length < 64)

/-- A window opens with its first message; the pass releases the adder (R549). -/
def winOpen (s : State) (w : UpdWindow) : State :=
  if s.fabric.windows.any (winIs w) then s
  else kilnRelease { s with fabric := { s.fabric with windows := s.fabric.windows ++ [{ adder := w.adder, p := w.p, i := w.i, sub := w.sub, ends := [] }] } }
    fun u => u.type == 15 && u.die == w.adder

/-- Replace the first item that equals `f`, or drop it. -/
def putFlight (s : State) (f : Flight) (g : Option Flight) : State :=
  { s with fabric := { s.fabric with flight := match g with
      | some g => s.fabric.flight.replace f g
      | none => s.fabric.flight.erase f } }

/-- An item's update is acknowledged: its tag is free. -/
def freeFlight (s : State) (f : Flight) : State := match f.tag with | some n => releaseTag s f.win.src n | none => s

/-- The context of an ordered update. -/
def winCtx (s : State) (w : UpdWindow) : MemCtx :=
  { src := w.src, ls := lsDesc s w.p w.i w.sub w.src, cls := none, p := w.p, req := .descUpdate w.p w.i }

/-- The old elements of an applied update go where TZ says (R258). -/
def putOld (s : State) (w : UpdWindow) (fmt : Nat) (old : List Nat) : RetTo → State
  | .none => s
  | .mem src ps =>
    let m := { winCtx s w with src := src, cls := some 3, req := .descriptor w.p w.i }
    match writeSpan s m ps (old.map (bytesLE (opSize fmt))).flatten with
    | (some e, s) => reqFail s m 1 0 0 e
    | (none, s) => ps.foldl (fun s x => writtenBy s m.req x.1 x.2) s
  | .grist cd pos off => gristWrite s cd pos off (old.map (bytesLE (opSize fmt))).flatten
  | .host h off => hostWrite s h off (old.map (bytesLE (opSize fmt))).flatten (lsDesc s w.p w.i w.sub 24) (.descriptor w.p w.i)

/-- An item in its turn takes effect: the update is applied, or the marker ends its source. -/
def winApply (s : State) (f : Flight) : State :=
  let s := putFlight (freeFlight s f) f none
  match f.upd with
  | none => { s with fabric := { s.fabric with windows := s.fabric.windows.map fun x => if winIs f.win x then { x with ends := insertNat x.ends f.win.src } else x } }
  | some u =>
    match updPerform s (winCtx s f.win) u updateHome with
    | (some r, s) => putOld (markApplied s f.win.adder u.tag) f.win u.fmt r.old f.ret
    | (none, s) => s

/-- May an item take effect: it is the first of its source, and its turn has come; a marker waits for no other source. -/
def winReady (s : State) (srcs : List Nat) (f : Flight) : Bool := winFirst s f && (f.upd.isNone || winTurn s f.win srcs)

/-- The accepted items of a window that can take effect do, in ascending SRC and issue order (R112). -/
def winDrain (w : UpdWindow) (srcs : List Nat) : Nat → State → State
  | 0, s => s
  | n + 1, s =>
    match srcs.findSome? fun c => s.fabric.flight.find? fun f => f.win == { w with src := c } && f.early && winReady s srcs f with
    | some f => winDrain w srcs n (winApply s f)
    | none => s

/-- A window closes once every counted source has ended; nothing of it is left then (R116). -/
def winClose (s : State) (w : UpdWindow) (srcs : List Nat) : State :=
  if srcs.all fun c => (winEnds s w).contains c then { s with fabric := { s.fabric with windows := s.fabric.windows.filter fun x => !winIs w x } } else s

/-- Is an item that its home gets still in time (R482): its tag has not ended, and its deadline is far enough. -/
def flightInTime (s : State) (f : Flight) : Bool :=
  match f.tag with
  | none => true
  | some n => (owner s f.win.src).tags.any fun t => t.num == n && s.dt + 8 < t.deadline

/-- An item reaches its adder: it takes effect in turn at once, and what waited for it after it; an early one is buffered while there is space,
which frees its tag (R113); else its source stalls, holding its tag (R114, R115). -/
def winArrive (s : State) (f : Flight) : State :=
  let srcs := winSources s f.win.p f.win.i
  let (g, s') := flightTag s f
  if !srcs.contains f.win.src || !winRoom s f.win then s
  else if f.upd.isSome && g.tag.isNone then s'
  else
    let s := putFlight s' f (some g)
    if !flightInTime s g || (f.upd.any fun u => frameHeld s u.pa) then s
    else if winReady s srcs g then
      let s := winApply (winOpen s f.win) g
      winClose (winDrain f.win srcs s.fabric.flight.length s) f.win srcs
    else if f.upd.isSome && 4096 ≤ winBuffered s f.win.adder then s
    else putFlight (freeFlight (winOpen s f.win) g) g (some { g with tag := none, early := true })

/-- An ordered update arrives (R113): one that a source has sent. -/
def ordered (s : State) (w : UpdWindow) (u : MemUpdate) : State :=
  match s.fabric.flight.find? fun f => f.win == w && !f.early && f.upd.any fun x => { x with tag := u.tag } == u with
  | some f => winArrive s f
  | none => s

/-- A source's end marker arrives (R112). -/
def endMark (s : State) (w : UpdWindow) : State :=
  match s.fabric.flight.find? fun f => f.win == w && !f.early && f.upd.isNone with
  | some f => winArrive s f
  | none => s

/-! ### Far-memory frames (R407–R409) and refresh (R410) -/

/-- The frames of one FM die's share of the reserve. -/
def reserveFrames : Nat := 1048576

/-- A frame whose corrected errors have reached 16 begins its copy into the reserve, with its record, and its new frame counts from 0; the frame that
takes the last of a share posts FM_RESERVE_OUT. -/
def fmRetire (s : State) (pa : Nat) : State :=
  let f := pa / 4096
  let die := homeDie pa
  let h := s.health
  let used := tget 0 h.reserveUsed die
  if !isFar pa || tget 0 h.frameErr f < 16 || h.copying.contains f || reserveFrames ≤ used then s
  else
    let s := { s with health := { h with copying := insertNat h.copying f, retired := tins h.retired f used, reserveUsed := tset 0 h.reserveUsed die (used + 1),
                                             frameErr := tset 0 h.frameErr f 0 } }
    let (l, s) := leftByte s (reserveFrames - used - 1)
    let s := post s (mkRec s (lsDevice die) 0x13 0 die 0xB000 (errBytes { addr := f * 4096, reason := 1, left := l }))
    if used + 1 = reserveFrames && !h.reserveOut.contains die then
      let s := { s with health := { s.health with reserveOut := insertNat s.health.reserveOut die } }
      post s (mkRec s (lsDevice die) 0x14 0 die 0xB000 (errBytes { addr := f * 4096, reason := 1 }))
    else s

/-- An access that a home has held since DT `t` takes effect. -/
def heldGo (s : State) (t : Nat) : HeldAcc → State
  | .read r => readGo r s
  | .write r d => writeGo { r with age := r.age + (s.dt - t) } d s
  | .update req u age held => updGo req u (age + (s.dt - t)) held s

/-- The held accesses that nothing holds any longer take effect, in arrival order (R408). -/
def heldRelease (s : State) : State :=
  let pa := fun (h : HeldAcc) => match h with | .read r => r.pa | .write r _ => r.pa | .update _ u _ _ => u.pa
  let go := s.health.heldAcc.filter fun h => !frameHeld s (pa h.2)
  go.foldl (fun s h => heldGo s h.1 h.2) { s with health := { s.health with heldAcc := s.health.heldAcc.filter fun h => frameHeld s (pa h.2) } }

/-- The copy completes: the copy's codewords carry corrected data, and the held accesses go to it (R408). -/
def fmCopyDone (s : State) (pa : Nat) : State :=
  let f := pa / 4096
  if s.health.copying.contains f then
    vqGoAll (heldRelease { s with health := { s.health with
        copying := s.health.copying.filter (· ≠ f)
        bad := s.health.bad.filter fun e => !(e.1 / 128 == f && e.2 == 1) } })
  else s

/-- A temperature reading of stack `unit`, or of package `unit` − 24: above 85 °C the refresh doubles, at or below 82 °C it returns (R410). -/
def tempSample (s : State) (unit : Nat) (milliC : Int) : State :=
  if 56 ≤ unit then s
  else if 85000 < milliC then { s with health := { s.health with hot := tset false s.health.hot unit true } }
  else if milliC ≤ 82000 then { s with health := { s.health with hot := tset false s.health.hot unit false } }
  else s

/-! ### The commands -/

/-- MEMORY_READ (R412). -/
def execMemoryRead (r : MemReq) (s : State) : Result := done (memRead s r)

/-- MEMORY_WRITE (R402). -/
def execMemoryWrite (r : MemReq) (data : List Byte) (s : State) : Result := done (memWrite s r data)

/-- UNORDERED_UPDATE (R118). -/
def execUnorderedUpdate (req : Requester) (m : UpdateMsg) (s : State) : Result := done (unorderedUpd s req m.upd m.age m.held)

/-- ORDERED_UPDATE (R113). -/
def execOrderedUpdate (w : UpdWindow) (u : MemUpdate) (s : State) : Result := done (ordered s w u)

/-- END_MARKER (R112); `src` is the source that has ended. -/
def execEndMarker (w : UpdWindow) (src : Nat) (s : State) : Result := done (endMark s { w with src := src })

/-- FM_RETIRE (R407). -/
def execFmRetire (pa : Nat) (s : State) : Result := done (fmRetire s pa)

/-- FM_RETIRE_COPY_DONE (R408). -/
def execFmRetireCopyDone (pa : Nat) (s : State) : Result := done (fmCopyDone s pa)

/-- STACK_TEMP_SAMPLE (R410). -/
def execStackTempSample (unit : Nat) (milliC : Int) (s : State) : Result := done (tempSample s unit milliC)

end Sys2Proof.Machine
end

