-- ==== Sys2Proof/Machine/NearCache.lean ====
section
/-! DEFINITION. Control of the near caches: NC_CTL and NC_STAT (R419–R423, R634). -/

namespace Sys2Proof.Machine

/-! ### Write-back with parity (R418, R424) -/

/-- Meet the parity errors that a write-back of a CD's lines finds among those a test selects: each such line is lost and its polder ends. -/
def ncFindLost (s : State) (cd : Nat) (q : NcLine → Bool) : State :=
  ((ncOf s cd).lines.filter fun l => q l && lineLost l).foldl (fun s l => (ncParity s cd l (lsDevice cd)).2) s

/-- Does a write-back of the lines a test selects meet an error. -/
def ncMeetsLost (s : State) (cd : Nat) (q : NcLine → Bool) : Bool := (ncOf s cd).lines.any fun l => q l && lineLost l

/-- Write back and invalidate a near cache; STATE 0b00, INV_OK 0 (R423). -/
def ncReset (s : State) (cd : Nat) : State :=
  let s := ncDrop (ncFindLost s cd fun _ => true) cd fun _ => true
  modNc s cd fun nc => { nc with state := 0, invOk := false, flushBusy := false, flushSet := [] }

/-! ### FLUSH, INV and EN -/

/-- FLUSH acts only while STATE is 0b10 (R422). -/
def ncFlush (s : State) (cd : Nat) : State :=
  modNc s cd fun nc =>
    if nc.state = 2 then { nc with flushBusy := true, flushSet := ((nc.lines.filter (·.dirty)).map (·.atom)).foldl insertNat nc.flushSet } else nc

/-- The flush ends: what was dirty at its start is written back and stays valid. A lost line stops it (R424). -/
def ncFlushDone (s : State) (cd : Nat) : State :=
  let nc := ncOf s cd
  let q := fun (l : NcLine) => nc.flushSet.contains l.atom
  if !nc.flushBusy then s
  else
    let s := if ncMeetsLost s cd q then ncFindLost s cd q else ncClean s cd q
    modNc s cd fun nc => { nc with flushBusy := false, flushSet := [] }

/-- INV acts only while STATE is 0b00 (R419). -/
def ncInv (s : State) (cd : Nat) : State :=
  modNc s cd fun nc => if nc.state = 0 then { nc with state := 1 } else { nc with invIgn := true }

/-- Every line is invalid: their contents are discarded, STATE 0b00, INV_OK 1 (R419). -/
def ncInvDone (s : State) (cd : Nat) : State :=
  if (ncOf s cd).state = 1 then modNc (ncDiscard s cd) cd fun nc => { nc with state := 0, invOk := true } else s

/-- A write of EN = 1 (R420). -/
def ncEnable (s : State) (cd : Nat) : State :=
  modNc s cd fun nc =>
    if nc.state = 2 then nc
    else if nc.state = 0 && nc.invOk then { nc with state := 2, invOk := false }
    else { nc with enRefused := true }

/-- A write of EN = 0 (R421). -/
def ncDisable (s : State) (cd : Nat) : State := modNc s cd fun nc => if nc.state = 2 then { nc with state := 3 } else nc

/-- The disable ends: dirty lines written back, every line invalid, a flush in progress complete; a lost line stops it (R424). -/
def ncDisableDone (s : State) (cd : Nat) : State :=
  if (ncOf s cd).state ≠ 3 then s
  else if ncMeetsLost s cd fun _ => true then ncFindLost s cd fun _ => true
  else modNc (ncDrop s cd fun _ => true) cd fun nc => { nc with state := 0, flushBusy := false, flushSet := [] }

/-- A write of NC_CTL acts in the order FLUSH, INV, EN (R634). -/
def ncCtlWrite (s : State) (cd v : Nat) : State :=
  let s := if bit v 2 then ncFlush s cd else s
  let s := if bit v 1 then ncInv s cd else s
  if bit v 0 then ncEnable s cd else ncDisable s cd

/-- NC_CTL as read: EN alone (Table 12-4). -/
def ncCtlRead (s : State) (cd : Nat) : Nat := b2n ((ncOf s cd).state == 2)

/-- NC_STAT (Table 12-5). -/
def ncStatRead (s : State) (cd : Nat) : Nat :=
  let nc := ncOf s cd
  nc.perrClean <<< 48 + b2n nc.flushBusy <<< 5 + b2n nc.invIgn <<< 4 + b2n nc.enRefused <<< 3 + b2n nc.invOk <<< 2 + nc.state

/-- A write of NC_STAT clears its W1C bits. -/
def ncStatWrite (s : State) (cd v : Nat) : State :=
  modNc s cd fun nc => { nc with invIgn := nc.invIgn && !bit v 4, enRefused := nc.enRefused && !bit v 3 }

/-! ### The commands -/

/-- An event of a near cache, on a CD that exists. -/
def onCd (cd : Nat) (f : State → State) (s : State) : State := if cd < 24 then f s else s

/-- NC_FLUSH (R422). -/
def execNcFlush (cd : Nat) (s : State) : Result := done (onCd cd (fun s => ncFlush s cd) s)

/-- NC_FLUSH_DONE (R422). -/
def execNcFlushDone (cd : Nat) (s : State) : Result := done (onCd cd (fun s => ncFlushDone s cd) s)

/-- NC_INV (R419). -/
def execNcInv (cd : Nat) (s : State) : Result := done (onCd cd (fun s => ncInv s cd) s)

/-- NC_INV_DONE (R419). -/
def execNcInvDone (cd : Nat) (s : State) : Result := done (onCd cd (fun s => ncInvDone s cd) s)

/-- NC_ENABLE (R420). -/
def execNcEnable (cd : Nat) (s : State) : Result := done (onCd cd (fun s => ncEnable s cd) s)

/-- NC_DISABLE (R421). -/
def execNcDisable (cd : Nat) (s : State) : Result := done (onCd cd (fun s => ncDisable s cd) s)

/-- NC_DISABLE_DONE (R421). -/
def execNcDisableDone (cd : Nat) (s : State) : Result := done (onCd cd (fun s => ncDisableDone s cd) s)

end Sys2Proof.Machine
end

