-- ==== Sys2Proof/Machine/Crypto.lean ====
section
/-! DEFINITION. SHA-256 (FIPS 180-4), ECDSA P-256 verification (FIPS 186-4) (R43, R72, R500,
R570, R571). The manual names these algorithms and leaves their text to the standards (PRESUMED, log 24). -/

namespace Sys2Proof.Machine

/-! ### SHA-256 -/

/-- The round constants. -/
def shaK : List Word32 :=
  [0x428a2f98, 0x71374491, 0xb5c0fbcf, 0xe9b5dba5, 0x3956c25b, 0x59f111f1, 0x923f82a4, 0xab1c5ed5] ++
  [0xd807aa98, 0x12835b01, 0x243185be, 0x550c7dc3, 0x72be5d74, 0x80deb1fe, 0x9bdc06a7, 0xc19bf174] ++
  [0xe49b69c1, 0xefbe4786, 0x0fc19dc6, 0x240ca1cc, 0x2de92c6f, 0x4a7484aa, 0x5cb0a9dc, 0x76f988da] ++
  [0x983e5152, 0xa831c66d, 0xb00327c8, 0xbf597fc7, 0xc6e00bf3, 0xd5a79147, 0x06ca6351, 0x14292967] ++
  [0x27b70a85, 0x2e1b2138, 0x4d2c6dfc, 0x53380d13, 0x650a7354, 0x766a0abb, 0x81c2c92e, 0x92722c85] ++
  [0xa2bfe8a1, 0xa81a664b, 0xc24b8b70, 0xc76c51a3, 0xd192e819, 0xd6990624, 0xf40e3585, 0x106aa070] ++
  [0x19a4c116, 0x1e376c08, 0x2748774c, 0x34b0bcb5, 0x391c0cb3, 0x4ed8aa4a, 0x5b9cca4f, 0x682e6ff3] ++
  [0x748f82ee, 0x78a5636f, 0x84c87814, 0x8cc70208, 0x90befffa, 0xa4506ceb, 0xbef9a3f7, 0xc67178f2]

/-- The initial hash value. -/
def shaH0 : List Word32 :=
  [0x6a09e667, 0xbb67ae85, 0x3c6ef372, 0xa54ff53a, 0x510e527f, 0x9b05688c, 0x1f83d9ab, 0x5be0cd19]

def rotR (x : Word32) (n : Nat) : Word32 := x.rotateRight n

/-- Extend a schedule, newest word first, by one word. -/
def shaNext (w : List Word32) : Word32 :=
  let g := fun (i : Nat) => w.getD i 0
  let s0 := rotR (g 14) 7 ^^^ rotR (g 14) 18 ^^^ (g 14 >>> 3)
  let s1 := rotR (g 1) 17 ^^^ rotR (g 1) 19 ^^^ (g 1 >>> 10)
  g 15 + s0 + g 6 + s1

/-- The message schedule of a block of 16 words, newest first. -/
def shaSched : Nat → List Word32 → List Word32
  | 0, w => w
  | n + 1, w => shaSched n (shaNext w :: w)

/-- One round on the eight working words. -/
def shaRound (v : List Word32) (k w : Word32) : List Word32 :=
  let g := fun (i : Nat) => v.getD i 0
  let e := g 4
  let t1 := g 7 + (rotR e 6 ^^^ rotR e 11 ^^^ rotR e 25) + ((e &&& g 5) ^^^ (~~~e &&& g 6)) + k + w
  let a := g 0
  let t2 := (rotR a 2 ^^^ rotR a 13 ^^^ rotR a 22) + ((a &&& g 1) ^^^ (a &&& g 2) ^^^ (g 1 &&& g 2))
  [t1 + t2, a, g 1, g 2, g 3 + t1, e, g 5, g 6]

/-- The hash after one block of 64 bytes. -/
def shaBlock (h : List Word32) (blk : List Byte) : List Word32 :=
  let w := ((chunks 4 16 blk).map fun b => BitVec.ofNat 32 (natBE b)).reverse
  let w := (shaSched 48 w).reverse
  let v := (shaK.zip w).foldl (fun v kw => shaRound v kw.1 kw.2) h
  (h.zip v).map fun p => p.1 + p.2

/-- The padded message. -/
def shaPad (m : List Byte) : List Byte :=
  let n := m.length
  m ++ [0x80] ++ List.replicate ((119 - n % 64) % 64) 0 ++ bytesBE 8 (8 * n)

/-- SHA-256 of a byte string, in digest byte order. -/
def sha256 (m : List Byte) : List Byte :=
  let p := shaPad m
  ((chunks 64 (p.length / 64) p).foldl shaBlock shaH0).flatMap fun w => bytesBE 4 w.toNat

/-! ### P-256 -/

def ecP : Nat := 0xffffffff00000001000000000000000000000000ffffffffffffffffffffffff
def ecB : Nat := 0x5ac635d8aa3a93e7b3ebbd55769886bc651d06b0cc53b0f63bce3c3e27d2604b
def ecN : Nat := 0xffffffff00000000ffffffffffffffffbce6faada7179e84f3b9cac2fc632551
def ecG : Nat × Nat :=
  (0x6b17d1f2e12c4247f8bce6e563a440f277037d812deb33a0f4a13945d898c296,
   0x4fe342e2fe1a7f9b8ee7eb4a7c0f9e162bce33576b315ececbb6406837bf51f5)

/-- `b` to the power whose bits are listed, most significant first, modulo `m`. -/
def powBits (m b : Nat) (l : List Bool) : Nat := l.foldl (fun a i => let q := a * a % m; if i then q * b % m else q) 1

/-- The low 256 bits of a number, most significant first. -/
def bits256 (v : Nat) : List Bool := ((List.range 256).map fun i => bit v i).reverse

/-- The inverse modulo a prime. -/
def invMod (m a : Nat) : Nat := powBits m (a % m) (bits256 (m - 2))

/-- Point addition; none is the point at infinity. -/
def ecAdd : Option (Nat × Nat) → Option (Nat × Nat) → Option (Nat × Nat)
  | none, q => q
  | p, none => p
  | some (x1, y1), some (x2, y2) =>
    if x1 = x2 && (y1 + y2) % ecP = 0 then none
    else
      let l := if x1 = x2 then (3 * x1 * x1 + (ecP - 3)) * invMod ecP (2 * y1) % ecP
               else (y2 + ecP - y1) * invMod ecP (x2 + ecP - x1) % ecP
      let x3 := (l * l + 2 * ecP - x1 - x2) % ecP
      some (x3, (l * (x1 + ecP - x3) + ecP - y1) % ecP)

/-- Scalar multiplication. -/
def ecMul (k : Nat) (p : Nat × Nat) : Option (Nat × Nat) :=
  (bits256 k).foldl (fun a i => let d := ecAdd a a; if i then ecAdd d (some p) else d) none

/-- Is a pair a point of the curve. -/
def ecOn (p : Nat × Nat) : Bool :=
  p.1 < ecP && p.2 < ecP && p.2 * p.2 % ecP == (p.1 * p.1 * p.1 + (ecP - 3) * p.1 + ecB) % ecP

/-- ECDSA P-256: does (r, s) sign a digest under a public key. -/
def ecVerify (key : Nat × Nat) (digest : List Byte) (sig : Nat × Nat) : Bool :=
  let (r, s) := sig
  if r = 0 || s = 0 || ecN ≤ r || ecN ≤ s || !ecOn key then false
  else
    let w := invMod ecN s
    match ecAdd (ecMul (natBE digest * w % ecN) ecG) (ecMul (r * w % ecN) key) with
    | none => false
    | some (x, _) => x % ecN == r

/-- The uncompressed point form of a public key. -/
def keyForm (key : Nat × Nat) : List Byte := 0x04 :: (bytesBE 32 key.1 ++ bytesBE 32 key.2)

/-- A signature's bytes: r then s, big-endian. -/
def sigBytes (sig : Nat × Nat) : List Byte := bytesBE 32 sig.1 ++ bytesBE 32 sig.2

/-- The signature whose bytes stand at an offset. -/
def ecSigAt (m : List Byte) (off : Nat) : Nat × Nat := (natBE (slice m off 32), natBE (slice m (off + 32) 32))

end Sys2Proof.Machine
end

