-- ==== Sys2Proof/Machine/Image.lean ====
section
/-! DEFINITION. The Phiro bit-stream image (R41–R43, R54–R64, R630, R633) and the checks of a load in their order (R69, R72–R76). -/

namespace Sys2Proof.Machine

/-! ### Sections -/

/-- A section of an image: its offset and TYPE. -/
structure Sect where
  off : Nat
  ty : Nat
  deriving DecidableEq, Repr

/-- LENGTH by TYPE (Table 2-2); 0 for a TYPE that does not exist. -/
def sectLen : Nat → Nat
  | 1 => 128 | 2 => 64 | 3 => 136 | 4 => 32 | 5 => 1608 | _ => 0

/-- Walk `n` sections from an offset to the trailer at `stop`: the sections, or the DETAIL of the first wrong one (R633). A count that the
sections before the trailer do not meet is a wrong SECT_COUNT. -/
def walkSects (b : List Byte) (stop : Nat) : Nat → Nat → Except Nat (List Sect)
  | 0, off => if off = stop then .ok [] else .error 6
  | n + 1, off =>
    let ty := leAt b off 1
    if off = stop then .error 6
    else if stop < off + 8 || sectLen ty = 0 || leAt b (off + 4) 4 ≠ sectLen ty || stop < off + sectLen ty then .error off
    else match walkSects b stop n (off + sectLen ty) with
      | .error e => .error e
      | .ok l => .ok ({ off := off, ty := ty } :: l)

/-- The most sections of a TYPE (R42). -/
def sectMax (ty : Nat) : Nat := if ty = 2 then 24 else 1

/-- The first section beyond the number its TYPE may have. R633 gives DETAIL for a type that may appear once; a 25th POLDER section gives its
own header's offset too: DESIGN CHOICE, log 25. -/
def tooMany : List Sect → List Sect → Option Nat
  | _, [] => none
  | seen, x :: xs => if sectMax x.ty ≤ (seen.filter (·.ty == x.ty)).length then some x.off else tooMany (x :: seen) xs

/-- Offsets in a list whose byte is not zero. -/
def nonzeroAt (b : List Byte) (l : List Nat) : List Nat := l.filter fun k => leAt b k 1 ≠ 0

/-- The smallest of a list of offsets. -/
def firstOff : List Nat → Option Nat
  | [] => none
  | x :: xs => some (xs.foldl min x)

/-- R633: the sections, or the DETAIL of BS_FORMAT. Whether SECT_COUNT is right shows only where TOTAL_LEN tells the trailer's place, so with
both wrong DETAIL is TOTAL_LEN's 8: DESIGN CHOICE, log 25. -/
def formatCheck (b : List Byte) : Except Nat (List Sect) :=
  let tl := b.length
  let stop := tl - 128
  if leAt b 0 4 ≠ 0x4F524850 then .error 0
  else if leAt b 4 2 ≠ 1 then .error 4
  else if tl < 0xC0 || leAt b 8 4 ≠ tl || tl % 8 ≠ 0 || 65536 < tl then .error 8
  else match walkSects b stop (leAt b 6 2) 0x40 with
    | .error e => .error e
    | .ok l =>
      match tooMany [] l with
      | some e => .error e
      | none =>
        if [1, 3, 4].any fun ty => l.all (·.ty ≠ ty) then .error 6
        else match firstOff (nonzeroAt b (span 0x18 0x28 ++ l.flatMap (fun x => span (x.off + 1) 3) ++ span (stop + 1) 0x1F)) with
          | some e => .error e
          | none => .ok l

/-! ### Field ranges -/

/-- The reserved bits of byte `j` of a section (Tables 2-4, 2-5, 2-9). -/
def rsvBits (ty j : Nat) : Nat :=
  let dev := if j = 8 then 0xFC else if (0xC ≤ j && j < 0x10) || (0x10 ≤ j && j < 0x4F) then 0 else 0xFF
  let pol := if j = 0xA || j = 0xB || j = 0xF || j = 0x11 || 0x2C ≤ j then 0xFF else if j = 0x10 || j = 0x19 then 0xF0
    else if j = 0x13 then 0xC0 else if j = 0x18 then 0xFC else 0
  let eth := if j = 8 then 0xF0 else if j = 0xC then 0xFE else if j = 0xA || j = 0xB || j = 0xD then 0 else 0xFF
  match ty with
  | 1 => dev
  | 2 => pol
  | 4 => eth
  | _ => 0

/-- The tag counts an owner may have (Table 2-8). -/
def tagRange (o : Nat) : Nat × Nat :=
  if o < 24 then (4096, 16384) else if o = 24 then (16384, 65536) else if o < 31 then (2048, 8192) else (4096, 16384)

/-- The fields of a section that are out of range, by their image offset (R54–R64). A LEAD above 23, which Table 2-5 gives no range, and a tag
count that is no multiple of 1,024, which R63 gives no status, draw BS_RANGE: DESIGN CHOICE, log 25. -/
def fieldsBad (b : List Byte) (x : Sect) : List Nat :=
  let v := fun (o n : Nat) => leAt b (x.off + o) n
  let chk := fun (o : Nat) (ok : Bool) => if ok then [] else [x.off + o]
  match x.ty with
  | 1 => chk 0x08 (bits (v 8 1) 0 2 ≠ 0) ++ chk 0x0C (v 0x0C 4 ≤ 1000000) ++
      (List.range 63).flatMap fun k => chk (0x10 + k) (v (0x10 + k) 1 ≤ 23 || v (0x10 + k) 1 = 0xFF)
  | 2 => chk 0x08 (v 8 1 ≤ 23) ++ chk 0x09 (v 9 1 ≤ 23) ++ chk 0x10 ([1, 2, 4, 8].contains (bits (v 0x10 1) 0 4)) ++
      chk 0x12 (bits (v 0x12 1) 0 2 = 3) ++ chk 0x14 (v 0x14 2 % 256 = 0 && 256 ≤ v 0x14 2 && v 0x14 2 ≤ 4096) ++
      chk 0x16 ([1024, 2048, 4096].contains (v 0x16 2)) ++ chk 0x18 (fieldInRange 0x18 (bits (v 0x18 1) 0 2)) ++
      chk 0x19 (fieldInRange 0x19 (bits (v 0x19 1) 0 4)) ++ chk 0x1A (fieldInRange 0x1A (v 0x1A 1)) ++ chk 0x1B (fieldInRange 0x1B (v 0x1B 1)) ++
      (List.range 6).flatMap fun c => chk (0x20 + 2 * c) (fieldInRange 0x20 (v (0x20 + 2 * c) 2))
  | 3 => (List.range 32).flatMap fun o =>
      let n := v (8 + 4 * o) 4
      chk (8 + 4 * o) ((tagRange o).1 ≤ n && n ≤ (tagRange o).2 && n % 1024 = 0)
  | 4 => chk 0x08 (bits (v 8 1) 0 4 ≤ 5) ++ chk 0x0A (1500 ≤ v 0x0A 2 && v 0x0A 2 ≤ 9216) ++
      chk 0x0D (!bit (v 0x0C 1) 0 || v 0x0D 1 ≠ 0)
  | _ => []

/-- The first field or reserved byte of the sections that breaks its rule (BS_RANGE), in the order the image holds them (R630). -/
def rangeBad (b : List Byte) : List Sect → Option Nat
  | [] => none
  | x :: xs =>
    let rsv := (List.range (sectLen x.ty - 8)).map (· + 8) |>.filter fun j => leAt b (x.off + j) 1 &&& rsvBits x.ty j ≠ 0
    match firstOff (fieldsBad b x ++ rsv.map (x.off + ·)) with
    | some e => some e
    | none => rangeBad b xs

/-! ### The image's fields -/

/-- The fields of an image: PROFILE, TXN_TIMEOUT as written, SLICE_OWNER, the POLDER sections with their offsets and numbers, TAGS, ETHERNET. -/
structure PhImage where
  profile : Nat
  timeout : Nat
  slices : List Nat
  devOff : Nat
  pols : List (Nat × Nat × PolderSec)
  tags : List Nat
  tagOff : Nat
  eth : EthSec
  deriving DecidableEq, Repr

/-- A POLDER section's fields (Table 2-5). -/
def secAt (b : List Byte) (o : Nat) : PolderSec :=
  let v := fun (k n : Nat) => leAt b (o + k) n
  { lead := v 9 1, members := BitVec.ofNat 24 (v 0x0C 4), vslots := bits (v 0x10 1) 0 4, formats := BitVec.ofNat 16 (v 0x12 2), sluices := v 0x14 2,
    ttEntries := v 0x16 2, placeDefault := bits (v 0x18 1) 0 2, fuseStages := bits (v 0x19 1) 0 4, fuseGrist := v 0x1A 1, fuseCask := v 0x1B 1,
    wdogStall := fieldClamp 0x1C (v 0x1C 4), waymask := (List.range 6).map fun c => BitVec.ofNat 16 (v (0x20 + 2 * c) 2) }

/-- Where the section of a TYPE lies. -/
def sectOff (l : List Sect) (ty : Nat) : Nat := ((l.find? (·.ty == ty)).map (·.off)).getD 0

/-- The fields of an image whose sections are known. -/
def parseImage (b : List Byte) (l : List Sect) : PhImage :=
  let d := sectOff l 1
  let t := sectOff l 3
  let e := sectOff l 4
  { profile := bits (leAt b (d + 8) 1) 0 2, timeout := leAt b (d + 0x0C) 4, slices := (List.range 63).map fun k => leAt b (d + 0x10 + k) 1,
    devOff := d, pols := (l.filter (·.ty == 2)).map fun x => (x.off, leAt b (x.off + 8) 1, secAt b x.off),
    tags := (List.range 32).map fun o => leAt b (t + 8 + 4 * o) 4, tagOff := t,
    eth := { speed := bits (leAt b (e + 8) 1) 0 4, mtu := leAt b (e + 0x0A) 2, pfcEn := bit (leAt b (e + 0x0C) 1) 0, pfcPrio := BitVec.ofNat 8 (leAt b (e + 0x0D) 1) } }

/-- The section of polder `p` in an image. -/
def secOf (m : PhImage) (p : Nat) : Option PolderSec := (m.pols.find? fun x => x.2.1 == p).map (·.2.2)

/-- The POLDER sections that break a layout rule against those before them (R75): offsets of PNUM, MEMBERS and LEAD. -/
def polsBad : List Nat → BitVec 24 → List (Nat × Nat × PolderSec) → List Nat
  | _, _, [] => []
  | nums, used, (o, p, c) :: rest =>
    (if nums.contains p then [o + 8] else []) ++ (if c.members = 0 || c.members &&& used ≠ 0 then [o + 0x0C] else []) ++
      (if c.members.getLsbD c.lead then [] else [o + 9]) ++ polsBad (p :: nums) (used ||| c.members) rest

/-- The first field that breaks a layout rule (R75, R63). -/
def layoutBad (m : PhImage) : Option Nat :=
  firstOff (polsBad [] 0 m.pols ++
    ((List.range 63).filter fun k => m.slices.getD k 0 ≠ 0xFF && (secOf m (m.slices.getD k 0)).isNone).map (m.devOff + 0x10 + ·) ++
    (if m.tags.sum = 262144 then [] else [m.tagOff + 8]))

/-! ### The checks against the device -/

/-- The PROFILE that a COOL_ID code matches (Table 2-11); 0 for none. -/
def coolProfile (c : BitVec 3) : Nat := if c = 6 then 1 else if c = 5 then 2 else if c = 3 then 3 else 0

/-- Does the trailer's key and signature verify (R43, R72). -/
def imageSigned (s : State) (b : List Byte) : Bool :=
  let t := b.length - 128
  let key := match leAt b t 1 with
    | 1 => some Config.vendorKey
    | 2 => s.reeve.owner
    | _ => none
  match key with
  | none => false
  | some k => slice b (t + 0x20) 32 == sha256 (keyForm k) && ecVerify k (sha256 (b.take (t + 64))) (ecSigAt b (t + 0x40))

/-- The fields of the loaded image. -/
def loadedImage (s : State) : Option PhImage :=
  if s.phiro.loaded then match formatCheck s.phiro.image with | .ok l => some (parseImage s.phiro.image l) | .error _ => none else none

/-- Do the Sealed-P fields of a POLDER section differ. -/
def sealedDiff (a c : PolderSec) : Bool :=
  a.lead ≠ c.lead || a.members ≠ c.members || a.vslots ≠ c.vslots || a.formats ≠ c.formats || a.sluices ≠ c.sluices || a.ttEntries ≠ c.ttEntries

/-- R76: does a load of `m` affect a polder of the loaded image. -/
def loadAffects (s : State) (m : PhImage) (p : Nat) : Bool :=
  match secOf m p with
  | none => true
  | some c =>
    sealedDiff (polder s p).sec c ||
      (List.range 63).any (fun k => (tget 0xFF s.phiro.sliceOwner k == p) != (m.slices.getD k 0xFF == p)) ||
      (members s p).any fun n => tagCount s n ≠ m.tags.getD n 0

/-- Does a Sealed-D field other than ETHERNET's differ (R76). -/
def sealedDDiff (s : State) (m : PhImage) : Bool :=
  match loadedImage s with
  | none => false
  | some o => o.profile ≠ m.profile || o.timeout ≠ m.timeout || o.tags.drop 24 ≠ m.tags.drop 24

/-- The polders that a load needs quiesced and finds running (R76). -/
def loadBusy (s : State) (m : PhImage) : List Nat :=
  polderNums.filter fun p => named s p && !quiesced s p && (loadAffects s m p || sealedDDiff s m)

/-- The check of an image (R74): its fields, or the status and DETAIL of the first failure. -/
def checkImage (s : State) (b : List Byte) : Except (Nat × Nat) PhImage :=
  match formatCheck b with
  | .error e => .error (bsFormat, e)
  | .ok l =>
    let m := parseImage b l
    let out := (List.range 24).filter fun n => cdGone s n && m.pols.any fun x => x.2.2.members.getLsbD n
    let busy := loadBusy s m
    if !imageSigned s b then .error (bsAuth, 0)
    else if leAt b 0x10 8 ≠ 0 && leAt b 0x10 8 ≠ Config.serial then .error (bsDevice, 0)
    else match rangeBad b l with
      | some e => .error (bsRange, e)
      | none =>
        match layoutBad m with
        | some e => .error (bsLayout, e)
        | none =>
          if !out.isEmpty then .error (bsCdOut, maskOf out)
          else if !m.pols.isEmpty && coolProfile s.phiro.coolId ≠ m.profile then .error (bsCool, s.phiro.coolId.toNat)
          else if !busy.isEmpty then .error (bsRunning, maskOf busy)
          else .ok m

/-! ### Read-back (R67) -/

/-- The SPARE record of a CD (Table 2-10). -/
def spareRecord (m : SpareMap) : List Byte :=
  slice (m.posCl.flatMap (bytesLE 1)) 0 16 ++ bytesLE 1 m.core ++ bytesLE 1 m.wayOut ++ bytesLE 1 m.dieOut ++ bytesLE 1 0 ++
    slice (m.laneOut.flatMap (bytesLE 1)) 0 16 ++ slice (m.gristOut.flatMap (bytesLE 1)) 0 16 ++ List.replicate 12 0

/-- The SPARE section that the device reports. -/
def spareSection (s : State) : List Byte :=
  bytesLE 4 5 ++ bytesLE 4 1608 ++ bytesLE 1 (b2n s.fabric.hub0 + 2 * b2n s.fabric.hub1) ++ bytesLE 1 s.xlat.walkersOut.length ++ List.replicate 62 0 ++
    (List.range 24).flatMap fun n => spareRecord (spareMap s n)

/-- The loaded image as the read-back returns it. -/
def readbackImage (s : State) : List Byte :=
  let b := s.phiro.image
  let l := match formatCheck b with | .ok l => l | .error _ => []
  match l.find? (·.ty == 5) with
  | some x => splice b x.off (spareSection s)
  | none =>
    let b' := splice (splice b 6 (bytesLE 2 (leAt b 6 2 + 1))) 8 (bytesLE 4 (b.length + 1608))
    b'.take (b.length - 128) ++ spareSection s ++ b'.drop (b.length - 128)

end Sys2Proof.Machine
end

