-- ==== Sys2Proof/Machine/Phiro.lean ====
section
/-! DEFINITION. Loading a Phiro bit-stream (R71–R79), its read-back (R67), and the field commands (R44–R52). -/

namespace Sys2Proof.Machine

/-! ### Apply (R76–R79) -/

/-- Zero the stack, grist, cask and near cache of a CD (R78); the near cache keeps its STATE (R423). -/
def zeroCd (s : State) (n : Nat) : State :=
  let s := modCd (modNc s n fun nc => { nc with lines := [] }) n fun c => { c with written := 0 }
  { s with mem := mzero s.mem (n * 2 ^ 35) (2 ^ 35), grist := mzero s.grist (n * 0x4000000) 0x4000000,
           health := { s.health with bad := tdrop s.health.bad fun k => n * 2 ^ 30 ≤ k && k < (n + 1) * 2 ^ 30 } }

/-- Zero a far-memory slice (R78). -/
def zeroSlice (s : State) (k : Nat) : State :=
  let a := farBase + k * 2 ^ 34
  { s with mem := mzero s.mem a (2 ^ 34),
           health := { s.health with bad := tdrop s.health.bad fun c => a ≤ c * 32 && c * 32 < a + 2 ^ 34 } }

/-- What a load that affects a polder clears (R76, R95, R117, R177, R220, R340, R398, R459, Table 17-1). -/
def loadClears (s : State) (p : Nat) : State :=
  let s := modCore s p fun c => { c with starts := 0, mCoxel := [] }
  let s := modPolder (dropWalks (dropXlat s p fun _ => true) p) p fun po =>
    { po with invCur := 0, invLast := 0, invDone := false, groups := [], banks := [], vregs := [], masks := [], xltGen := 0, frzCore := none,
              frzQueue := [], frzMover := [], shadow := [], liveWrites := 0 }
  modScope s p fun sc => { sc with fatal := false }

/-- The lead core's waiting requests are gone, and with them the instruction and the queue that made them. -/
def loadForgets (s : State) (p : Nat) : State :=
  let s := dropRequests (dropWaiters s p fun _ => true) p
  modPolder (modCore s p fun c => { c with npWait := none }) p fun po => { po with vqueue := [] }

/-- The lead core's remaining requests after a load (R449): walked again, or gone where another core takes the lead. -/
def loadWalks (s : State) (p lead : Nat) : State := if leadOf s p = lead then rewalk s p else loadForgets s p

/-- A polder that a load leaves out (R79): its recipes, sluices and tensor table go; a command that waits on it ends with CM_STATE (R631). -/
def loadOmits (s : State) (p : Nat) : State :=
  let po := polder s p
  let s := modPolder (loadClears (loadForgets s p) p) p fun po =>
    { po with assigned := false, sec := PolderSec.none, slots := [], sluices := [], tt := [], ttWin := [], adm := none, rcp := RcpStatus.reset, held := false }
  match po.adm with
  | some a => match a.cmd with
    | some h => completeSt s h 0x20 cmState
    | none => s
  | none => s

/-- The live fields of an image that differ enter the shadow copies of a polder that the load leaves unaffected (R77). -/
def loadShadows (s : State) (p : Nat) (c : PolderSec) : State :=
  let po := polder s p
  let diff := (polderFields.filter (·.live)).filter fun f => (tfind po.shadow f.off).getD (fieldGet p po.sec f.off) ≠ fieldGet p c f.off
  let s := setPolder s p { po with shadow := diff.foldl (fun sh f => tins sh f.off (fieldGet p c f.off)) po.shadow }
  if quiesced s p then applyAll s p else s

/-- CD_TOPO of a CD under an image (R38, R79); `fresh` marks new and changed polders. An out-of-service CD keeps STATE 0b11. -/
def loadTopo (m : PhImage) (fresh : Nat → Bool) (n : Nat) (c : Cd) : Cd :=
  match m.pols.find? fun x => x.2.2.members.getLsbD n with
  | none => { c with polder := 0xFF, lead := 0xFF, rank := 0xFF, isLead := false, state := if c.state = 3 then 3 else 0, pos := [] }
  | some (_, p, x) =>
    { c with polder := p, lead := x.lead, rank := (setBitsOf n x.members.toNat).length, isLead := x.lead == n,
             state := if c.state = 3 then 3 else if fresh p then 1 else c.state }

/-- The core of a CD that takes or gives up the lead of a polder stands as after a core reset (log 25). -/
def loadCore (s : State) (n : Nat) (was now : Cd) : State :=
  if was.isLead = now.isLead && (!now.isLead || was.polder = now.polder) then s
  else
    let c := coreAt s n
    setCoreAt s n { Core.reset with dtReset := s.dt, entrySram := c.entrySram, localSram := c.localSram }

/-- Train a ring link whose two CDs belong to one polder and power it down where they do not (R22); a link that is down stays down (R467). -/
def ringLinks (s : State) : State :=
  (List.range 24).foldl (fun s n =>
    let up := (cdAt s n).polder < 24 && (cdAt s n).polder = (cdAt s ((n + 1) % 24)).polder
    modLink s (9 * n + 8) fun l => if l.state = 5 then l else { l with state := if up then (if l.state = 0 then 2 else l.state) else 0 }) s

/-- Does the load change the polder number or the member set of a CD (R78). -/
def cdChanges (s : State) (m : PhImage) (n : Nat) : Bool :=
  let old := (cdAt s n).polder
  match m.pols.find? fun x => x.2.2.members.getLsbD n with
  | none => old ≠ 0xFF
  | some (_, p, c) => old ≠ p || (polder s p).sec.members ≠ c.members

/-- Apply an accepted image (R77–R79). Both runs of COOL_ID samples start anew, so that a boot sample or one before the load counts in neither
of R70's two: DESIGN CHOICE, log 25. -/
def applyImage (s : State) (b : List Byte) (m : PhImage) : State :=
  let old := polderNums.filter (named s)
  let gone := old.filter fun p => (secOf m p).isNone
  let aff := old.filter fun p => (secOf m p).isSome && loadAffects s m p
  let kept := old.filter fun p => !gone.contains p && !aff.contains p
  let fresh := (m.pols.map (·.2.1)).filter fun p => !kept.contains p
  let zcd := (List.range 24).filter (cdChanges s m)
  let zsl := (List.range 63).filter fun k => tget 0xFF s.phiro.sliceOwner k ≠ m.slices.getD k 0xFF
  let cds := s.cds
  let leads := aff.map fun p => (p, leadOf s p)
  let s := (gone ++ aff).foldl (fun s p => if gone.contains p then loadOmits s p else loadClears s p) s
  let s := kept.foldl (fun s p => match secOf m p with | some c => loadShadows s p c | none => s) s
  let s := fresh.foldl (fun s p => match secOf m p with
    | some c => modPolder s p fun po => { po with assigned := true, sec := c, shadow := [], liveWrites := 0 }
    | none => s) s
  let s := (List.range 24).foldl (fun s n =>
    loadCore (modCd s n (loadTopo m (fun p => fresh.contains p) n)) n (tget Cd.reset cds n) (loadTopo m (fun p => fresh.contains p) n (tget Cd.reset cds n))) s
  let s := zsl.foldl zeroSlice (zcd.foldl zeroCd s)
  let t := if m.timeout = 0 then 50 else max m.timeout 10
  let s := ringLinks { s with phiro := { s.phiro with
    loaded := true, image := b, lastStatus := bsOk, profile := m.profile, txnTimeout := t,
    sliceOwner := (List.range 63).foldl (fun o k => tset 0xFF o k (m.slices.getD k 0xFF)) [],
    tags := m.tags, ethLoaded := m.eth, missRun := 0, hitRun := 0 } }
  leads.foldl (fun s x => loadWalks s x.1 x.2) s

/-- A load (R73, R74, R79): its status and DETAIL. -/
def loadImage (s : State) (b : List Byte) : Nat × Nat × State :=
  match checkImage s b with
  | .error (st, d) => (st, d, { s with phiro := { s.phiro with lastStatus := st } })
  | .ok m =>
    let s := applyImage s b m
    (bsOk, 0, { s with phiro := { s.phiro with loadCount := (s.phiro.loadCount + 1) % 2 ^ 32 } })

/-- Does a load zero anything (R78). -/
def loadZeroes (s : State) (m : PhImage) : Bool :=
  (List.range 24).any (cdChanges s m) || (List.range 63).any fun k => tget 0xFF s.phiro.sliceOwner k ≠ m.slices.getD k 0xFF

/-! ### The commands -/

/-- The opcode of BS_LOAD. -/
def opBsLoad : Nat := 0x10

/-- BS_LOAD: an image that cannot be read has no header (BS_FORMAT, log 25); a load that zeroes holds its ring and BUSY until
LOAD_ZEROING_DONE. -/
def bsLoad (h : CmdHdr) (pa len : Nat) : State → State :=
  hostCmd .device opBsLoad h fun s =>
    if s.phiro.busy then complete s h opBsLoad { status := bsBusy }
    else
      let (b, s) := if pa % 8 = 0 && len ≤ 65536 then devRead s (lsCmd s h) pa len else (none, s)
      let b := b.getD []
      let z := match checkImage s b with | .ok m => loadZeroes s m | .error _ => false
      let aff := match checkImage s b with
        | .ok m => polderNums.filter fun p => if named s p then loadAffects s m p else (secOf m p).isSome
        | .error _ => []
      let (st, d, s) := loadImage s b
      if z then
        let s := begin_ s h opBsLoad
        { s with phiro := { s.phiro with busy := true, loading := some h, affects := aff } }
      else complete s h opBsLoad { status := st, detail := d }

/-- The zeroing of R78 ends: BUSY falls and the load completes. -/
def zeroingDone (s : State) : State :=
  match s.phiro.loading with
  | some h =>
    let s := { s with phiro := { s.phiro with busy := false, loading := none, affects := [] } }
    complete s h opBsLoad { status := bsOk }
  | none => s

/-- BS_READBACK (R67). -/
def bsReadback (h : CmdHdr) (hb off : Nat) : State → State :=
  hostCmd .device 0x11 h fun s =>
    if !s.phiro.loaded then completeSt s h 0x11 cmState
    else
      let b := readbackImage s
      bufCmd s h 0x11 hb off b { status := bsOk, detail := b.length }

/-- BS_FIELD as a write (R44–R47, R73): DETAIL names the offset of a refused write. -/
def bsFieldWrite (h : CmdHdr) (off : Nat) (v : Word) : State → State :=
  quickCmd .polder 0x12 h fun s =>
    if s.phiro.busy then ({ status := bsBusy }, s)
    else
      let (st, s) := fieldWrite s h.pol off v.toNat
      ({ status := st, detail := if st = bsOk then 0 else off }, s)

/-- BS_FIELD as a read (R51). -/
def bsFieldRead (h : CmdHdr) (off : Nat) (shadow : Bool) : State → State :=
  quickCmd .polder 0x12 h fun s =>
    let (st, v) := fieldRead s h.pol off shadow
    ({ status := st, detail := if st = bsOk then 0 else off, result := bytesLE 8 v }, s)

/-- BS_LOAD (R74). -/
def execBsLoad (h : CmdHdr) (pa len : Nat) (s : State) : Result := done (bsLoad h pa len s)

/-- BS_READBACK (R67). -/
def execBsReadback (h : CmdHdr) (hbuf off : Nat) (s : State) : Result := done (bsReadback h hbuf off s)

/-- BS_FIELD_WRITE (R47). -/
def execBsFieldWrite (h : CmdHdr) (off : Nat) (value : Word) (s : State) : Result := done (bsFieldWrite h off value s)

/-- BS_FIELD_READ (R51). -/
def execBsFieldRead (h : CmdHdr) (off : Nat) (shadow : Bool) (s : State) : Result := done (bsFieldRead h off shadow s)

end Sys2Proof.Machine
end

