-- ==== Sys2Proof/Machine/Reset.lean ====
section
/-! DEFINITION. Polder resets (R604, R605) and the end of a binding (R504). -/

namespace Sys2Proof.Machine

/-! ### Polder reset -/

/-- Steps 1 of R604: the running invocation, the re-arm and the pending starts end CANCELLED; a class 1 record that waited for the
invocation's end posts (R536). -/
def cancelAll (s : State) (p : Nat) : State :=
  let po := polder s p
  let s := match po.run with
    | none => s
    | some inv =>
      let s := postDone s p inv.req { cancelled := true } inv.flags.toNat 0
      let s := modPolder s p fun po => { po with run := none, invLast := po.invCur, invDone := true, invCur := (po.invCur + 1) % 2 ^ 24 }
      let s := match inv.err with
        | some e => postInvError s p e
        | none => s
      setInt s p 0
  let s := (po.armed.toList ++ po.pend).foldl (fun s r => postCancelled s p r) s
  let s := dropWaiterAll s (descOf p)
  discardWork (modPolder s p fun po => { po with armed := none, pend := [] }) p

/-- Steps 2 to 6 up to the write-back, which POLDER_RESET_COMPLETE ends. -/
def polderResetNow (s : State) (p : Nat) : State :=
  let s := cancelAll s p
  let s := modScope s p fun sc => { sc with fatal := false }
  let s := modPolder s p fun po =>
    { po with frzCore := none, frzQueue := [], frzMover := [], held := false, sluices := [], slots := [], groups := [], banks := [], vregs := [],
              masks := [], xltGen := 0, resetting := true }
  let s := dropRequests (dropWaiters (dropWalks (dropXlat s p fun _ => true) p) p fun _ => true) p
  let mem := members s p
  let s := mem.foldl (fun s n => modCd s n fun c => { c with written := 0 }) { s with grist := tdrop s.grist fun k => mem.contains (k / 0x4000000) }
  coreReset (applyAll s p) p

/-- A polder reset is asked for: ignored while one of the polder, or a higher reset, is in progress; it waits for a load that affects the
polder (R605). -/
def polderResetAsk (s : State) (p : Nat) : State :=
  if !named s p || (polder s p).resetting || s.power.rstReq.isSome || s.power.rstLow then s
  else if s.phiro.busy && s.phiro.affects.contains p then { s with power := { s.power with rstWait := insertNat s.power.rstWait p } }
  else polderResetNow s p

/-- The reset's write-back ends: near caches invalid (R423), STATE 0b01. -/
def polderResetEnd (s : State) (p : Nat) : State :=
  if (polder s p).resetting then
    let s := (members s p).foldl ncReset s
    setMembers (modPolder s p fun po => { po with resetting := false }) p 1
  else s

/-- A core reset is asked for (Table 19-8): ignored while a reset of the polder or a higher one is in progress. -/
def coreResetAsk (s : State) (p : Nat) : State :=
  if !named s p || (polder s p).resetting || s.power.rstReq.isSome || s.power.rstLow then s else coreReset s p

/-- Does a cause of BOOT_STAT name a cold reset (Table 19-10). -/
def causeCold (c : Nat) : Bool := c == 1 || c == 2 || c == 3 || c == 5

/-- A warm or cold reset is asked for by its cause: ignored where one of the same or a higher rank is on its way (R605). -/
def askReset (s : State) (cause : Nat) : State :=
  match s.power.rstReq with
  | none => { s with power := { s.power with rstReq := some cause } }
  | some c => if causeCold cause && !causeCold c then { s with power := { s.power with rstReq := some cause } } else s

/-- A write of RST_CTL (Table 19-8, R606): a warm or cold reset is noted and begins at its own event. -/
def rstCtlWrite (s : State) (v : Nat) : State :=
  let p := bits v 8 8
  match bits v 0 3 with
  | 1 => coreResetAsk s p
  | 2 => polderResetAsk s p
  | 3 => askReset s 6
  | 4 => askReset s 5
  | _ => s

/-! ### The end of a binding (R504) -/

/-- Every connection closes, rings and event queue are disabled, HBUF entries clear, the event queue is discarded, STATE 0b00. -/
def endBinding (s : State) : State :=
  let s := ((owner s 24).tags.filter (·.host.isSome)).foldl (fun s t => releaseTag s 24 t.num) s
  let s := dropWaiter s 24 fun q => match q with | .hostRead _ | .hostWrite _ => true | _ => false
  let q := s.port.evq
  { s with port := { s.port with
      bindState := 0, bindStep := 0, bindPeer := none, bindNonce := [], host := none, conns := [], hbufs := [], resend := [],
      rings := tmap Ring.reset s.port.rings fun r => { r with en := false, held := [] },
      evq := { q with en := false, held := [], wait := [] } } }

/-- Does a forced unbind wait for a polder's QUIESCE. -/
def unbindWaits (s : State) : Bool := s.polders.any fun e => e.2.quies.contains none

/-- The forced unbind of the sideband (R504, R576): QUIESCE with ABORT on every running polder first; the binding ends once none waits. -/
def forcedUnbind (s : State) : State :=
  let run := polderNums.filter fun p => named s p && polderRuns s p
  let s := run.foldl (fun s p => quiesceAbortInv (quiesceBegin s p none) p (lsDevice 31)) s
  if unbindWaits s then s else endBinding s

/-- A QUIESCE ends; the last that a forced unbind waits for ends the binding. -/
def quiesceDone (s : State) (p : Nat) : State :=
  let w := unbindWaits s
  let s := quiesceEnd s p
  if w && !unbindWaits s then endBinding s else s

/-! ### The commands -/

/-- LOAD_ZEROING_DONE (R78); a polder reset that waited for the load begins (R605). -/
def execLoadZeroingDone (s : State) : Result :=
  done (if s.phiro.loading.isSome then
      let s := zeroingDone s
      let w := s.power.rstWait
      w.foldl polderResetAsk { s with power := { s.power with rstWait := [] } }
    else s)

/-- QUIESCE_COMPLETE (R289). -/
def execQuiesceComplete (p : Nat) (s : State) : Result := done (quiesceDone s p)

/-- POLDER_RESET (R604). -/
def execPolderReset (p : Nat) (s : State) : Result := done (polderResetAsk s p)

/-- POLDER_RESET_COMPLETE (R604). -/
def execPolderResetComplete (p : Nat) (s : State) : Result := done (polderResetEnd s p)

end Sys2Proof.Machine
end

