-- ==== Sys2Proof/Machine/Registers.lean ====
section
/-! DEFINITION. The register window (R10, Tables 1-7, 2-13, 2-14, 3-1, 3-3, 8-10, 11-18, 12-4, 12-5, 13-7, 14-6, 14-7, 15-9, 17-7 to 17-9,
18-10, 19-8 to 19-11): every register as read, and writes under the access codes of Table 0-4. -/

namespace Sys2Proof.Machine

/-- I/O statuses of Table 9-6a. -/
def ioOk : Nat := 0
def ioRwq : Nat := 0xE0
def ioNone : Nat := 0xE1
def ioTimeout : Nat := 0xE2

/-! ### The settings banks of MRAM (R562) -/

/-- A settings record: TYPE, a reserved byte, LENGTH (0 stands for 65,536, log 27), the value, padded to a multiple of 8 B. -/
def setRec (ty : Nat) (v : List Byte) : List Byte :=
  slice (bytesLE 1 ty ++ bytesLE 1 0 ++ bytesLE 2 v.length ++ v) 0 (alignUp (4 + v.length) 8)

/-- The records of a bank (Table 18-3), in the order of their types; one without a value is not written. -/
def setRecs (b : SetBank) : List Byte :=
  let opt := fun (ty : Nat) (v : List Byte) => if v.isEmpty then [] else setRec ty v
  opt 1 b.net4 ++ opt 2 b.net6 ++ setRec 3 (bytesLE 8 (b.kilnHours <<< 8 + b2n b.kilnEn)) ++ opt 4 b.bootBs

/-- The bytes 0x00 to 0x0F of a bank with `n` bytes of records: MAGIC, FMT_VER, SEQ, LENGTH. -/
def setHead (seq n : Nat) : List Byte := bytesLE 4 0x42544553 ++ bytesLE 2 1 ++ bytesLE 2 0 ++ bytesLE 4 seq ++ bytesLE 4 n

/-- The CRC of a bank. -/
def setCrc (head recs : List Byte) : Nat := crcBytes polyCrc32c (2 ^ 32 - 1) (head ++ recs) ^^^ (2 ^ 32 - 1)

/-- A bank as MRAM holds it. -/
def setBytes (b : SetBank) : List Byte :=
  let recs := setRecs b
  let head := setHead b.seq recs.length
  head ++ bytesLE 4 (setCrc head recs) ++ bytesLE 12 0 ++ recs

/-- Read records one after the other; the last of a type counts. -/
def readRecs : Nat → List Byte → SetBank → SetBank
  | 0, _, b => b
  | fuel + 1, l, b =>
    if l.isEmpty then b
    else
      let n := if leAt l 2 2 = 0 then 65536 else leAt l 2 2
      let v := slice l 4 n
      let b := match leAt l 0 1 with
        | 1 => { b with net4 := v }
        | 2 => { b with net6 := v }
        | 3 => { b with kilnHours := leAt v 1 1, kilnEn := bit (leAt v 0 1) 0 }
        | 4 => { b with bootBs := v }
        | _ => b
      readRecs fuel (l.drop (alignUp (4 + n) 8)) b

/-- What a bank says; it is valid when its MAGIC, FMT_VER and CRC check. -/
def setRead (m : List Byte) : SetBank :=
  let recs := (m.drop 32).take (leAt m 12 4)
  if leAt m 0 4 = 0x42544553 && leAt m 4 2 = 1 && 32 + leAt m 12 4 ≤ m.length && leAt m 16 4 = setCrc (m.take 16) recs then
    readRecs recs.length recs { SetBank.empty with valid := true, seq := leAt m 8 4 }
  else SetBank.empty

/-! ### Registers as read -/

/-- CD_TOPO (Table 1-7). -/
def rdCdTopo (s : State) (n : Nat) : Nat :=
  let c := cdAt s n
  let m := spareMap s n
  goodCl m <<< 48 + c.rank <<< 32 + c.lead <<< 24 + c.polder <<< 16 + b2n c.isLead <<< 3 + b2n (goodCl m < 16) <<< 2 + c.state

/-- PHIRO_STATE (Table 2-13). -/
def rdPhiroState (s : State) : Nat :=
  let f := s.phiro
  let stored := match newerBank s.reeve with | some b => !b.bootBs.isEmpty | none => false
  f.loadCount <<< 32 + f.lastStatus <<< 24 + f.coolId.toNat <<< 16 + f.profile <<< 14 +
    b2n (f.profile ≠ 0 && coolProfile f.coolId == f.profile) <<< 11 + b2n (f.loaded && decide (f.ethLoaded ≠ f.eth)) <<< 10 +
    b2n stored <<< 9 + b2n f.loaded <<< 8 + b2n f.busy
where
  /-- The newer valid settings bank (R564). -/
  newerBank (v : Reeve) : Option SetBank :=
    let a := setRead v.bankA
    let b := setRead v.bankB
    if a.valid && b.valid then
      (if b.seq = (a.seq + 1) % 2 ^ 32 then some b else if a.seq = (b.seq + 1) % 2 ^ 32 then some a else if a.seq < b.seq then some b else some a)
    else if a.valid then some a else if b.valid then some b else none

/-- PHIRO_LIVE (Table 2-14). -/
def rdPhiroLive (s : State) (p : Nat) : Nat :=
  let po := polder s p
  po.liveWrites <<< 32 + b2n (shadowPend po true) <<< 1 + b2n (shadowPend po false)

/-- POLDER_INV (Table 3-3). -/
def rdPolderInv (s : State) (p : Nat) : Nat :=
  let po := polder s p
  b2n po.invDone <<< 63 + po.invLast <<< 24 + po.invCur

/-- SEQ_STATE (Table 8-10). -/
def rdSeqState (s : State) (p : Nat) : Nat :=
  let po := polder s p
  maskOf (po.slots.map (·.1)) <<< 32 + (match po.run with | some i => i.req.slot | none => 0) <<< 28 + po.pend.length <<< 19 + b2n po.held <<< 15 +
    b2n (!po.quies.isEmpty) <<< 14 + b2n po.armed.isSome <<< 13 + b2n po.run.isSome <<< 12 + b2n po.adm.isSome <<< 11

/-- Does a frozen core, ring or mover have transactions in flight: the tags a test selects (R398). -/
def tagsOut (s : State) (q : Requester → Bool) : Bool := s.fabric.owners.any fun o => o.2.tags.any fun t => q t.req

/-- Transactions of a polder's lead core. -/
def coreTags (s : State) (p : Nat) : Bool :=
  tagsOut s fun r => match r with | .core q | .coreAtomic q | .vector q _ => q == p | _ => false

/-- Transactions of a polder's descriptors. -/
def descTags (s : State) (p : Nat) : Bool :=
  tagsOut s fun r => match r with | .descriptor q _ | .descUpdate q _ => q == p | _ => false

/-- FRZ_MAP (Table 11-18). -/
def rdFrzMap (s : State) (p : Nat) : Nat :=
  let po := polder s p
  b2n ((po.frzCore.isSome && coreTags s p) || (!(po.frzQueue.isEmpty && po.frzMover.isEmpty) && descTags s p)) <<< 48 +
    maskOf po.frzMover <<< 24 + maskOf po.frzQueue <<< 1 + b2n po.frzCore.isSome

/-- RING_FRZk. -/
def rdRingFrz (s : State) (k : Nat) : Nat := maskOf ((List.range 64).filter fun i => (ring s (64 * k + i)).frozen)

/-- Has the host acknowledged every completion entry of a ring (R496, R606). -/
def cplAcked (s : State) (r : Nat) : Bool :=
  (ring s r).held.isEmpty && !(s.port.resend.any fun t => t.req == .ring r) && !(tagsOut s fun q => q == .ring r)

/-- Transactions of a frozen ring or of Reeve in flight. -/
def ringTags (s : State) (r : Nat) : Bool := tagsOut s fun q => q == .ring r

/-- DEV_FRZ. -/
def rdDevFrz (s : State) : Nat :=
  b2n ((s.port.rings.any fun e => e.2.frozen && ringTags s e.1) || (s.reeve.frozen && tagsOut s (· == .reeve))) <<< 1 + b2n s.reeve.frozen

/-- LINK_STAT (Table 14-6). -/
def rdLinkStat (s : State) (k : Nat) : Nat :=
  let l := linkAt s k
  l.replays <<< 48 + l.spareUsed <<< 32 + l.downCnt <<< 16 + l.lastLane <<< 8 + l.state

/-- TAG_STAT (Table 14-7). -/
def rdTagStat (s : State) (o : Nat) : Nat :=
  let w := owner s o
  w.stallUs s.dt <<< 44 + w.high <<< 24 + tagsInUse w

/-- ERR_STAT (Table 17-7). -/
def rdErrStat (s : State) (k : Nat) : Nat :=
  let c := scopeAt s k
  c.lastSeq <<< 32 + c.pend.length <<< 16 + (match c.cur with | some r => r.cls | none => 0) <<< 8 + b2n c.overflow <<< 1 + b2n c.fatal

/-- The units that a sweep tests (R550): the spares of types 1 to 5 and what they stand for, arrays, adders, walkers, spare DRAM dies. -/
def kilnUnits : List KilnUnit :=
  ((List.range 24).flatMap fun d =>
    (List.range 18).map (fun k => { type := 1, die := d, index := k }) ++ (List.range 288).map (fun k => { type := 13, die := d, index := k }) ++
    (List.range (16 * 65)).map (fun k => { type := 2, die := d, index := k }) ++ (List.range (16 * 17)).map (fun k => { type := 3, die := d, index := k }) ++
    (List.range 17).map (fun k => { type := 4, die := d, index := k }) ++ (List.range 2).map (fun k => { type := 5, die := d, index := k }) ++
    [{ type := 6, die := d, index := 0 }] ++ (List.range 32).map (fun k => { type := 15, die := d, index := k })) ++
  (span 25 4).flatMap (fun d => (List.range 8).map fun k => { type := 15, die := d, index := k }) ++
  (span 29 2).map (fun d => { type := 14, die := d, index := 0 }) ++ (List.range 33).map fun k => { type := 10, die := 24, index := k }

/-- KILN_STAT (Table 17-9). -/
def rdKilnStat (s : State) : Nat :=
  let k := s.kiln
  k.sweepS <<< 40 + k.rotations <<< 24 + k.fails <<< 16 + k.transient <<< 8 + b2n k.late <<< 7 + k.tested.length * 100 / kilnUnits.length

/-- REEVE_STAT, NV_STAT and ID_CNT (Table 18-10). -/
def rdReeve (s : State) (k : Nat) : Nat :=
  let v := s.reeve
  let newer := rdPhiroState.newerBank v
  match k with
  | 0 => (if v.recovery || !v.fwUp then 0 else (if v.runSlot then v.slotB else v.slotA).svn) <<< 32 + v.upd <<< 6 + v.updPath <<< 4 + b2n v.owner.isSome <<< 3 +
      b2n v.recovery <<< 2 + b2n v.runSlot
  | 1 => (match newer with | some b => b.seq | none => 0) <<< 32 + v.spareLeft <<< 8 + b2n (v.stagedNet4.isSome || v.stagedNet6.isSome) <<< 4 +
      b2n v.store.isSome <<< 3 + b2n (setRead v.bankB).valid <<< 2 + b2n (setRead v.bankA).valid <<< 1 + b2n (newer.isSome && newer == some (setRead v.bankB))
  | _ => v.ownerEnrols <<< 32 + v.insertCnt

/-- The cap in force (R592) as PROFILE numbers it. -/
def capNow (s : State) : Nat :=
  if s.phiro.forced then 1 else if s.phiro.loaded then s.phiro.profile else let c := coolProfile s.phiro.coolId; if c = 0 then 1 else c

/-- PWR_STAT (Table 19-11). -/
def rdPwrStat (s : State) : Nat :=
  let w := s.power
  w.inW <<< 48 + w.step <<< 37 + w.pstep <<< 34 + w.tstep <<< 31 + capNow s <<< 6 + b2n s.phiro.forced <<< 5 + b2n (!w.memThr.isEmpty) <<< 4 +
    b2n w.clamp <<< 3

/-- The host-port registers (Table 15-9), by offset from 0x1_0000. -/
def rdPort (s : State) (off : Nat) : Option Nat :=
  let q := s.port.evq
  let o := s.port
  if off < 0x2000 then
    let r := ring s (off / 32)
    match off % 32 with
    | 0 => some (r.base <<< 12 + r.size <<< 1 + b2n r.en)
    | 8 => some (r.cplCons <<< 32 + r.cplHbuf)
    | 16 => some (r.cplProd <<< 32 + r.head <<< 16 + r.tail)
    | _ => none
  else if off < 0x4000 then
    let h := hbuf s ((off - 0x2000) / 32)
    match off % 32 with
    | 0 => some h.va
    | 8 => some (h.rkey <<< 32 + h.conn)
    | 16 => some h.len
    | _ => some (b2n h.valid)
  else match off - 0x4000 with
    | 0 => some (q.cons <<< 32 + b2n q.en <<< 8 + q.hbuf)
    | 8 => some (q.prod <<< 32 + q.lost <<< 16 + q.held.length)
    | 0x100 => some (o.keychk <<< 40 + o.bindState <<< 32 + o.bindCount)
    | 0x108 => some (o.refused <<< 48 + o.discard <<< 32 + o.cnpRx <<< 16 + o.mode <<< 4 + o.link)
    | _ => none

/-- The index of an 8 B register in a run of `n` from `base`. -/
def regIdx (off base n : Nat) : Option Nat := if base ≤ off && off < base + 8 * n && off % 8 = 0 then some ((off - base) / 8) else none

/-- The registers at offsets below 0x1000. -/
def rdLow (s : State) (off : Nat) : Option Nat :=
  match regIdx off 0x200 24, regIdx off 0x400 24, regIdx off 0x500 24, regIdx off 0x600 24, regIdx off 0x700 4 with
  | some p, _, _, _, _ => some (rdPhiroLive s p)
  | _, some p, _, _, _ => some (rdPolderInv s p)
  | _, _, some p, _, _ => some (rdSeqState s p)
  | _, _, _, some p, _ => some (rdFrzMap s p)
  | _, _, _, _, some k => some (rdRingFrz s k)
  | _, _, _, _, _ => if off = 0x100 then some (rdPhiroState s) else if off = 0x300 then some s.dt else if off = 0x720 then some (rdDevFrz s) else none

/-- The registers at offsets 0x1000 to 0x4FFF. -/
def rdMid (s : State) (off : Nat) : Option Nat :=
  match regIdx off 0x1000 24, regIdx off 0x2000 24, regIdx off 0x2100 24, regIdx off 0x3000 24, regIdx off 0x3100 24 with
  | some n, _, _, _, _ => some (rdCdTopo s n)
  | _, some n, _, _, _ => some (ncCtlRead s n)
  | _, _, some n, _, _ => some (ncStatRead s n)
  | _, _, _, some p, _ => some (polder s p).ptb.toNat
  | _, _, _, _, some p => some (polder s p).xltGen
  | _, _, _, _, _ =>
    match regIdx off 0x4000 236, regIdx off 0x4800 32 with
    | some k, _ => some (rdLinkStat s k)
    | _, some o => some (rdTagStat s o)
    | _, _ => none

/-- The registers at offsets 0x5000 to 0x7FFF. -/
def rdHigh (s : State) (off : Nat) : Option Nat :=
  match regIdx off 0x5000 25 with
  | some k => some (rdErrStat s k)
  | none =>
    match off with
    | 0x5100 => some (s.kiln.hours <<< 8 + b2n s.kiln.en)
    | 0x5108 => some (rdKilnStat s)
    | 0x6000 => some (rdReeve s 0)
    | 0x6008 => some (rdReeve s 1)
    | 0x6010 => some (rdReeve s 2)
    | 0x7000 => some 0
    | 0x7008 => some (s.power.bootMs <<< 32 + s.power.bootCause <<< 8 + s.power.bootStep)
    | 0x7010 => some (rdPwrStat s)
    | _ => none

/-- The register at an offset of the window as it reads; none where none is assigned. -/
def winRead (s : State) (off : Nat) : Option Nat :=
  if off % 8 ≠ 0 then none
  else if off < 0x1000 then rdLow s off
  else if off < 0x5000 then rdMid s off
  else if off < 0x8000 then rdHigh s off
  else if 0x10000 ≤ off && off < 0x15000 then rdPort s (off - 0x10000)
  else none

/-! ### Register writes -/

/-- Is `a` ahead of `b` modulo 2^32 (R510). -/
def newerThan (a b : Nat) : Bool := let d := (a + 2 ^ 32 - b) % 2 ^ 32; 0 < d && d < 2 ^ 31

/-- A ring is enabled: HEAD, TAIL and CPL_PROD become 0 (R520); completion entries of its earlier life are gone. -/
def ringEnable (r : Ring) : Ring := { r with en := true, head := 0, tail := 0, cplProd := 0, held := [] }

/-- A ring is disabled: it begins no other command (R520). -/
def ringDisable (r : Ring) : Ring := { r with en := false }

/-- RING_CFG0 (R520, Table 15-9). -/
def wrRingCfg0 (s : State) (r v : Nat) : State :=
  modRing s r fun k =>
    if k.en then (if bit v 0 then k else ringDisable k)
    else
      let k := { k with base := bits v 12 32, size := if 4 ≤ bits v 1 4 && bits v 1 4 ≤ 12 then bits v 1 4 else k.size }
      if bit v 0 then ringEnable k else k

/-- CPL_CONS (R510). -/
def wrCplCons (s : State) (r v : Nat) : State := modRing s r fun k => if newerThan (v % 2 ^ 32) k.cplProd then k else { k with cplCons := v % 2 ^ 32 }

/-- RING_CFG1 (R520). -/
def wrRingCfg1 (s : State) (r v : Nat) : State :=
  modRing (wrCplCons s r (bits v 32 32)) r fun k => if k.en then k else { k with cplHbuf := bits v 0 8 }

/-- HBUF0 to HBUF3 (Table 15-9); a LEN that is no multiple of 64 is ignored (R9). -/
def wrHbuf (s : State) (h k v : Nat) : State :=
  let f := fun (b : HBuf) =>
    if k = 0 then { b with va := v } else if k = 1 then { b with rkey := bits v 32 32, conn := bits v 0 6 }
    else if k = 2 then (if bits v 0 32 % 64 = 0 then { b with len := bits v 0 32 } else b) else { b with valid := bit v 0 }
  { s with port := { s.port with hbufs := tset HBuf.reset s.port.hbufs h (f (hbuf s h)) } }

/-- The event queue is enabled: PROD becomes 0. -/
def evqEnable (q : Evq) : Evq := { q with en := true, prod := 0 }

/-- The event queue is disabled: records are held. -/
def evqDisable (q : Evq) : Evq := { q with en := false }

/-- EVQ_CFG.CONS (R517). -/
def evqCons (q : Evq) (v : Nat) : Evq := if newerThan (v % 2 ^ 32) q.prod then q else { q with cons := v % 2 ^ 32 }

/-- EVQ_CFG (R520). -/
def wrEvqCfg (s : State) (v : Nat) : State :=
  let q := s.port.evq
  let q := if q.en then (if bit v 8 then q else evqDisable q) else
    let q := { q with hbuf := bits v 0 8 }
    if bit v 8 then evqEnable q else q
  { s with port := { s.port with evq := evqCons q (bits v 32 32) } }

/-- A register of the host-port block, by offset from 0x1_0000. -/
def wrPort (s : State) (off v : Nat) : State :=
  if off < 0x2000 then
    (match off % 32 with | 0 => wrRingCfg0 s (off / 32) v | 8 => wrRingCfg1 s (off / 32) v | _ => s)
  else if off < 0x4000 then wrHbuf s ((off - 0x2000) / 32) (off % 32 / 8) v
  else if off = 0x4000 then wrEvqCfg s v
  else s

/-- PTB, an RWQ register (R11, Table 13-7). A polder number that the loaded image does not name has no owning polder, and its PTB takes the
value: DESIGN CHOICE, log 27. -/
def wrPtb (s : State) (p v : Nat) : Nat × State :=
  if named s p && !quiesced s p then (ioRwq, s)
  else (ioOk, modPolder s p fun po => { po with ptb := toW (bits v 12 32 <<< 12 + bits v 0 1) })

/-- HIGH_CLR (Table 14-7). -/
def highClr (s : State) (o : Nat) : State := modOwner s o fun w => { w with high := tagsInUse w }

/-- KILN_CTL.EN = 1 (R555). -/
def kilnOn (s : State) : State := { s with kiln := { s.kiln with en := true } }

/-- KILN_CTL.EN = 0 (R555): units under test are released. -/
def kilnOff (s : State) : State := { s with kiln := { s.kiln with en := false, testing := [] } }

/-- KILN_CTL.HOURS: 169 to 255 ignored, 0 selects 24 (Table 17-8). -/
def kilnHours (s : State) (v : Nat) : State := if 168 < v then s else { s with kiln := { s.kiln with hours := v } }

/-- KILN_CTL. -/
def wrKilnCtl (s : State) (v : Nat) : State :=
  let s := kilnHours s (bits v 8 8)
  if bit v 0 then kilnOn s else kilnOff s

/-- Does the domain of a near-cache register not answer (R602): its CD is out of service or a trip holds. -/
def ncStopped (s : State) (cd : Nat) : Bool := (spareMap s cd).out || s.power.trip

/-- Is an offset that of a near-cache register whose domain does not answer. -/
def winStopped (s : State) (off : Nat) : Bool :=
  (regIdx off 0x2000 24).any (ncStopped s) || (regIdx off 0x2100 24).any (ncStopped s)

/-- A write of a window register: IO_OK, IO_RWQ, IO_NONE or IO_TIMEOUT (Table 9-6a). -/
def winWrite (s : State) (off v : Nat) : Nat × State :=
  match winRead s off with
  | none => (ioNone, s)
  | some _ =>
    if winStopped s off then (ioTimeout, s) else
    match regIdx off 0x2000 24, regIdx off 0x2100 24, regIdx off 0x3000 24, regIdx off 0x4800 32, regIdx off 0x5000 25 with
    | some n, _, _, _, _ => (ioOk, ncCtlWrite s n v)
    | _, some n, _, _, _ => (ioOk, ncStatWrite s n v)
    | _, _, some p, _, _ => wrPtb s p v
    | _, _, _, some o, _ => (ioOk, if bit v 23 then highClr s o else s)
    | _, _, _, _, some k => (ioOk, if bit v 1 then modScope s k fun c => { c with overflow := false } else s)
    | _, _, _, _, _ =>
      if off = 0x5100 then (ioOk, wrKilnCtl s v)
      else if off = 0x7000 then (ioOk, rstCtlWrite s v)
      else if 0x10000 ≤ off then (ioOk, wrPort s (off - 0x10000) v)
      else (ioOk, s)

/-! ### The commands -/

/-- RING_ENABLE: a write of RING_CFG0 with EN 1 to a disabled ring (R520). -/
def execRingEnable (ring : Nat) (value : Word) (s : State) : Result :=
  done (if ring < 256 && !(Machine.ring s ring).en && bit value.toNat 0 then wrRingCfg0 s ring value.toNat else s)

/-- RING_DISABLE: a write of RING_CFG0 with EN 0 to an enabled ring (R520). -/
def execRingDisable (ring : Nat) (value : Word) (s : State) : Result :=
  done (if ring < 256 && (Machine.ring s ring).en && !bit value.toNat 0 then wrRingCfg0 s ring value.toNat else s)

/-- CPL_CONS_WRITE (R510). -/
def execCplConsWrite (ring : Nat) (value : Word32) (s : State) : Result :=
  done (if ring < 256 then wrCplCons s ring value.toNat else s)

/-- EVQ_ENABLE: a write of EVQ_CFG with EN 1 while it is 0 (R520). -/
def execEvqEnable (value : Word) (s : State) : Result :=
  done (if !s.port.evq.en && bit value.toNat 8 then wrEvqCfg s value.toNat else s)

/-- EVQ_DISABLE: a write of EVQ_CFG with EN 0 while it is 1 (R520). -/
def execEvqDisable (value : Word) (s : State) : Result :=
  done (if s.port.evq.en && !bit value.toNat 8 then wrEvqCfg s value.toNat else s)

/-- EVQ_CONS_WRITE (R517). -/
def execEvqConsWrite (value : Word32) (s : State) : Result :=
  done { s with port := { s.port with evq := evqCons s.port.evq value.toNat } }

/-- HIGH_CLR (R486). -/
def execHighClr (owner : Nat) (s : State) : Result := done (if owner < 32 then highClr s owner else s)

/-- KILN_ENABLE: a write of KILN_CTL with EN 1 (R555). -/
def execKilnEnable (value : Word) (s : State) : Result := done (if bit value.toNat 0 then wrKilnCtl s value.toNat else s)

/-- KILN_DISABLE: a write of KILN_CTL with EN 0 (R555). -/
def execKilnDisable (value : Word) (s : State) : Result := done (if bit value.toNat 0 then s else wrKilnCtl s value.toNat)

end Sys2Proof.Machine
end

