-- ==== Sys2Proof/Machine/Reeve.lean ====
section
/-! DEFINITION. Reeve (chapter 18): management commands (R556–R558), settings (R561–R565), identity and owner
(R566–R570), firmware (R571–R574), sensor reports (R578), the log (R579), attestation (R580–R582), and the sideband (R575–R577). -/

namespace Sys2Proof.Machine

/-- Statuses of Table 18-2. -/
def mgOk : Nat := 0x90
def mgBusy : Nat := 0x91
def mgAuth : Nat := 0x92
def mgRollback : Nat := 0x93
def mgNvfail : Nat := 0x94
def mgState : Nat := 0x95
def mgRange : Nat := 0x96
def mgFormat : Nat := 0x97

/-- Does a management command run that another must wait for (R556). -/
def mgRuns (s : State) : Bool := s.reeve.store.isSome || s.reeve.update.any fun u => u.1.isSome

/-- A management command (R556, R557): it waits while another runs, and completes with CM_STATE while Reeve is frozen. -/
def mgmt (opc : Nat) (h : CmdHdr) (f : State → State) (s : State) : State :=
  if mgRuns s || reeveWaits s then s
  else hostCmd .device opc h (fun s => if s.reeve.frozen then completeSt s h opc cmState else f s) s

def modReeve (s : State) (f : Reeve → Reeve) : State := { s with reeve := f s.reeve }

/-! ### Settings (R561–R565) -/

/-- The newer valid bank (R564). -/
def newerSet (v : Reeve) : Option SetBank := rdPhiroState.newerBank v

/-- Is the newer valid bank B. -/
def newerIsB (v : Reeve) : Bool := newerSet v == some (setRead v.bankB) && (!(setRead v.bankA).valid || decide (newerSet v ≠ some (setRead v.bankA)))

/-- SET_WRITE's value of 48 bytes under Table 18-3: the bytes to stage, none where it is out of range. -/
def setValue (ty : Nat) (v : List Byte) : Option (List Byte) :=
  let v := slice v 0 48
  if ty = 1 then (if leAt v 4 1 ≤ 32 && (v.drop 5).all (· == 0) then some (v.take 5) else none)
  else if ty = 2 then (if leAt v 16 1 ≤ 128 && (v.drop 17).all (· == 0) then some (v.take 17) else none)
  else none

/-- SET_WRITE (R561). -/
def setWrite (h : CmdHdr) (ty : Nat) (v : List Byte) : State → State :=
  mgmt 0x61 h fun s => match setValue ty v with
    | none => completeSt s h 0x61 mgRange
    | some d => completeSt (modReeve s fun r => if ty = 1 then { r with stagedNet4 := some d } else { r with stagedNet6 := some d }) h 0x61 mgOk

/-- The record set that a STORE writes (R563). -/
def storeSet (s : State) (bs : BitVec 2) : SetBank :=
  let v := s.reeve
  let old := newerSet v
  let b := old.getD SetBank.empty
  { valid := true, seq := match old with | some o => (o.seq + 1) % 2 ^ 32 | none => 1
    net4 := v.stagedNet4.getD b.net4, net6 := v.stagedNet6.getD b.net6, kilnHours := s.kiln.hours, kilnEn := s.kiln.en,
    bootBs := if bs = 1 then s.phiro.image else if bs = 2 then [] else b.bootBs }

/-- MG_BUSY (Table 18-2): a STORE or an update from either path is in progress, or a bit-stream load is. -/
def mgIsBusy (s : State) : Bool := s.reeve.store.isSome || s.reeve.update.isSome || s.phiro.busy

/-- STORE (R563): it holds its ring until STORE_COMPLETE. The reserved BS is an operand out of range (log 27). -/
def storeCmd (h : CmdHdr) (bs : BitVec 2) : State → State :=
  mgmt 0x60 h fun s =>
    if bs = 3 then completeSt s h 0x60 cmRange
    else if mgIsBusy s then completeSt s h 0x60 mgBusy
    else if bs = 1 && !s.phiro.loaded then completeSt s h 0x60 mgState
    else modReeve (begin_ s h 0x60) fun v => { v with store := some (h, !newerIsB v, storeSet s bs) }

/-- The STORE ends (R565): the target bank becomes the newer, or MG_NVFAIL leaves everything as it was. -/
def storeEnd (s : State) (ok : Bool) : State :=
  match s.reeve.store with
  | none => s
  | some (h, toB, b) =>
    let s := modReeve s fun v => { v with store := none }
    match nvWrite s (if toB then 1 else 0) !ok with
    | (false, s) => completeSt s h 0x60 mgNvfail
    | (true, s) =>
      let s := modReeve s fun v =>
        { v with stagedNet4 := none, stagedNet6 := none, bankA := if toB then v.bankA else setBytes b, bankB := if toB then setBytes b else v.bankB }
      completeSt s h 0x60 mgOk

/-! ### Owner (R568–R570) -/

def sec60 : Nat := 60 * dtS

/-- The nonce that is valid now. -/
def nonceNow (s : State) : Option (List Byte) := match s.reeve.nonce with | some (b, t) => if s.dt ≤ t + sec60 then some b else none | none => none

/-- NONCE (R569). -/
def nonceCmd (h : CmdHdr) (hb off : Nat) : State → State :=
  mgmt 0x66 h fun s =>
    if !(hbuf s hb).valid || (hbuf s hb).len < off + 32 then completeSt s h 0x66 cmRange
    else if !bufCan s hb then s
    else
      let (b, s) := drawBytes s
      bufCmd (modReeve s fun v => { v with nonce := some (b, s.dt) }) h 0x66 hb off b { status := mgOk }

/-- The digest that an enrolment or withdrawal signs (Table 18-6); `tag` is "ENRL" or "WDRW" as its bytes read. -/
def ownerDigest (s : State) (nonce : List Byte) (tag : List Byte) : List Byte :=
  sha256 (nonce ++ bytesLE 8 Config.serial ++ bytesLE 4 s.reeve.ownerEnrols ++ tag)

def tagEnrl : List Byte := [0x45, 0x4E, 0x52, 0x4C]
def tagWdrw : List Byte := [0x57, 0x44, 0x52, 0x57]

/-- OWNER_ENROL (R570): a block that cannot be read fails its check. -/
def ownerEnrol (h : CmdHdr) (pa : Nat) : State → State :=
  mgmt 0x64 h fun s =>
    if s.reeve.owner.isSome then completeSt s h 0x64 mgState
    else match devRead s (lsCmd s h) pa 160 with
      | (none, s) => completeSt s h 0x64 mgAuth
      | (some b, s) =>
        let key := (natBE (slice b 0 32), natBE (slice b 32 32))
        match nonceNow s with
        | none => completeSt s h 0x64 mgAuth
        | some n =>
          if natLE (slice b 0x40 32) ≠ 0 || !ecVerify key (ownerDigest s n tagEnrl) (ecSigAt b 0x60) then completeSt s h 0x64 mgAuth
          else match nvWrite s 4 false with
            | (false, s) => completeSt s h 0x64 mgNvfail
            | (true, s) =>
              completeSt (modReeve s fun v => { v with owner := some key, ownerEnrols := (v.ownerEnrols + 1) % 2 ^ 32, nonce := none }) h 0x64 mgOk

/-- OWNER_WITHDRAW (R570). -/
def ownerWithdraw (h : CmdHdr) (pa : Nat) : State → State :=
  mgmt 0x65 h fun s =>
    match s.reeve.owner with
    | none => completeSt s h 0x65 mgState
    | some own =>
      match devRead s (lsCmd s h) pa 160 with
      | (none, s) => completeSt s h 0x65 mgAuth
      | (some b, s) =>
        let key := if leAt b 0x40 1 = 1 then some Config.vendorKey else if leAt b 0x40 1 = 2 then some own else none
        match key, nonceNow s with
        | some k, some n =>
          if natLE (slice b 0 64) ≠ 0 || natLE (slice b 0x41 31) ≠ 0 || !ecVerify k (ownerDigest s n tagWdrw) (ecSigAt b 0x60) then
            completeSt s h 0x65 mgAuth
          else match nvWrite s 4 false with
            | (false, s) => completeSt s h 0x65 mgNvfail
            | (true, s) => completeSt (modReeve s fun v => { v with owner := none, nonce := none }) h 0x65 mgOk
        | _, _ => completeSt s h 0x65 mgAuth

/-- The nonce ends 60 s after it was written; the event brings DT forward (log 2). -/
def nonceEnd (s : State) : State :=
  match s.reeve.nonce with
  | some (_, t) => modReeve (advanceTo s (t + sec60)) fun v => { v with nonce := none }
  | none => s

/-! ### Firmware (R571–R573) -/

/-- The bytes of a slot's image; the factory image is listed as none. -/
def FwSlot.bytes (f : FwSlot) : List Byte := if f.image.isEmpty && f.sigOk then Config.factoryFw else f.image

/-- The slot that is not running, and the running one. -/
def otherSlot (v : Reeve) : FwSlot := if v.runSlot then v.slotA else v.slotB
def ownSlot (v : Reeve) : FwSlot := if v.runSlot then v.slotB else v.slotA
def putOther (v : Reeve) (f : FwSlot) : Reeve := if v.runSlot then { v with slotA := f } else { v with slotB := f }
def otherArea (v : Reeve) : Nat := if v.runSlot then 2 else 3

/-- MG_FORMAT: the header or length of a firmware image is invalid. -/
def fwFormatBad (b : List Byte) : Bool :=
  b.length < 192 || 12 * 2 ^ 20 - 8 < b.length || leAt b 0 4 ≠ 0x57465652 || leAt b 4 2 ≠ 1 || leAt b 6 2 ≠ 0 || leAt b 8 4 ≠ b.length ||
    leAt b 0x14 44 ≠ 0

/-- The checks before an update writes: header, vendor signature, SVN. -/
def fwCheck (s : State) (b : List Byte) : Nat :=
  if fwFormatBad b then mgFormat
  else if leAt b (b.length - 128) 1 ≠ 1 || !imageSigned s b then mgAuth
  else if leAt b 0x10 4 < s.reeve.rollback then mgRollback
  else mgOk

/-- An update begins to write the slot that is not running. -/
def fwBegin (s : State) (cmd : Option CmdHdr) (b : List Byte) : State :=
  modReeve s fun v =>
    { v with upd := 1, updPath := if cmd.isSome then 1 else 2,
             update := some (cmd, { image := b, svn := leAt b 0x10 4, sigOk := true, seq := (otherSlot v).seq, active := false }) }

/-- FW_UPDATE (R571): it holds its ring until FW_WRITTEN_VERIFIED. -/
def fwUpdate (h : CmdHdr) (pa len : Nat) : State → State :=
  mgmt 0x67 h fun s =>
    if mgIsBusy s then completeSt s h 0x67 mgBusy
    else if pa % 8 ≠ 0 || 12 * 2 ^ 20 < len then completeSt s h 0x67 mgFormat
    else match devRead s (lsCmd s h) pa len with
      | (none, s) => completeSt s h 0x67 mgFormat
      | (some b, s) => let st := fwCheck s b; if st = mgOk then fwBegin (begin_ s h 0x67) (some h) b else completeSt s h 0x67 st

/-- The write ends with its read-back (R560, R571). -/
def fwWritten (s : State) (ok : Bool) : State :=
  match s.reeve.update with
  | none => s
  | some (cmd, f) =>
    let (good, s) := nvWrite s (otherArea s.reeve) !ok
    let s := modReeve s fun v =>
      if good then { putOther v f with upd := 2, update := none } else { v with upd := 0, updPath := 0, update := none }
    match cmd with
    | some h => completeSt s h 0x67 (if good then mgOk else mgNvfail)
    | none => s

/-- A candidate slot boots: its signature verifies and its SVN is not below ROLLBACK. -/
def slotBoots (v : Reeve) (b : Bool) : Bool := let f := if b then v.slotB else v.slotA; f.sigOk && v.rollback ≤ f.svn

/-- The order in which the ROM tries the slots: active ones, newest SEQ first, then the rest. -/
def slotOrder (v : Reeve) : List Bool :=
  let newer := if v.slotB.seq = (v.slotA.seq + 1) % 2 ^ 32 then true else if v.slotA.seq = (v.slotB.seq + 1) % 2 ^ 32 then false
    else decide (v.slotA.seq < v.slotB.seq)
  if v.slotA.active && v.slotB.active then [newer, !newer] else if v.slotB.active then [true, false] else [false, true]

/-- REEVE_BOOT (R573): measure and start the slot; with none, the recovery path (R574). -/
def reeveBoot (v : Reeve) : Reeve :=
  let v := { v with mRom := sha256 Config.bootRom }
  match (slotOrder v).find? (slotBoots v) with
  | some b =>
    let f := if b then v.slotB else v.slotA
    { v with runSlot := b, fwUp := true, recovery := false, mFw := sha256 f.bytes, upd := 0, updPath := 0, update := none }
  | none => { v with recovery := true, upd := 0, updPath := 0, update := none }

/-- Reeve boots; once the image runs it raises ROLLBACK to its SVN (R572), where that write succeeds (R560). -/
def reeveStart (s : State) : State :=
  let s := modReeve s reeveBoot
  if s.reeve.recovery || (ownSlot s.reeve).svn ≤ s.reeve.rollback then s
  else match nvWrite s areaId false with
    | (true, s) => modReeve s fun v => { v with rollback := (ownSlot v).svn }
    | (false, s) => s

/-- RESET of Reeve (R397, R573): the running slot is measured and starts again. What its firmware held outside MRAM and the settings in force is
gone: the nonce, the staged values and the sideband session; an MRAM write in progress goes on (DESIGN CHOICE, log 31). -/
def reeveRestart (v : Reeve) : Reeve :=
  { v with frozen := false, mFw := sha256 (ownSlot v).bytes, nonce := none, stagedNet4 := none, stagedNet6 := none, session := none, sbStep := 0 }

/-- Activate the verified slot (R572): the status; in recovery it boots at once (R574). -/
def fwActivate (s : State) : Nat × State :=
  if s.reeve.upd ≠ 2 then (mgState, s)
  else match nvWrite s (otherArea s.reeve) false with
    | (false, s) => (mgNvfail, s)
    | (true, s) =>
      let s := modReeve s fun v =>
        { putOther v { otherSlot v with seq := ((ownSlot v).seq + 1) % 2 ^ 32, active := true } with upd := 3 }
      (mgOk, if s.reeve.recovery then reeveStart s else s)

/-- FW_ACTIVATE. -/
def fwActivateCmd (h : CmdHdr) : State → State :=
  mgmt 0x68 h fun s => let (st, s) := fwActivate s; completeSt s h 0x68 st

/-! ### Sensors (R578) and the log (R579) -/

/-- The sensors of Table 18-8 in ascending ID. -/
def sensorIds : List Nat := List.range 32 ++ span 0x20 24 ++ span 0x40 3 ++ span 0x50 36 ++ span 0x80 36 ++ [0xB0]

/-- A sensor that has not been sampled. -/
def Sensor.unread : Sensor := { value := 0, state := 3, dt := 0 }

def sensorAt (s : State) (id : Nat) : Sensor := tget Sensor.unread s.power.sensors id

/-- TYPE of a sensor. -/
def sensorType (id : Nat) : Nat :=
  if id = 0x40 || (0x50 ≤ id && id < 0x80) then 1 else if id = 0x41 || (0x80 ≤ id && id < 0xB0) then 2 else if id = 0x42 then 3 else 0

/-- The 16 B record of a sensor. -/
def sensorRecord (s : State) (id : Nat) : List Byte :=
  let x := sensorAt s id
  bytesLE 2 id ++ bytesLE 1 (sensorType id) ++ bytesLE 1 x.state ++ bytesLE 4 (toBits 32 x.value) ++ bytesLE 8 x.dt

/-- The window of the log that a read returns: where it starts and how many records (R579). -/
def logSpan (v : Reeve) (first count : Nat) : Nat × Nat :=
  let a := max first (v.logNext - logMax)
  (a, min count (v.logNext - a))

/-- The records of a window. -/
def logBytes (v : Reeve) (a n : Nat) : List Byte := (span a n).flatMap fun k => (tget Record.none v.log (k % logMax)).bytes

/-- LOG_READ by a ring. -/
def logReadCmd (h : CmdHdr) (hb off first count : Nat) : State → State :=
  mgmt 0x69 h fun s =>
    if count = 0 || 4096 < count then completeSt s h 0x69 cmRange
    else
      let (a, n) := logSpan s.reeve first count
      bufCmd s h 0x69 hb off (logBytes s.reeve a n) { status := mgOk, detail := n, result := bytesLE 8 (a + n) }

/-! ### Attestation (R580–R582) -/

/-- The polder entry of a report. -/
def attestPolder (s : State) (p : Nat) : List Byte :=
  let c := core s p
  if named s p then
    bytesLE 1 (1 + 2 * b2n c.started) ++ bytesLE 3 0 ++ bytesLE 4 (polder s p).liveWrites ++ bytesLE 8 c.starts ++ slice c.mCoxel 0 32
  else bytesLE 16 0 ++ bytesLE 32 0

/-- M_BS. -/
def mBs (s : State) : List Byte := if s.phiro.loaded then sha256 s.phiro.image else bytesLE 32 0

/-- The bytes 0x000 to 0x57F of a report (Table 18-9). -/
def attestBody (s : State) (nonce : List Byte) : List Byte :=
  let v := s.reeve
  bytesLE 4 0x54535441 ++ bytesLE 2 1 ++ bytesLE 2 0 ++ bytesLE 8 Config.serial ++ slice nonce 0 32 ++ bytesLE 8 s.dt ++ bytesLE 4 v.insertCnt ++
    bytesLE 4 s.port.bindCount ++ bytesLE 4 (ownSlot v).svn ++ bytesLE 4 v.rollback ++ bytesLE 4 v.ownerEnrols ++
    bytesLE 4 s.phiro.loadCount ++ (match v.owner with | some k => sha256 (bytesBE 32 k.1 ++ bytesBE 32 k.2) | none => bytesLE 32 0) ++
    slice v.mRom 0 32 ++ slice v.mFw 0 32 ++ mBs s ++ bytesLE 48 0 ++ polderNums.flatMap (attestPolder s)

/-- ATTEST. -/
def attestCmd (h : CmdHdr) (hb off : Nat) (nonce : List Byte) : State → State :=
  mgmt 0x62 h fun s =>
    let b := attestBody s nonce
    let sig := Config.identitySign s.free (sha256 b)
    bufCmd { s with free := s.free + 1 } h 0x62 hb off (b ++ sigBytes sig) { status := mgOk }

/-- A measurement block (R580); none where the index names none. -/
def measureBlock (s : State) (nonce : List Byte) (i : Nat) : Option (List Byte) :=
  if i = 1 then some (slice s.reeve.mRom 0 32) else if i = 2 then some (slice s.reeve.mFw 0 32) else if i = 3 then some (mBs s)
  else if 4 ≤ i && i < 28 then some (slice (if named s (i - 4) then (core s (i - 4)).mCoxel else []) 0 32)
  else if i = 28 then some (slice (attestBody s nonce) 8 0xD8)
  else none

/-! ### The sideband (R575–R577) -/

/-- What a sideband request is to R574 and R577. -/
inductive SbKind where
  | control
  | sensor
  | update
  | spdm
  | other
  deriving DecidableEq, Repr

/-- Serve a sideband request: in recovery only MCTP control and the firmware update are answered (R574); while Reeve is frozen MG answers
control and sensor readings, and refuses the rest as busy (R577). Without input power nothing is driven (R617). -/
def sideband (k : SbKind) (f : State → State) (s : State) : State :=
  if s.power.input ≠ .on then s
  else if s.reeve.recovery then (if k == .control || k == .update then f s else s)
  else if s.reeve.frozen && !(k == .control || k == .sensor) then
    (if k == .spdm then send s (.spdmError true 3) else send s (.pldm 0 [4]))
  else f s

/-- MCTP Set Endpoint ID: the null and broadcast IDs are no endpoint's (log 28). -/
def setEid (s : State) (e : Byte) : State :=
  if e = 0 || e = 0xFF then send s (.mctp 1 [2]) else send (modReeve s fun v => { v with eid := e.toNat }) (.mctp 1 [0, 0, e])

/-- MCTP discovery: endpoint ID (2), UUID (3), version (4), message types (5); any other is the error response for an unsupported type. -/
def mctpQuery (s : State) (q : Nat) : State :=
  match q with
  | 2 => send s (.mctp 2 (0 :: bytesLE 1 s.reeve.eid))
  | 3 => send s (.mctp 3 (0 :: Config.mctpUuid))
  | 4 => send s (.mctp 4 [0])
  | 5 => send s (.mctp 5 [0, 1, 5, 6, 0x7F])
  | q => send s (.mctp q [5])

/-- PLDM base: GetTID (2), GetPLDMVersion (3), GetPLDMTypes (4), GetPLDMCommands (5). -/
def pldmQuery (s : State) (q : Nat) : State := if 2 ≤ q && q ≤ 5 then send s (.pldm q [0]) else send s (.pldm q [5])

/-- GetSensorReading (R578). -/
def sensorReply (s : State) (id : Nat) : State :=
  if sensorIds.contains id then send s (.pldm 0x11 (0 :: sensorRecord s id)) else send s (.pldm 0x11 [0x80])

/-- GET_MEASUREMENTS (R580). -/
def measureReply (s : State) (i : Nat) (nonce : List Byte) : State :=
  match measureBlock s nonce i with
  | some b => send s (.spdm true 0x60 b)
  | none => send s (.spdmError true 1)

/-- KEY_EXCHANGE (R575): a session, authenticated with the owner key where one is enrolled; it follows the steps of R500. -/
def keyExchange (s : State) (ownerAuth : Bool) : State :=
  if s.reeve.sbStep < 3 then send s (.spdmError true 4)
  else send (modReeve s fun v => { v with session := some (ownerAuth && v.owner.isSome) }) (.spdm true 0x64 [])

/-- FORCE_UNBIND (R576). -/
def forceUnbind (s : State) (secured : Bool) : State :=
  if secured && s.reeve.session.any fun o => o || s.reeve.owner.isNone then forcedUnbind (send s (.pldm 0x39 [0])) else send s (.pldm 0x39 [1])

/-- RequestUpdate to the transfer of the image (R571). -/
def requestUpdate (s : State) (b : List Byte) : State :=
  if s.reeve.update.isSome then send s (.pldm 0x10 [0x81])
  else
    let st := fwCheck s b
    if st = mgOk then send (fwBegin s none b) (.pldm 0x10 [0]) else send s (.pldm 0x10 (bytesLE 1 st))

/-- ActivateFirmware (R572). -/
def activateFw (s : State) : State := let (st, s) := fwActivate s; send s (.pldm 0x1A (if st = mgOk then [0] else bytesLE 1 st))

/-- LOG_READ as the vendor-defined message. -/
def logReply (s : State) (first count : Nat) : State :=
  if count = 0 || 4096 < count then send s (.mctp 0x7F (bytesLE 1 cmRange))
  else
    let (a, n) := logSpan s.reeve first count
    send s (.mctp 0x7F (bytesLE 1 mgOk ++ bytesLE 4 n ++ bytesLE 8 (a + n) ++ logBytes s.reeve a n))

/-! ### The commands -/

/-- STORE (R563). -/
def execStore (h : CmdHdr) (bs : BitVec 2) (s : State) : Result := done (storeCmd h bs s)

/-- STORE_COMPLETE (R565). -/
def execStoreComplete (ok : Bool) (s : State) : Result := done (storeEnd s ok)

/-- SET_WRITE (R561). -/
def execSetWrite (h : CmdHdr) (type : Nat) (value : List Byte) (s : State) : Result := done (setWrite h type value s)

/-- ATTEST (R580). -/
def execAttest (h : CmdHdr) (hbuf off : Nat) (nonce : List Byte) (s : State) : Result := done (attestCmd h hbuf off nonce s)

/-- ID_READ (R566). -/
def idRead (h : CmdHdr) (hb off : Nat) : State → State :=
  mgmt 0x63 h fun s => bufCmd s h 0x63 hb off Config.certChain { status := mgOk, detail := Config.certChain.length }

/-- ID_READ (R566). -/
def execIdRead (h : CmdHdr) (hbuf off : Nat) (s : State) : Result := done (idRead h hbuf off s)

/-- OWNER_ENROL (R570). -/
def execOwnerEnrol (h : CmdHdr) (pa : Nat) (s : State) : Result := done (ownerEnrol h pa s)

/-- OWNER_WITHDRAW (R570). -/
def execOwnerWithdraw (h : CmdHdr) (pa : Nat) (s : State) : Result := done (ownerWithdraw h pa s)

/-- NONCE (R569). -/
def execNonce (h : CmdHdr) (hbuf off : Nat) (s : State) : Result := done (nonceCmd h hbuf off s)

/-- NONCE_EXPIRY (R569). -/
def execNonceExpiry (s : State) : Result := done (nonceEnd s)

/-- FW_UPDATE (R571). -/
def execFwUpdate (h : CmdHdr) (pa len : Nat) (s : State) : Result := done (fwUpdate h pa len s)

/-- FW_WRITTEN_VERIFIED (R571). -/
def execFwWrittenVerified (ok : Bool) (s : State) : Result := done (fwWritten s ok)

/-- FW_ACTIVATE (R572). -/
def execFwActivate (h : CmdHdr) (s : State) : Result := done (fwActivateCmd h s)

/-- LOG_READ (R579). -/
def execLogRead (path : LogPath) (hbuf off first count : Nat) (s : State) : Result :=
  done (match path with
    | .host h => logReadCmd h hbuf off first count s
    | .sideband => sideband .other (fun s => logReply s first count) s)

/-- SENSOR_READ (R578). -/
def sensorRead (h : CmdHdr) (hb off : Nat) : State → State :=
  mgmt 0x6A h fun s => bufCmd s h 0x6A hb off (sensorIds.flatMap (sensorRecord s)) { status := mgOk, detail := sensorIds.length }

/-- SENSOR_READ (R578). -/
def execSensorRead (h : CmdHdr) (hbuf off : Nat) (s : State) : Result := done (sensorRead h hbuf off s)

/-- GET_MEASUREMENTS (R580). -/
def execGetMeasurements (index : Nat) (nonce : List Byte) (s : State) : Result := done (sideband .spdm (fun s => measureReply s index nonce) s)

/-- KEY_EXCHANGE (R575). -/
def execKeyExchange (ownerAuth : Bool) (s : State) : Result := done (sideband .spdm (fun s => keyExchange s ownerAuth) s)

/-- SET_ENDPOINT_ID (R575). -/
def execSetEndpointId (eid : Byte) (s : State) : Result := done (sideband .control (fun s => setEid s eid) s)

/-- MCTP_DISCOVERY (R575). -/
def execMctpDiscovery (query : Nat) (s : State) : Result := done (sideband .control (fun s => mctpQuery s query) s)

/-- PLDM_BASE (R575). -/
def execPldmBase (query : Nat) (s : State) : Result := done (sideband .other (fun s => pldmQuery s query) s)

/-- GET_SENSOR_READING (R578). -/
def execGetSensorReading (id : Nat) (s : State) : Result := done (sideband .sensor (fun s => sensorReply s id) s)

/-- FORCE_UNBIND (R576). -/
def execForceUnbind (secured : Bool) (s : State) : Result := done (sideband .other (fun s => forceUnbind s secured) s)

/-- REQUEST_UPDATE (R571). -/
def execRequestUpdate (image : List Byte) (s : State) : Result := done (sideband .update (fun s => requestUpdate s image) s)

/-- ACTIVATE_FIRMWARE (R572). -/
def execActivateFirmware (s : State) : Result := done (sideband .update activateFw s)

end Sys2Proof.Machine
end

