-- ==== Sys2Proof/Machine/XlatCmds.lean ====
section
/-! DEFINITION. Translation's own events and commands (chapter 13): walks at the local walkers and the CTU (R439–R452), invalidation
(R454–R458) and the resume of a not-present fault (R446–R448). -/

namespace Sys2Proof.Machine

/-! ### Invalidation (R454–R458) -/

/-- The operands of XLT_INV. -/
structure InvScope where
  scope : Nat
  asid : Nat
  va : Nat
  len : Nat
  deriving DecidableEq, Repr

/-- XL_RANGE (R454). -/
def InvScope.bad (v : InvScope) : Bool :=
  2 < v.scope || (v.scope = 2 && (v.len = 0 || 2 ^ 48 < v.va + v.len || v.va % 65536 ≠ 0 || v.len % 65536 ≠ 0))

/-- Is a cached translation of the polder in scope. -/
def InvScope.covers (v : InvScope) (t : Tlb) : Bool :=
  let b := t.page * 2 ^ pageShift t.level
  v.scope = 0 || (t.asid == v.asid && (v.scope = 1 || (b < v.va + v.len && v.va < b + 2 ^ pageShift t.level)))

/-- Does the scope cover a page that an admitted recipe holds (R457): its pages lie in the polder space, ASID 0. -/
def InvScope.holds (v : InvScope) (po : Polder) : Bool :=
  po.slots.any fun e => e.2.held.any fun g =>
    v.scope = 0 || (v.asid = 0 && (v.scope = 1 || (g.1 < v.va + v.len && v.va < g.1 + g.2)))

/-- The opcode of XLT_INV. -/
def opXltInv : Nat := 0x38

/-- XLT_INV (R454, R455): an applied one sets XLT_GEN, drops what is in scope, empties the members' walk caches, and holds its ring until
XLT_INV_COMPLETE. Walks in flight read the table when they complete, so they start over by themselves. -/
def xltInv (h : CmdHdr) (v : InvScope) (force : Bool) (gen : Nat) : State → State :=
  hostCmd .polder opXltInv h fun s =>
    let po := polder s h.pol
    let g := gen % 2 ^ 32
    if v.bad then completeSt s h opXltInv xlRange
    else if !force && g ≠ (po.xltGen + 1) % 2 ^ 32 then
      (if g = po.xltGen then completeSt s h opXltInv xlDup else complete s h opXltInv { status := xlGenGap, detail := po.xltGen })
    else
      let s := begin_ (setPolder s h.pol { po with xltGen := g }) h opXltInv
      let s := dropWalks (dropXlat s h.pol v.covers) h.pol
      let l := tget [] s.xlat.invals h.pol ++ [{ cmd := h, held := v.holds po }]
      { s with xlat := { s.xlat with invals := tset [] s.xlat.invals h.pol l } }

/-- Does a transaction of a polder hold a tag (R456). -/
def polderTags (s : State) (p : Nat) : Bool :=
  s.fabric.owners.any fun o => o.2.tags.any fun t => match t.req with
    | .descriptor q _ | .descUpdate q _ | .core q | .coreAtomic q | .vector q _ | .walker q => q == p
    | _ => false

/-- The oldest invalidation of a polder completes once no transaction of the polder is outstanding, the stores that the lead core has buffered
under the old entries among them, which leave first (R456; the rest holds since it was performed). -/
def xltInvComplete (s : State) (p : Nat) : State :=
  match tget [] s.xlat.invals p with
  | [] => s
  | v :: rest =>
    if polderTags s p || (mayDrain s p 8).isSome then s
    else
      let s := if named s p then drainAll s p else s
      complete { s with xlat := { s.xlat with invals := tset [] s.xlat.invals p rest } } v.cmd opXltInv
        { status := xlOk, flags := 2 * b2n v.held }

/-! ### Resume (R446–R448) -/

/-- XLT_RESUME as a command. -/
def xltResumeCmd (h : CmdHdr) (fid : Nat) (fail : Bool) : State → State :=
  quickCmd .polder 0x39 h fun s =>
    let (st, s) := if fail then xltResumeFail s h.pol fid else xltResume s h.pol fid
    ({ status := st }, s)

/-! ### The commands -/

/-- LOCAL_WALK (R439). -/
def execLocalWalk (q : XlatReq) (s : State) : Result := done (if reqValid s q then localWalk s q else s)

/-- CTU_WALK (R436). -/
def execCtuWalk (q : XlatReq) (s : State) : Result := done (if reqValid s q then ctuWalk s q else s)

/-- WALK_COMPLETE (R442). -/
def execWalkComplete (walker : Nat) (s : State) : Result := done (walkComplete s walker)

/-- XLT_INV (R455). -/
def execXltInv (h : CmdHdr) (scope : Nat) (force : Bool) (asid gen va len : Nat) (s : State) : Result :=
  done (xltInv h { scope := scope, asid := asid, va := va, len := len } force gen s)

/-- XLT_INV_COMPLETE (R456). -/
def execXltInvComplete (p : Nat) (s : State) : Result := done (xltInvComplete s p)

/-- XLT_RESUME (R446). -/
def execXltResume (h : CmdHdr) (fid : Nat) (s : State) : Result := done (xltResumeCmd h fid false s)

/-- XLT_RESUME_FAIL (R448). -/
def execXltResumeFail (h : CmdHdr) (fid : Nat) (s : State) : Result := done (xltResumeCmd h fid true s)

end Sys2Proof.Machine
end

