-- ==== Sys2Proof/Machine/HostCmds.lean ====
section
/-! DEFINITION. The ring commands that no other file holds (Table 15-4): NOP, REGW, UPDATE (R513), UNFREEZE (R397, R398), Breach requests,
core starts and interrupts, UNBIND (R504), and commands that are undefined (R511). -/

namespace Sys2Proof.Machine

/-! ### UPDATE (R513) -/

/-- The translation request of UPDATE: class 4, made at NW. -/
def updXlat (h : CmdHdr) (va : Nat) : XlatReq :=
  { cd := 24, p := h.pol, space := 0, asid := 0, va := va, access := 3, user := false, req := .ring h.ring, cls := 4 }

/-- Where an UPDATE acts, or the command's end: a permission fault is a violation of the ring with DETAIL 4 (R511), any other failure of
translation CM_XLT, a failed walk read CM_MEM with its record (R452). -/
def updPlaceCmd (s : State) (h : CmdHdr) (addr : Nat) : Option Nat × State :=
  if h.pol = 0xFF then (if physOpen s addr 1 then (some addr, s) else (none, completeSt s h 0x30 cmRange))
  else match ctuTranslate s (updXlat h addr) with
    | (.ok pa, s) => (some pa, s)
    | (.perm, s) => (none, violateRingAt s h 0x30 4 vCommand addr)
    | (.failed pa, s) =>
      let r := walkRec s (lsCmd s h) 1 pa
      (none, complete (detect s r false) h 0x30 { status := cmMem, detail := if reach s 24 (homeDie pa) pa then 3 else 2 })
    | (_, s) => (none, completeSt s h 0x30 cmXlt)

/-- UPDATE (R251, R513); its ring waits in line where NW has no tag for it (R480). -/
def updateCmd (h : CmdHdr) (addr op fmt : Nat) (x c : Word) : State → State :=
  hostCmd .either 0x30 h fun s =>
    if !opValid op fmt || addr % opSize fmt ≠ 0 || 2 ^ 48 ≤ addr then completeSt s h 0x30 cmRange
    else match updPlaceCmd s h addr with
      | (none, s) => s
      | (some pa, s) =>
        if imageHit s [(pa, opSize fmt)] then completeSt s h 0x30 cmRange
        else if !tagFor s 24 (.ring h.ring) then
          addWaiter s 24 { kind := 2, dest := homeDie pa, addr := pa, ls := lsCmd s h, req := .ring h.ring, first := false, granted := false }
        else
          let s := dropWaiter s 24 (· == .ring h.ring)
          let m : MemCtx := { src := 24, ls := lsCmd s h, cls := none, p := h.pol, req := .ring h.ring }
          let lim := 2 ^ (8 * opSize fmt)
          match updateAtom s m pa op fmt [x.toNat % lim] (c.toNat % lim) with
          | (.ok r, s) =>
            complete s h 0x30 { status := cmOk, result := (if op = 3 || op = 4 then bytesLE 8 (r.old.headD 0) else bytesLE 8 0) ++ bytesLE 1 r.fl }
          | (.error (.uncorr cw), s) =>
            complete (detect s (uncorrRec s m 1 cw) false) h 0x30 { status := cmMem, detail := if reach s 24 (homeDie cw) cw then 3 else 2 }
          | (.error .lost, s) =>
            let (v, s) := drawFree s
            complete s h 0x30 { status := cmMem, detail := v.toNat % 2 ^ 32 }

/-! ### UNFREEZE (R397, R398) -/

def fzOk : Nat := 0x60
def fzNotFrozen : Nat := 0x61
def fzAction : Nat := 0x62
def fzBusy : Nat := 0x63

/-- The masters of Table 11-15, as MASTER numbers them (Table 11-16). -/
inductive Master where
  | core
  | queue (q : Nat)
  | mover (r : Nat)
  | ring (r : Nat)
  | reeve
  | none
  deriving DecidableEq, Repr

/-- The master that a command names: those of a polder under its number, rings and Reeve under device scope. -/
def masterNamed (h : CmdHdr) (m : Nat) : Master :=
  let i := m % 4096
  if h.pol = 0xFF then (if m / 4096 = 3 then .ring i else if m = 0x4000 then .reeve else .none)
  else if m = 0 then .core else if m / 4096 = 1 then .queue i else if m / 4096 = 2 then .mover i else .none

/-- Is it frozen. -/
def isFrozen (s : State) (p : Nat) : Master → Bool
  | .core => (polder s p).frzCore.isSome
  | .queue q => (polder s p).frzQueue.contains q
  | .mover r => (polder s p).frzMover.contains r
  | .ring r => (ring s r).frozen
  | .reeve => s.reeve.frozen
  | .none => false

/-- Transactions of descriptors that a test on index and issuing die selects. -/
def descTagsOf (s : State) (p : Nat) (q : Nat → Nat → Bool) : Bool :=
  s.fabric.owners.any fun o => o.2.tags.any fun t => match t.req with
    | .descriptor p' i | .descUpdate p' i => p' == p && q i t.src
    | _ => false

/-- The queue of a descriptor of the running invocation; none once it no longer runs. -/
def queueNow (s : State) (p i : Nat) : Option Nat := (running s p).map fun r => queueOf (dKind (descAt s r.2 i))

/-- Has a frozen master transactions in flight (FZ_BUSY). -/
def masterBusy (s : State) (p : Nat) : Master → Bool
  | .core => coreTags s p
  | .queue q => descTagsOf s p fun i _ => (queueNow s p i).getD q == q
  | .mover r => descTagsOf s p fun i src => (queueNow s p i).getD 2 == 2 && src == cdOfRank s p r
  | .ring r => ringTags s r
  | .reeve => tagsOut s (· == .reeve)
  | .none => false

/-- DELIVER: cause 6 with EPC at PC (R397, Table 11-2). -/
def deliverCore (s : State) (p : Nat) : State :=
  match (polder s p).frzCore with
  | none => s
  | some f =>
    let s := modPolder s p fun po => { po with frzCore := none }
    enter s p { cause := cViol, epc := f.pc, addr := f.addr, inst := f.inst, code := f.vcode % 32, half2 := f.half2, word := f.inst }

/-- A queue or mover is reset: the descriptors of the running invocation that a test on their queue selects are discarded (R397): they end where
they were in execution, and their waits with them. -/
def discardQueue (s : State) (p : Nat) (q : Nat) : State :=
  match running s p with
  | none => s
  | some (inv, rc) =>
    let is := (inv.descs.filter fun e => queueOf (dKind (descAt s rc e.1)) == q && e.2 ≠ .complete).map (·.1)
    is.foldl (fun s i => setDesc (dropWaiterAll (dropWaiters (dropDescReqs s p i) p fun x => isDesc p i x.req) (isDesc p i)) p i .failed) s

/-- Release a master by an action: 0 RESUME, 1 DELIVER, 2 RESET. -/
def releaseMaster (s : State) (p act : Nat) : Master → State
  | .core => if act = 0 then modPolder s p fun po => { po with frzCore := none } else if act = 1 then deliverCore s p else coreReset s p
  | .queue q => modPolder (discardQueue s p q) p fun po => { po with frzQueue := po.frzQueue.filter (· ≠ q) }
  | .mover r => modPolder (discardQueue s p 2) p fun po => { po with frzMover := po.frzMover.filter (· ≠ r) }
  | .ring r => modRing s r fun k => { k with frozen := false, atCmd := false, head := if act ≠ 0 then k.tail else if k.atCmd then (k.head + 1) % 2 ^ 16 else k.head }
  | .reeve => modReeve s fun v => if act = 2 then reeveRestart v else { v with frozen := false }
  | .none => s

/-- Is an action listed for a master (Table 11-15). -/
def actionOk (s : State) (p act : Nat) : Master → Bool
  | .core => act = 2 || (act ≤ 1 && (polder s p).frzCore.any fun f => f.vcode ≠ vBreachFault)
  | .queue _ => act = 2
  | .mover _ => act = 2
  | .ring _ => act = 0 || act = 2
  | .reeve => act = 0 || act = 2
  | .none => false

/-- UNFREEZE (R398). -/
def unfreeze (h : CmdHdr) (m act : Nat) : State → State :=
  quickCmd .either 0x40 h fun s =>
    let k := masterNamed h m
    if !isFrozen s h.pol k then ({ status := fzNotFrozen }, s)
    else if !actionOk s h.pol act k then ({ status := fzAction }, s)
    else if masterBusy s h.pol k then ({ status := fzBusy }, s)
    else ({ status := fzOk }, releaseMaster s h.pol act k)

/-! ### The core and the binding -/

/-- CORE_START (R328, R581). -/
def coreStart (h : CmdHdr) (addr : Nat) : State → State :=
  quickCmd .polder 0x42 h fun s =>
    let c := core s h.pol
    if c.started then ({ status := cmState }, s)
    else if addr % 4 ≠ 0 || 2 ^ 48 ≤ addr then ({ status := cmRange }, s)
    else
      ({ status := cmOk }, setCore s h.pol
        { c with started := true, pc := addr, starts := c.starts + 1, mCoxel := sha256 (mgetN c.entrySram 0 16384 ++ bytesLE 8 addr) })

/-- BREACH_REQ (R390). -/
def breachReqCmd (h : CmdHdr) : State → State :=
  quickCmd .polder 0x41 h fun s => ({ status := cmOk }, modCore s h.pol fun c => { c with breachReq := true })

/-- CORE_INT: source 1 (Table 11-6). -/
def coreIntCmd (h : CmdHdr) : State → State := quickCmd .polder 0x43 h fun s => ({ status := cmOk }, setInt s h.pol 1)

/-- UNBIND (R504): refused while a polder runs; else its entry is written and the binding ends. -/
def unbindCmd (h : CmdHdr) : State → State :=
  hostCmd .device 0x50 h fun s =>
    if polderNums.any fun p => named s p && polderRuns s p then completeSt s h 0x50 cmState
    else endBinding (cplDeliver (completeSt s h 0x50 cmOk) h.ring)

/-- A reset that a REGW of a ring has just asked for notes the ring and the DT (R606). -/
def noteAsk (s t : State) (ring : Nat) : State :=
  if t.power.rstReq = s.power.rstReq then t else { t with power := { t.power with rstAsk := some (ring, t.dt) } }

/-- REGW (R512): the I/O status is its completion status. -/
def regwCmd (h : CmdHdr) (off : Nat) (v : Word) : State → State :=
  quickCmd .device 0x02 h fun s => let (st, t) := winWrite s off v.toNat; ({ status := st }, noteAsk s t h.ring)

/-- NOP (R512). -/
def nopCmd (h : CmdHdr) : State → State := quickCmd .device 0x01 h fun s => ({ status := cmOk }, s)

/-- The opcodes of Tables 15-4 and 18-1. -/
def opcDefined (o : Nat) : Bool :=
  [0x01, 0x02, 0x10, 0x11, 0x12, 0x20, 0x21, 0x22, 0x23, 0x24, 0x25, 0x26, 0x30, 0x38, 0x39, 0x40, 0x41, 0x42, 0x43, 0x50].contains o ||
    (0x60 ≤ o && o ≤ 0x6A)

/-- A command whose opcode is undefined (DETAIL 1), or with a reserved byte that is not zero (DETAIL 2) (R511). -/
def undefinedCmd (h : CmdHdr) (opc : Nat) (reserved : Bool) (s : State) : State :=
  if !ringReady s h.ring then s
  else if !opcDefined opc then violateRing s h opc 1
  else if reserved then violateRing s h opc 2
  else s

/-! ### The commands -/

/-- NOP (R512). -/
def execNop (h : CmdHdr) (s : State) : Result := done (nopCmd h s)

/-- REGW (R512). -/
def execRegw (h : CmdHdr) (off : Nat) (value : Word) (s : State) : Result := done (regwCmd h off value s)

/-- UPDATE (R513). -/
def execUpdate (h : CmdHdr) (addr op fmt : Nat) (x c : Word) (s : State) : Result := done (updateCmd h addr op fmt x c s)

/-- UNFREEZE_RESUME (R397). -/
def execUnfreezeResume (h : CmdHdr) (master : BitVec 16) (s : State) : Result := done (unfreeze h master.toNat 0 s)

/-- UNFREEZE_DELIVER (R397). -/
def execUnfreezeDeliver (h : CmdHdr) (master : BitVec 16) (s : State) : Result := done (unfreeze h master.toNat 1 s)

/-- UNFREEZE_RESET (R397). -/
def execUnfreezeReset (h : CmdHdr) (master : BitVec 16) (s : State) : Result := done (unfreeze h master.toNat 2 s)

/-- BREACH_REQ (R390). -/
def execBreachReq (h : CmdHdr) (s : State) : Result := done (breachReqCmd h s)

/-- CORE_START (R328). -/
def execCoreStart (h : CmdHdr) (addr : Nat) (s : State) : Result := done (coreStart h addr s)

/-- CORE_INT (R380). -/
def execCoreInt (h : CmdHdr) (s : State) : Result := done (coreIntCmd h s)

/-- UNBIND (R504). -/
def execUnbind (h : CmdHdr) (s : State) : Result := done (unbindCmd h s)

/-- UNDEFINED_COMMAND (R511). -/
def execUndefinedCommand (h : CmdHdr) (opc : Nat) (reserved : Bool) (s : State) : Result := done (undefinedCmd h opc reserved s)

end Sys2Proof.Machine
end

