-- ==== Sys2Proof/Machine/Port.lean ====
section
/-! DEFINITION. The host port (chapter 15): Ethernet (R487–R491), connections (R492, R496), RDMA (R493–R495), congestion (R497, R498),
doorbells (R507, R508), SPDM (R500, R566) and binding (R499–R503), the coalescing of records (R535) and pending errors (R538). -/

namespace Sys2Proof.Machine

/-! ### The link -/

/-- Does the port receive frames now: its link is up and RST_N is not held low (R613). -/
def portUp (s : State) : Bool := s.port.link == 2 && !s.power.rstLow

def modPort (s : State) (f : Port → Port) : State := { s with port := f s.port }

/-- A frame or a doorbell is discarded and counted. -/
def discard (s : State) : State := modPort s fun o => { o with discard := satInc o.discard 0xFFFF }

/-- A frame or request refused under R503. -/
def refuse (s : State) : State := modPort s fun o => { o with refused := satInc o.refused 0xFFFF }

def bound (s : State) : Bool := s.port.bindState == 2

/-- Does an address other than the bound host's send (R503). -/
def foreign (s : State) (a : HostAddr) : Bool := bound s && s.port.host ≠ some a

/-- The modes in the order of Table 15-1, or the one mode of a fixed SPEED (R488). -/
def portModes (s : State) : List Nat := if s.phiro.eth.speed = 0 then [1, 3, 2, 5, 4] else [s.phiro.eth.speed]

/-- The lanes of a mode, from lane 0 up (R612, Table 15-1). -/
def modeLanes (m : Nat) : Nat := if m = 1 || m = 2 then 8 else if m = 3 || m = 4 then 4 else if m = 5 then 2 else 0

/-- The mode that runs, or the one that is tried. -/
def lanesMode (s : State) : Nat :=
  if s.port.link = 2 then s.port.mode else if s.port.link = 1 then (portModes s).getD (s.port.tryMode % (portModes s).length) 0 else 0

/-- What the port does with a lane: transmits or holds its transmitter idle, the lane whose data it carries each way, and the polarity that each
way inverts. -/
structure LaneUse where
  idle : Bool
  data : Nat
  txInverted : Bool
  rxInverted : Bool
  deriving DecidableEq, Repr

/-- The use of lane `l` (R612): lanes beyond the mode's are idle, none is swapped, transmit polarity is never inverted, receive polarity where
training found it inverted. -/
def portLane (s : State) (l : Nat) : LaneUse :=
  { idle := modeLanes (lanesMode s) ≤ l, data := l, txInverted := false, rxInverted := s.port.rxPol.getLsbD l }

/-- The port runs a mode: its lanes of `inverted` have their polarity corrected (R612). -/
def portTrained (s : State) (m : Nat) (inverted : Byte) : State :=
  modPort s fun o => { o with link := 2, mode := m, tryMode := 0, rxPol := inverted &&& BitVec.ofNat 8 (2 ^ modeLanes m - 1) }

/-- One training attempt (R488): the next mode trains, or 500 ms pass and the one after
it is next. Training begins with boot step 6. -/
def trainAttempt (s : State) (trained : Bool) (inverted : Byte) : State :=
  if s.port.link = 2 || s.power.input ≠ .on || s.power.rstLow || s.reeve.recovery || s.power.bootStep < 5 then s
  else
    let ms := portModes s
    if trained then
      let s := portTrained s (ms.getD (s.port.tryMode % ms.length) 0) inverted
      if s.power.bootStep = 5 then { s with power := { s.power with bootStep := 6 } } else s
    else
      let s := advanceTo s (s.dt + 500 * dtMs)
      let s := if s.power.bootStep = 5 then { s with power := { s.power with bootMs := min (s.power.bootMs + 500) 0xFFFFFFFF } } else s
      modPort s fun o => { o with link := 1, tryMode := (o.tryMode + 1) % ms.length }

/-- The link drops (R488): connections survive. -/
def portDown (s : State) : State :=
  if s.port.link = 2 then modPort s fun o => { o with link := 0, mode := 0, tryMode := 0, rxPol := 0 } else s

/-- The port's IPv4 address, none where the prefix length is 0 (Table 18-3). -/
def ip4 (s : State) : Option Nat := if leAt s.reeve.net4 4 1 = 0 then none else some (leAt s.reeve.net4 0 4)

/-- The port's IPv6 global address, its first byte the highest. -/
def ip6 (s : State) : Option Nat := if leAt s.reeve.net6 16 1 = 0 then none else some (natBE (slice s.reeve.net6 0 16))

/-- The IPv6 link-local address formed from the MAC address (R490; the modified EUI-64 form, log 29). -/
def linkLocal : Nat :=
  let m := Config.macAddress % 2 ^ 48
  0xFE80 <<< 112 + ((m / 2 ^ 24 ^^^ 0x020000) <<< 40 + 0xFFFE <<< 24 + m % 2 ^ 24)

/-- ARP: answered for the port's own IPv4 address, else discarded. -/
def arpRx (s : State) (ip : Nat) : State := if !portUp s then s else if ip4 s == some ip then send s .arp else discard s

/-- IPv6 neighbour discovery: answered for the port's own addresses, else discarded. -/
def ndRx (s : State) (ip : Nat) : State :=
  if !portUp s then s else if ip6 s == some ip || ip == linkLocal then send s .ndp else discard s

/-- ICMP echo, answered from the bound host alone. -/
def echoRx (s : State) (a : HostAddr) (d : List Byte) : State :=
  if !portUp s then s else if bound s && s.port.host = some a then send s (.echo d) else discard s

/-! ### Congestion (R497, R498) -/

/-- A packet marked CE on a connection: one CNP at most every 50 µs. -/
def ceRx (s : State) (c : Nat) : State :=
  let k := conn s c
  if connUp s c && (k.lastCnpTx.all fun t => t + 50 * dtUs ≤ s.dt) then send (modConn s c fun k => { k with lastCnpTx := some s.dt }) (.cnp c) else s

/-- A CNP: the rate falls to 3/4, at least 1 % of the port rate. -/
def cnpRx (s : State) (c : Nat) : State :=
  if portUp s && connUp s c then
    let s := modPort s fun o => { o with cnpRx := satInc o.cnpRx 0xFFFF }
    modConn s c fun k => { k with rate := max (k.rate * (3 / 4)) (1 / 100), lastCnpRx := s.dt }
  else s

/-- 20 µs without a CNP have passed: the rate rises by 1 % of the port rate. -/
def rateUp (s : State) (c : Nat) : State :=
  if connUp s c && (conn s c).rate < 1 then
    let s := advanceTo s ((conn s c).lastCnpRx + 20 * dtUs)
    modConn s c fun k => { k with rate := min (k.rate + 1 / 100) 1, lastCnpRx := s.dt }
  else s

/-- A PFC frame: obeyed on the priorities of PFC_PRIO, or discarded. -/
def pfcRx (s : State) (prios pause : Byte) : State :=
  if !portUp s then s
  else if !s.phiro.eth.pfcEn then discard s
  else
    let m := prios &&& s.phiro.eth.pfcPrio
    modPort s fun o => { o with pfcPaused := (o.pfcPaused &&& ~~~m) ||| (pause &&& m) }

/-- The weirs of a priority's 8 MiB receive buffer. -/
def pfcUpper : Nat := 6 * 2 ^ 20
def pfcLower : Nat := 4 * 2 ^ 20

/-- A priority's receive buffer holds `n` bytes. -/
def pfcLevel (s : State) (prio n : Nat) : State :=
  if !portUp s || 8 ≤ prio || 8 * 2 ^ 20 < n then s
  else
    let s := modPort s fun o => { o with pfcBytes := tset 0 o.pfcBytes prio n }
    let on := s.phiro.eth.pfcEn && s.phiro.eth.pfcPrio.getLsbD prio
    let ask := s.port.pfcAsk.getLsbD prio
    if on && !ask && pfcUpper < n then send (modPort s fun o => { o with pfcAsk := setBitV o.pfcAsk prio }) (.pfc prio true)
    else if on && ask && n < pfcLower then
      send (modPort s fun o => { o with pfcAsk := o.pfcAsk &&& ~~~(setBitV (0 : Byte) prio) }) (.pfc prio false)
    else s

/-! ### Connections (R492, R496) -/

/-- Does a descriptor of the running invocation write token records: a VSAMPLE of MODE 2 (R519, R526). -/
def isToken (s : State) (p i : Nat) : Bool :=
  match (polder s p).run with
  | some inv => ((recipeAt s p inv.req.slot).map fun rc => dKind (descAt s rc i) == 0x13 && dArg0 (descAt s rc i) % 4 == 2).getD false
  | none => false

/-- The record of a transaction that ended without its response (R485, Table 14-8). -/
def txRec (s : State) (t : TagEntry) (cls link status : Nat) : Record :=
  mkRec s t.ls 0x23 cls t.src 0
    (fabBytes { link := link, status := status, tag := t.num + t.gen <<< 18 + t.kind <<< 24, dest := t.dest, addr := t.addr, deadline := t.deadline })

/-- A write that was unacknowledged when its connection left service: a descriptor's ends the invocation, every other waits for the
connection, a token record as a write of the event queue. -/
def writeLost (s : State) (t : TagEntry) : State :=
  let s := releaseTag s 24 t.num
  let keep := fun (t : TagEntry) => modPort s fun o => { o with resend := o.resend ++ [t] }
  match t.req with
  | .descriptor p i => if isToken s p i then keep t else detectInv s p (txRec s t 1 0xFFFF 2)
  | _ => keep t

/-- A connection leaves service; while the device is not bound the attempt to bind on it ends. -/
def connOut (s : State) (c : Nat) : State :=
  let lost := (owner s 24).tags.filter fun t => t.host.any fun x => x.1 == c
  let s := dropWaiter (modConn s c fun _ => Conn.closed) 24 fun q => q == .hostRead c || q == .hostWrite c
  let s := lost.foldl writeLost s
  if c = 0 && !bound s then modPort s fun o => { o with bindState := 0, bindStep := 0, bindPeer := none, bindNonce := [] } else s

/-- A NAK; Invalid Request and Remote Access Error take the connection out of service. -/
def nak (s : State) (c code : Nat) : State :=
  let s := send s (.nak c code)
  if code = nakOp then s else connOut s c

def cmRep : Nat := 0
def cmRej : Nat := 1
def cmDrep : Nat := 2

/-- The bytes of an IPv4 RoCEv2 packet around its payload, which the Ethernet MTU must hold too (log 29): IP 20, UDP 8, BTH 12, RETH 16,
immediate 4, ICRC 4. -/
def roceBytes : Nat := 64

/-- Does a request draw REJ (Table 15-2, R499). -/
def reqRefused (s : State) (q : ConnReq) : Bool :=
  q.service ≠ 0 || 63 < q.index || (conn s q.index).open_ || q.pathMtu < 256 || 4096 < q.pathMtu || s.phiro.eth.mtu < q.pathMtu + roceBytes ||
    (!bound s && q.index ≠ 0)

/-- A connection request on QP1. -/
def cmReq (s : State) (q : ConnReq) : State :=
  if !portUp s then s
  else if foreign s q.from_ then send (refuse s) (.cm cmRej q.index)
  else if reqRefused s q then send s (.cm cmRej q.index)
  else
    let k : Conn :=
      { open_ := true, up := false, peer := q.from_, pathMtu := q.pathMtu, dscp := q.dscp, prio := q.prio, retry := q.retry,
        ackTimeout := q.ackTimeout, rate := 1, lastCnpTx := none, lastCnpRx := 0, ops := [] }
    let s := send (modConn s q.index fun _ => k) (.cm cmRep q.index)
    if bound s then s else modPort s fun o => { o with bindDt := s.dt, bindPeer := some q.from_, bindStep := 0, bindNonce := [] }

/-- An RTU from the connection's peer. -/
def cmRtu (s : State) (c : Nat) (a : HostAddr) : State :=
  if !portUp s then s
  else if foreign s a then refuse s
  else if (conn s c).open_ && (conn s c).peer = a then modConn s c fun k => { k with up := true } else s

/-- A DREQ from the connection's peer. -/
def cmDreq (s : State) (c : Nat) (a : HostAddr) : State :=
  if !portUp s then s
  else if foreign s a then refuse s
  else if (conn s c).open_ && (conn s c).peer = a then connOut (send s (.cm cmDrep c)) c else s

/-! ### Doorbells (R507, R508) -/

/-- A doorbell. -/
def doorbell (s : State) (imm : Nat) : State :=
  let r := bits imm 0 8
  let k := ring s r
  let t := bits imm 8 16
  let d := (t + 2 ^ 16 - k.tail) % 2 ^ 16
  let o := (k.tail + 2 ^ 16 - k.head) % 2 ^ 16
  if bits imm 24 8 ≠ 0 || !k.en || d = 0 || 2 ^ 15 ≤ d then discard s
  else if d + o ≤ 2 ^ k.size then modRing s r fun k => { k with tail := t }
  else freezeRing s { ring := r, pol := 0xFF, cookie := 0 } vCommand 0

/-! ### RDMA (R493–R495) -/

/-- What an R_Key selects. -/
inductive RKey where
  | polder (p : Nat)
  | phys
  | none
  deriving DecidableEq, Repr

/-- R493. -/
def rkeyOf (s : State) (k : Word32) : RKey :=
  let sel := k.toNat % 256
  if k.toNat / 256 ≠ s.port.keychk then .none
  else if sel < 24 && named s sel then .polder sel
  else if sel = 0xFE then .phys else .none

/-- The longest message (Table 15-2). -/
def msgMax : Nat := 2 ^ 31

/-- The physical address of a byte that a key names, or the NAK. A failed walk read posts its class 0 record (R452). -/
def rdmaPa (s : State) (k : RKey) (req : Requester) (access va : Nat) : Except Nat Nat × State :=
  match k with
  | .phys => (.ok va, s)
  | .polder p =>
    let q : XlatReq := { cd := 24, p := p, space := 0, asid := 0, va := va, access := access, user := false, req := req, cls := 4 }
    match (if va < 2 ^ 48 then ctuTranslate s q else (.perm, s)) with
    | (.ok pa, s) => (.ok pa, s)
    | (.failed pa, s) => (.error nakOp, detect s (walkRec s (lsHost s p) 0 pa) false)
    | (_, s) => (.error nakAccess, s)
  | .none => (.error nakAccess, s)

/-- The context of a host's access. -/
def rdmaCtx (s : State) (k : RKey) (req : Requester) : MemCtx :=
  let p := match k with | .polder p => p | _ => 0xFF
  { src := 24, ls := lsHost s p, cls := some 4, p := p, req := req }

/-- The record of an access that failed; a lost dirty line has posted its own. -/
def rdmaErr (s : State) (m : MemCtx) : MemErr → State
  | .lost => s
  | .uncorr cw => detect s (uncorrRec s m 1 cw) false

/-- How far a message has got: it is answered with its NAK or its data, or waits at an address with the bytes left to write or read so far. -/
inductive RdmaEnd where
  | nak (code : Nat)
  | ok (data : List Byte)
  | waits (va : Nat) (data : List Byte)
  deriving DecidableEq, Repr

/-- An access of one atom for a message: `go` gives its NAK or its result. It waits while NW has no tag for it (R480) or its home holds the frame
(R408). -/
def rdmaAtom {α : Type} (k : RKey) (req : Requester) (access kind va : Nat) (go : Nat → State → Except Nat α × State) (s : State) :
    Option (Except Nat α) × State :=
  match rdmaPa s k req access va with
  | (.error e, s) => (some (.error e), s)
  | (.ok pa, s) =>
    if s.power.trip then (some (.error nakOp), s)
    else if frameHeld s pa then (none, s)
    else if !tagFor s 24 req then
      (none, addWaiter s 24 { kind := kind, dest := homeDie pa, addr := pa, ls := (rdmaCtx s k req).ls, req := req, first := false, granted := false })
    else
      let (r, s) := go pa (dropWaiter s 24 (· == req))
      (some r, s)

/-- Write one atom of a message. -/
def rdmaPut1 (k : RKey) (req : Requester) (d : List Byte) (pa : Nat) (s : State) : Except Nat Unit × State :=
  if imageHit s [(pa, d.length)] then (.error nakAccess, s)
  else match writeAtom s (rdmaCtx s k req) pa d with
    | (some e, s) => (.error nakOp, rdmaErr s (rdmaCtx s k req) e)
    | (none, s) => (.ok (), s)

/-- Read one atom of a message. -/
def rdmaGet1 (k : RKey) (req : Requester) (n pa : Nat) (s : State) : Except Nat (List Byte) × State :=
  match readAtom s (rdmaCtx s k req) pa n with
  | (.error e, s) => (.error nakOp, rdmaErr s (rdmaCtx s k req) e)
  | (.ok d, s) => (.ok d, s)

/-- Place a message atom by atom; what was placed before a NAK stays placed (R251, R495). -/
def rdmaPut (k : RKey) (req : Requester) : List (Nat × Nat) → List Byte → State → RdmaEnd × State
  | [], _, s => (.ok [], s)
  | (va, n) :: rest, d, s =>
    match rdmaAtom k req 2 1 va (rdmaPut1 k req (d.take n)) s with
    | (none, s) => (.waits va d, s)
    | (some (.error e), s) => (.nak e, s)
    | (some (.ok _), s) => rdmaPut k req rest (d.drop n) s

/-- Read a message atom by atom. -/
def rdmaGet (k : RKey) (req : Requester) : List (Nat × Nat) → List Byte → State → RdmaEnd × State
  | [], acc, s => (.ok acc, s)
  | (va, n) :: rest, acc, s =>
    match rdmaAtom k req 1 0 va (rdmaGet1 k req n) s with
    | (none, s) => (.waits va acc, s)
    | (some (.error e), s) => (.nak e, s)
    | (some (.ok d), s) => rdmaGet k req rest (acc ++ d) s

/-- Does [a, a+n) lie in the register window as whole registers (R494). -/
def winSpan (a n : Nat) : Bool := windowBase ≤ a && a + n ≤ 2 ^ 44 && a % 8 = 0 && n % 8 = 0

/-- Does it lie in the host-port block. -/
def portSpan (a n : Nat) : Bool := winSpan a n && windowBase + 0x10000 ≤ a && a + n ≤ windowBase + 0x15000

/-- Write registers in ascending order. -/
def winStore (a : Nat) (ws : List Word) (s : State) : State :=
  (ws.zipIdx.foldl (fun s w => (winWrite s (a - windowBase + 8 * w.2) w.1.toNat).2) s)

/-- An RDMA WRITE's data. -/
def rdmaWriteTo (s : State) (c : Nat) (rkey : Word32) (va : Nat) (d : List Byte) : RdmaEnd × State :=
  if msgMax < d.length then (.nak nakInvalid, s)
  else match rkeyOf s rkey with
    | .none => (.nak nakAccess, s)
    | .polder p => rdmaPut (.polder p) (.hostWrite c) (pieces va d.length) d s
    | .phys =>
      if d.isEmpty then (.ok [], s)
      else if physOpen s va d.length then rdmaPut .phys (.hostWrite c) (pieces va d.length) d s
      else if portSpan va d.length then (.ok [], winStore va (wordsOf (d.length / 8) d) s)
      else (.nak nakAccess, s)

/-- The registers of a window span; a domain that does not answer draws NAK Remote Operational Error (R602). -/
def winLoad (s : State) (off : Nat) : Nat → Except Nat (List Byte)
  | 0 => .ok []
  | n + 1 =>
    if winStopped s off then .error nakOp
    else match winLoad s (off + 8) n with
      | .ok r => .ok (bytesLE 8 ((winRead s off).getD 0) ++ r)
      | .error e => .error e

/-- An RDMA READ's data: `len` bytes from `va` after the `got` read so far. -/
def rdmaReadFrom (s : State) (c : Nat) (rkey : Word32) (va len : Nat) (got : List Byte) : RdmaEnd × State :=
  if msgMax < len then (.nak nakInvalid, s)
  else match rkeyOf s rkey with
    | .none => (.nak nakAccess, s)
    | .polder p => rdmaGet (.polder p) (.hostRead c) (pieces va len) got s
    | .phys =>
      if len = 0 then (.ok got, s)
      else if physOpen s va len then rdmaGet .phys (.hostRead c) (pieces va len) got s
      else if winSpan va len then
        (match winLoad s (va - windowBase) (len / 8) with
        | .error e => .nak e
        | .ok d => .ok d, s)
      else (.nak nakAccess, s)

/-! ### Messages in their order (R101, R492, R507) -/

/-- Does a message reach the transport: the link is up and its connection serves. -/
def msgCan (s : State) (c : Nat) : Bool := portUp s && connUp s c

/-- A message is acknowledged, and the doorbell that it carries taken. -/
def ackMsg (s : State) (c : Nat) (imm : Option Word32) : State :=
  let s := send s (.ack c)
  match imm with
  | some w => doorbell s w.toNat
  | none => s

/-- The oldest message of a connection in its turn: what is left of it, none once it is answered. -/
def opGo (s : State) (c : Nat) : RdmaOp → Option RdmaOp × State
  | .bad => (none, nak s c nakInvalid)
  | .send imm => (none, ackMsg s c imm)
  | .write rkey va d imm =>
    match rdmaWriteTo s c rkey va d with
    | (.nak e, s) => (none, nak s c e)
    | (.ok _, s) => (none, ackMsg s c imm)
    | (.waits va d, s) => (some (.write rkey va d imm), s)
  | .read rkey va len got =>
    match rdmaReadFrom s c rkey va len got with
    | (.nak e, s) => (none, nak s c e)
    | (.ok d, s) => (none, send s (.readResp c d))
    | (.waits at_ d, s) => (some (.read rkey at_ (va + len - at_) d), s)

/-- The messages of a connection are answered in their order, until one waits. -/
def serveOps (c : Nat) : Nat → State → State
  | 0, s => s
  | fuel + 1, s =>
    match (conn s c).ops with
    | [] => s
    | op :: _ =>
      if !msgCan s c then s
      else match opGo s c op with
        | (none, s) => serveOps c fuel (modConn s c fun k => { k with ops := k.ops.tail })
        | (some x, s) => modConn s c fun k => { k with ops := x :: k.ops.tail }

/-- The messages that wait are answered as soon as they can be. -/
def serveReads (s : State) : State :=
  ((s.port.conns.filter fun e => !e.2.ops.isEmpty).map fun e => (e.1, e.2.ops.length)).foldl (fun s e => serveOps e.1 e.2 s) s

/-- The RDMA READs that a connection has not answered. -/
def readsOut (s : State) (c : Nat) : Nat := ((conn s c).ops.filter fun o => match o with | .read .. => true | _ => false).length

/-- A message arrives and takes its turn; the 65th RDMA READ outstanding draws NAK Invalid Request (Table 15-2). -/
def opArrive (s : State) (c : Nat) (op : RdmaOp) : State :=
  if !msgCan s c then s
  else
    let full := 64 ≤ readsOut s c && match op with | .read .. => true | _ => false
    let s := modConn s c fun k => { k with ops := k.ops ++ [if full then .bad else op] }
    serveOps c (conn s c).ops.length s

/-- A SEND without immediate: it carries nothing, or while the device is not bound one SPDM message, whose own row answers it. -/
def sendMsg (s : State) (c : Nat) (payload : List Byte) : State :=
  opArrive s c (if 4096 < payload.length || (bound s && !payload.isEmpty) then .bad else .send none)

/-- A SEND with immediate. -/
def sendImm (s : State) (c : Nat) (payload : List Byte) (imm : Word32) : State :=
  opArrive s c (if !bound s || !payload.isEmpty then .bad else .send (some imm))

/-- RDMA WRITE, with an immediate where it carries one (R499, R507). -/
def rdmaWriteMsg (s : State) (c : Nat) (rkey : Word32) (va : Nat) (d : List Byte) (imm : Option Word32) : State :=
  opArrive s c (if !bound s then .bad else .write rkey va d imm)

/-- RDMA READ. -/
def rdmaReadMsg (s : State) (c : Nat) (rkey : Word32) (va len : Nat) : State :=
  opArrive s c (if !bound s then .bad else .read rkey va len [])

/-- A received frame (R487, R489, R490): a frame that the port keeps is handled by the row of what it carries; one with an opcode that Table 15-2
does not list draws NAK Invalid Request. -/
def frameRx (s : State) (f : Frame) : State :=
  if !portUp s then s
  else if s.phiro.eth.mtu + 22 < f.len || 2 ≤ f.tags || !f.fcsOk then discard s
  else match f.kind with
    | .pause8023x => discard s
    | .other => discard s
    | .roce c ce => if foreign s f.from_ then refuse s else if ce then ceRx s c else s
    | .roceOpcode c ce => if foreign s f.from_ then refuse s else opArrive (if ce then ceRx s c else s) c .bad
    | _ => s

/-- The host's acknowledgement answers a write of the device (R496); an answered tag is released. -/
def ackRx (s : State) (num : Nat) : State :=
  match (owner s 24).tags.find? fun t => t.num == num && t.host.isSome with
  | some t => if portUp s && s.dt ≤ t.deadline && (t.host.any fun x => connUp s x.1) then releaseTag s 24 num else s
  | none => s

/-! ### SPDM (R500, R566) -/

/-- SPDM message codes of the responses. -/
def spVersion : Nat := 0x04
def spCapabilities : Nat := 0x61
def spAlgorithms : Nat := 0x63
def spDigests : Nat := 0x01
def spCertificate : Nat := 0x02
def spChallenge : Nat := 0x03
def spVendor : Nat := 0x7E

/-- SPDM error codes. -/
def spInvalid : Nat := 1
def spUnexpected : Nat := 4

/-- What a step of R500 answers: its message and data, or the error it draws, and the state. -/
abbrev SpStep := State → Except Nat (Nat × List Byte) × State

/-- A step of R500 over the port: a peer that is not the bound host's is refused; the bound host's BIND_REQ is unexpected (R503) and its other
messages are SENDs with payload; before that, steps are taken in order on connection 0. `now` says whether a step may be taken after `n`
steps, `next` how many have then been taken. -/
def portStep (s : State) (a : HostAddr) (isReq : Bool) (now : Nat → Bool) (next : Nat) (f : SpStep) : State :=
  if !portUp s then s
  else if foreign s a then refuse s
  else if bound s then
    (if !msgCan s 0 then s else if isReq then send s (.spdmError false spUnexpected) else nak s 0 nakInvalid)
  else if !msgCan s 0 || (conn s 0).peer ≠ a then s
  else if !now s.port.bindStep then send s (.spdmError false spUnexpected)
  else match f s with
    | (.error e, s) => send s (.spdmError false e)
    | (.ok r, s) => send (modPort s fun o => { o with bindStep := next, bindState := 1 }) (.spdm false r.1 r.2)

/-- A step over the sideband: GET_VERSION begins anew, every other follows the one before it (R575, log 28). -/
def sbStepTo (s : State) (now : Nat → Bool) (next : Nat) (f : SpStep) : State :=
  sideband .spdm (fun s =>
    if next ≠ 1 && !now s.reeve.sbStep then send s (.spdmError true spUnexpected)
    else match f s with
      | (.error e, s) => send s (.spdmError true e)
      | (.ok r, s) => send (modReeve s fun v => { v with sbStep := next, session := if next = 1 then none else v.session }) (.spdm true r.1 r.2)) s

/-- A step by either path. -/
def spdmStep (path : SpdmPath) (now : Nat → Bool) (next : Nat) (f : SpStep) (s : State) : State :=
  match path with
  | .port a => portStep s a false now next f
  | .sideband => sbStepTo s now next f

/-- Exactly `n` steps have been taken. -/
def stepIs (n : Nat) : Nat → Bool := fun k => k == n

/-- A response that only says that its step is taken. -/
def spOk (msg : Nat) : SpStep := fun s => (.ok (msg, []), s)

/-- GET_CERTIFICATE: a run of the identity chain, which slot 0 holds. -/
def certStep (slot off len : Nat) : SpStep := fun s =>
  let c := Config.certChain
  if slot ≠ 0 || c.length ≤ off then (.error spInvalid, s) else (.ok (spCertificate, (c.drop off).take len), s)

/-- CHALLENGE: a signature by the identity key. -/
def challengeStep (nonce : List Byte) : SpStep := fun s =>
  (.ok (spChallenge, sha256 Config.certChain ++ sigBytes (Config.identitySign s.free (Config.challengeDigest nonce))), { s with free := s.free + 1 })

/-- BIND_REQ: a fresh nonce of 32 bytes. -/
def bindReqStep : SpStep := fun s =>
  let (b, s) := drawBytes s
  (.ok (spVendor, b), modPort s fun o => { o with bindNonce := b })

/-! ### BIND (R501) -/

/-- Does BIND succeed: the owner key's signature over the nonce and the peer's addresses verifies, or no owner key is enrolled. -/
def bindGood (s : State) (a : HostAddr) (sig : Option (Nat × Nat)) (mac ip : Nat) : Bool :=
  match s.reeve.owner with
  | none => true
  | some k => a.mac == mac && a.ip == ip && sig.any fun g => ecVerify k (Config.bindDigest s.port.bindNonce mac ip) g

/-- The device is bound to a peer: a fresh KEYCHK, which the response carries. -/
def bindTo (s : State) (a : HostAddr) : State :=
  let (w, s) := drawFree s
  let k := w.toNat % 2 ^ 24
  let s := modPort s fun o =>
    { o with bindState := 2, bindStep := 0, bindPeer := none, bindNonce := [], host := some a, keychk := k, bindCount := (o.bindCount + 1) % 2 ^ 32 }
  send { s with power := { s.power with bootStep := 7 } } (.spdm false spVendor (bytesLE 3 k))

/-- BIND. -/
def bindMsg (s : State) (a : HostAddr) (sig : Option (Nat × Nat)) (mac ip : Nat) : State :=
  if !portUp s then s
  else if foreign s a then refuse s
  else if bound s then (if msgCan s 0 then nak s 0 nakInvalid else s)
  else if !msgCan s 0 || (conn s 0).peer ≠ a then s
  else if s.port.bindStep ≠ 7 then send s (.spdmError false spUnexpected)
  else if bindGood s a sig mac ip then bindTo s a
  else connOut (send s (.spdmError false spInvalid)) 0

/-- 10 s have passed since the connection request of a peer that has not bound (R502). -/
def bindLate (s : State) : State :=
  if bound s || !(conn s 0).open_ then s else connOut (advanceTo s (s.port.bindDt + 10 * dtS)) 0

/-! ### Coalescing and pending errors -/

/-- A coalescing window ends (R535). -/
def windowEnd (s : State) (k : WindowKey) : State :=
  match s.errors.windows.find? fun w => w.key == k with
  | none => s
  | some w =>
    let s := advanceTo { s with errors := { s.errors with windows := s.errors.windows.erase w } } w.endDt
    if w.count = 0 then s
    else post s { mkRec s w.ls w.key.code w.cls w.key.die w.key.unit w.body with dt := w.lastDt, count := w.count }

/-- A scope that handles nothing takes its oldest pending error (R538); the record of an invocation that still runs waits for its end (R536). -/
def handlePending (s : State) (k : Nat) : State :=
  let sc := scopeAt s k
  match sc.cur, sc.pend with
  | none, r :: rest =>
    let s := modScope s k fun sc => { sc with pend := rest }
    let inv := (polder s k).run.any fun v => v.err.any fun e => { r with count := e.count } == e
    if r.cls = 2 && sc.fatal then postError s r else beginError s r inv
  | _, _ => s

/-! ### The commands -/

/-- DOORBELL (R508). -/
def execDoorbell (imm : Word32) (s : State) : Result := done (if portUp s && bound s then doorbell s imm.toNat else s)

/-- FRAME_RX (R489). -/
def execFrameRx (f : Frame) (s : State) : Result := done (frameRx s f)

/-- PORT_TRAIN_ATTEMPT (R488, R612). -/
def execPortTrainAttempt (r : PortTraining) (s : State) : Result := done (trainAttempt s r.ok r.inverted)

/-- PORT_LINK_DOWN (R488). -/
def execPortLinkDown (s : State) : Result := done (portDown s)

/-- ARP (R490). -/
def execArp (ip : Nat) (_from : HostAddr) (s : State) : Result := done (arpRx s ip)

/-- NEIGHBOUR_DISCOVERY (R490). -/
def execNeighbourDiscovery (ip : Nat) (_from : HostAddr) (s : State) : Result := done (ndRx s ip)

/-- ICMP_ECHO (R490). -/
def execIcmpEcho (from_ : HostAddr) (data : List Byte) (s : State) : Result := done (echoRx s from_ data)

/-- CM_REQ (R492). -/
def execCmReq (q : ConnReq) (s : State) : Result := done (cmReq s q)

/-- CM_RTU (R492). -/
def execCmRtu (conn : Nat) (from_ : HostAddr) (s : State) : Result := done (cmRtu s conn from_)

/-- CM_DREQ (R492). -/
def execCmDreq (conn : Nat) (from_ : HostAddr) (s : State) : Result := done (cmDreq s conn from_)

/-- SEND (R492). -/
def execSend (conn : Nat) (payload : List Byte) (s : State) : Result := done (sendMsg s conn payload)

/-- SEND_WITH_IMMEDIATE (R507). -/
def execSendWithImmediate (conn : Nat) (payload : List Byte) (imm : Word32) (s : State) : Result := done (sendImm s conn payload imm)

/-- RDMA_WRITE (R493). -/
def execRdmaWrite (conn : Nat) (rkey : Word32) (va : Nat) (data : List Byte) (s : State) : Result := done (rdmaWriteMsg s conn rkey va data none)

/-- RDMA_WRITE_WITH_IMMEDIATE (R507). -/
def execRdmaWriteWithImmediate (conn : Nat) (rkey : Word32) (va : Nat) (data : List Byte) (imm : Word32) (s : State) : Result :=
  done (rdmaWriteMsg s conn rkey va data (some imm))

/-- RDMA_READ (R493). -/
def execRdmaRead (conn : Nat) (rkey : Word32) (va len : Nat) (s : State) : Result := done (rdmaReadMsg s conn rkey va len)

/-- HOST_ACK (R496). -/
def execHostAck (num : Nat) (s : State) : Result := done (ackRx s num)

/-- CONNECTION_RETRY_EXHAUSTED (R492). -/
def execConnectionRetryExhausted (conn : Nat) (s : State) : Result := done (if (Machine.conn s conn).open_ then connOut s conn else s)

/-- CNP (R497). -/
def execCnp (conn : Nat) (s : State) : Result := done (cnpRx s conn)

/-- RATE_INCREASE (R497). -/
def execRateIncrease (conn : Nat) (s : State) : Result := done (rateUp s conn)

/-- PFC_FRAME (R498). -/
def execPfcFrame (prios pause : Byte) (s : State) : Result := done (pfcRx s prios pause)

/-- PFC_WEIR (R498). -/
def execPfcWeir (prio bytes : Nat) (s : State) : Result := done (pfcLevel s prio bytes)

/-- GET_VERSION (R500). -/
def execGetVersion (from_ : SpdmPath) (s : State) : Result := done (spdmStep from_ (stepIs 0) 1 (spOk spVersion) s)

/-- GET_CAPABILITIES (R500). -/
def execGetCapabilities (from_ : SpdmPath) (s : State) : Result := done (spdmStep from_ (stepIs 1) 2 (spOk spCapabilities) s)

/-- NEGOTIATE_ALGORITHMS (R500). -/
def execNegotiateAlgorithms (from_ : SpdmPath) (ecdsaP256 sha256 : Bool) (s : State) : Result :=
  done (spdmStep from_ (stepIs 2) 3 (if ecdsaP256 && sha256 then spOk spAlgorithms else fun s => (.error spInvalid, s)) s)

/-- GET_DIGESTS (R500). -/
def execGetDigests (from_ : SpdmPath) (s : State) : Result :=
  done (spdmStep from_ (stepIs 3) 4 (fun s => (.ok (spDigests, sha256 Config.certChain), s)) s)

/-- GET_CERTIFICATE (R566): the chain is read in as many parts as the peer asks for. -/
def execGetCertificate (from_ : SpdmPath) (slot off len : Nat) (s : State) : Result :=
  done (spdmStep from_ (fun k => k == 4 || k == 5) 5 (certStep slot off len) s)

/-- CHALLENGE (R500). -/
def execChallenge (from_ : SpdmPath) (nonce : List Byte) (s : State) : Result := done (spdmStep from_ (stepIs 5) 6 (challengeStep nonce) s)

/-- BIND_REQ (R500). -/
def execBindReq (from_ : HostAddr) (s : State) : Result := done (portStep s from_ true (stepIs 6) 7 bindReqStep)

/-- BIND (R501). -/
def execBind (from_ : HostAddr) (sig : Option (Nat × Nat)) (mac ip : Nat) (s : State) : Result := done (bindMsg s from_ sig mac ip)

/-- BIND_TIMEOUT (R502). -/
def execBindTimeout (s : State) : Result := done (bindLate s)

/-- COALESCE_WINDOW_END (R535). -/
def execCoalesceWindowEnd (w : WindowKey) (s : State) : Result := done (windowEnd s w)

/-- PENDING_ERROR_HANDLE (R538). -/
def execPendingErrorHandle (scope : Nat) (s : State) : Result := done (handlePending s scope)

end Sys2Proof.Machine
end

