-- ==== Sys2Proof/Machine/Spares.lean ====
section
/-! DEFINITION. Spares and the kiln pass (R541–R555): swaps, thresholds, units with no spare left, kiln steps, scrubs. -/

namespace Sys2Proof.Machine

/-! ### Units and their spares (Table 17-5) -/

/-- The clusters of a CD that may be brought in. -/
def spareCl (m : SpareMap) : List Nat := (List.range 18).filter fun c => !m.posCl.contains c && !m.badCl.contains c

/-- The usable spares left of a type, in the scope of a unit. -/
def sparesLeft (m : SpareMap) (type idx : Nat) : Nat :=
  match type with
  | 1 => (spareCl m).length
  | 2 => b2n (!m.badLane.contains (idx / 65 * 65 + m.laneOut.getD (idx / 65) 64))
  | 3 => b2n (!m.badGrist.contains (idx / 17 * 17 + m.gristOut.getD (idx / 17) 16))
  | 4 => b2n (!m.badWay.contains m.wayOut)
  | 5 => b2n (!m.badCore.contains (1 - m.core))
  | 6 => b2n (!m.badDie.contains m.dieOut)
  | _ => 0

/-- Does a unit serve. -/
def inService (m : SpareMap) (type idx : Nat) : Bool :=
  match type with
  | 1 => m.posCl.contains idx
  | 2 => m.laneOut.getD (idx / 65) 64 ≠ idx % 65
  | 3 => m.gristOut.getD (idx / 17) 16 ≠ idx % 17
  | 4 => m.wayOut ≠ idx
  | 5 => m.core == idx
  | 6 => m.dieOut ≠ idx
  | 13 => m.posCl.contains (idx / 16)
  | _ => true

/-- Mark a unit unusable. -/
def markBad (m : SpareMap) (type idx : Nat) : SpareMap :=
  match type with
  | 1 => { m with badCl := insertNat m.badCl idx }
  | 2 => { m with badLane := insertNat m.badLane idx }
  | 3 => { m with badGrist := insertNat m.badGrist idx }
  | 4 => { m with badWay := insertNat m.badWay idx }
  | 5 => { m with badCore := insertNat m.badCore idx }
  | 6 => { m with badDie := insertNat m.badDie idx }
  | 13 => { m with badCl := insertNat m.badCl (idx / 16) }
  | _ => m

/-- Is a unit marked unusable. -/
def isBad (m : SpareMap) (type idx : Nat) : Bool := decide (markBad m type idx = m) && (type ≤ 6 || type == 13)

/-- The physical numbers that a swap of a unit takes out and brings in (Tables 2-10, 17-4), and the spare map after it. -/
def swapIn (m : SpareMap) (type idx : Nat) : Nat × Nat × SpareMap :=
  match type with
  | 1 =>
    let n := (spareCl m).headD 0
    let pos := m.posCl.findIdx (· == idx)
    (idx, n, { m with posCl := m.posCl.set pos n, laneOut := m.laneOut.set pos 64, gristOut := m.gristOut.set pos 16,
                      badLane := m.badLane.filter (· / 65 ≠ pos), badGrist := m.badGrist.filter (· / 17 ≠ pos) })
  | 2 => (idx % 65, m.laneOut.getD (idx / 65) 64, { m with laneOut := m.laneOut.set (idx / 65) (idx % 65) })
  | 3 => (idx % 17, m.gristOut.getD (idx / 17) 16, { m with gristOut := m.gristOut.set (idx / 17) (idx % 17) })
  | 4 => (idx, m.wayOut, { m with wayOut := idx })
  | 5 => (idx, 1 - m.core, { m with core := 1 - m.core })
  | 6 => (idx, m.dieOut, { m with dieOut := idx })
  | _ => (0xFFFF, 0xFFFF, m)

/-- The LS of an error of a CD: its polder's scope, or the device (R545, R628). -/
def lsCd (s : State) (cd : Nat) : LS :=
  let p := (cdAt s cd).polder
  if p < 24 then { lsDevice cd with pol := p, inv := (polder s p).invCur } else lsDevice cd

/-- A CD goes out of service (R545): its STATE, the spare map, and a record of class 2 for its polder, of class 0 with none. -/
def cdOut (s : State) (cd code unit reason : Nat) : State :=
  if (spareMap s cd).out then s
  else
    let s := modCd (saveSpare s cd fun m => { m with out := true }) cd fun c => { c with state := 3 }
    detect s (mkRec s (lsCd s cd) code 2 cd unit (errBytes { old := if unit = 0 then 0xFFFF else unit % 4096, reason := reason })) false

/-- The spares of a kind that no pending swap has taken. -/
def sparesFree (s : State) (cd type idx : Nat) : Nat :=
  let near := fun (k : Nat) => if type = 2 then k / 65 == idx / 65 else if type = 3 then k / 17 == idx / 17 else true
  sparesLeft (spareMap s cd) type idx - ((cdAt s cd).swaps.filter fun w => w.type == type && !w.rotation && near w.index).length

/-- A unit that serves failed with no usable spare of its kind: a lane or a bank takes its cluster with it, every other kind the CD. -/
def noSpare (s : State) (cd type idx reason : Nat) : State :=
  let m := spareMap s cd
  if type = 2 || type = 3 then
    let pos := if type = 2 then idx / 65 else idx / 17
    let c := m.posCl.getD pos 0
    let s := saveSpare s cd fun m => markBad m 1 c
    if sparesFree s cd 1 c = 0 || goodCl (spareMap s cd) < 16 then cdOut s cd 0x61 (0x1000 + c) 3
    else modCd s cd fun d => { d with swaps := d.swaps ++ [{ type := 1, index := c, rotation := false, reason := 3 }] }
  else cdOut s cd 0x61 (type * 4096 + idx) reason

/-- A failed unit that serves is to be swapped at its moment, where a spare is left (R542, R545). -/
def schedule (s : State) (cd type idx reason : Nat) : State :=
  if sparesFree s cd type idx = 0 then noSpare s cd type idx reason
  else modCd s cd fun c => { c with swaps := c.swaps ++ [{ type := type, index := idx, rotation := false, reason := reason }] }

/-! ### Swaps (R542–R544) -/

/-- May a pending swap take effect now (Table 17-5, R542). -/
def swapNow (s : State) (cd : Nat) (w : Swap) : Bool :=
  let p := (cdAt s cd).polder
  if 24 ≤ p || w.type = 4 then true
  else if w.type = 5 then leadOf s p ≠ cd || (polder s p).frzCore.isSome || !(core s p).started
  else (polder s p).run.isNone && (w.type ≠ 2 || (polder s p).vqueue.isEmpty)

/-- The recipe of the polder's next invocation, if one follows. -/
def nextRecipe (s : State) (p : Nat) : Option Recipe :=
  match (polder s p).armed, (polder s p).pend with
  | some r, _ => recipeAt s p r.slot
  | none, r :: _ => recipeAt s p r.slot
  | none, [] => none

/-- The grist and cask of one position of one CD read as zero. -/
def clearPos (s : State) (cd pos : Nat) : State :=
  let p := (cdAt s cd).polder
  let s := { s with grist := mzero s.grist (gristKey cd pos 0) 0x400000 }
  let k := rankOf s p cd * 16 + pos
  if p < 24 then modPolder s p fun po =>
    { po with groups := tmap Group.idle po.groups fun g => { g with acc := tdrop g.acc fun a => a / 0x400000 == k } }
  else s

/-- What a cluster or grist-bank swap does to its position (R543): its bytes are carried unless the next invocation's KEEP_MASK clears them,
and it is not Ready until the copy ends. -/
def swapPos (s : State) (cd pos : Nat) : State :=
  let s := match nextRecipe s (cdAt s cd).polder with
    | some rc => if rc.keepMask.getLsbD pos then s else clearPos s cd pos
    | none => s
  modCd s cd fun c => { c with pos := if tget .off c.pos pos = .ready then tset .off c.pos pos .wakingSleep else c.pos }

/-- The used way behind a built one that serves. -/
def usedWay (m : SpareMap) (b : Nat) : Nat := if b = 16 then m.wayOut else b

/-- Write back and invalidate a near-cache way; a lost line ends its polder (R418, R424). -/
def dropWay (s : State) (cd way : Nat) : State :=
  let q := fun (l : NcLine) => l.way == way && !l.victim
  ncDrop (ncFindLost s cd q) cd q

/-- A swap takes effect once its spare map is in MRAM (R544): a way is written back and invalidated first, then the map, the SPARE_SWAP record or
the rotation count, and the copy that begins. -/
def takeSwap (s : State) (cd : Nat) (w : Swap) : State :=
  let m := spareMap s cd
  if !inService m w.type w.index then s
  else if sparesLeft m w.type w.index = 0 then (if w.rotation then s else noSpare s cd w.type w.index w.reason)
  else match nvWrite s areaId false with
  | (false, s) => s
  | (true, s) =>
    let (o, n, m') := swapIn m w.type w.index
    let pos := if w.type = 1 then m.posCl.findIdx (· == w.index) else w.index / 17
    let s := if w.type = 1 || w.type = 3 then swapPos s cd pos else s
    let s := if w.type = 4 then dropWay s cd (usedWay m w.index) else s
    let s := modSpare s cd fun _ => m'
    let s := if w.rotation then { s with kiln := { s.kiln with rotations := satInc s.kiln.rotations 0xFFFF } }
      else post s (mkRec s (lsDevice cd) 0x60 0 cd (w.type * 4096 + w.index)
        (errBytes { old := o, new := n, reason := w.reason, left := sparesLeft m' w.type w.index }))
    if w.type = 1 || w.type = 3 || w.type = 6 then modCd s cd fun c => { c with copying := c.copying ++ [w] } else s

/-- Pending swaps of a CD take effect at their moment. -/
def swapsNow (s : State) (cd : Nat) : State :=
  let now := (cdAt s cd).swaps.filter (swapNow s cd)
  let s := modCd s cd fun c => { c with swaps := c.swaps.filter fun w => !now.contains w }
  now.foldl (fun s w => takeSwap s cd w) s

/-- The copies of a CD's swaps end; their positions become Ready. -/
def copiesDone (s : State) (cd : Nat) : State :=
  if (cdAt s cd).copying.isEmpty then s
  else modCd s cd fun c => { c with copying := [], pos := tmap .off c.pos fun st => if st = .wakingSleep then .ready else st }

/-! ### Thresholds (R546) -/

/-- The DTs of a list that lie within 24 h. -/
def within24h (s : State) (l : List Nat) : Nat := (l.filter fun t => s.dt < t + 86400 * dtS).length

/-- Four corrected reads in one DRAM row: the row is repaired, its accesses held until the copy ends. How many rows a die can repair is not
given, so LEFT is a free value (log 3). -/
def rowRepair (s : State) (cd row : Nat) : State :=
  let key := cd * 2 ^ 32 + row
  if 24 ≤ cd || within24h s (tget [] s.health.rowHits key) < 4 then s
  else
    let die := cd * 16 + Config.dramDie row % 9
    let h := s.health
    let s := { s with health := { h with rowHits := tset [] h.rowHits key [], dieRepairs := tset 0 h.dieRepairs die (tget 0 h.dieRepairs die + 1) } }
    let s := modCd s cd fun c => { c with rowCopy := insertNat c.rowCopy row }
    let (v, s) := drawFree s
    post s (mkRec s (lsDevice cd) 0x60 0 cd (0x7000 + row % 4096) (errBytes { old := row % 65536, reason := 1, left := v.toNat % 256 }))

/-- The row's copy ends: the copy carries corrected data, and the held accesses go on. -/
def rowCopied (s : State) (cd row : Nat) : State :=
  if (cdAt s cd).rowCopy.contains row then
    let s := modCd s cd fun c => { c with rowCopy := c.rowCopy.filter (· ≠ row) }
    vqGoAll (heldRelease { s with health := { s.health with
        bad := s.health.bad.filter fun e => !(e.2 == 1 && e.1 / 2 ^ 30 == cd && Config.dramRow (e.1 * 32) == row) } })
  else s

/-- 64 row repairs on one DRAM die: the die is to be swapped. -/
def dieSwap (s : State) (cd die : Nat) : State :=
  let key := cd * 16 + die
  if 24 ≤ cd || 9 ≤ die || !inService (spareMap s cd) 6 die || tget 0 s.health.dieRepairs key < 64 then s
  else
    let s := { s with health := { s.health with dieRepairs := tset 0 s.health.dieRepairs key 0 } }
    schedule (saveSpare s cd fun m => markBad m 6 die) cd 6 die 1

/-- A near-cache way whose parity errors reach a threshold is swapped at once: its dirty lines are written back and it is invalidated. -/
def waySwap (s : State) (cd way : Nat) : State :=
  let key := cd * 32 + way
  let due := s.health.wayDue.contains key
  if 24 ≤ cd || 16 ≤ way || (!due && within24h s (tget [] s.health.wayHits key) < 16) then s
  else
    let b := builtWay (spareMap s cd) way
    let h := s.health
    let s := { s with health := { h with wayHits := tset [] h.wayHits key [], wayDue := h.wayDue.filter (· ≠ key) } }
    let s := saveSpare s cd fun m => markBad m 4 b
    let reason := if due then 2 else 1
    if sparesLeft (spareMap s cd) 4 b = 0 then noSpare s cd 4 b reason
    else takeSwap s cd { type := 4, index := b, rotation := false, reason := reason }

/-! ### The kiln pass (R547–R554) -/

/-- Does the copy of a swap still read a unit, which serves until it ends (R543). -/
def copySource (s : State) (u : KilnUnit) : Bool :=
  (cdAt s u.die).copying.any fun w => (w.type == u.type && (u.type == 6 || w.index == u.index)) || (w.type == 1 && u.type == 13 && w.index == u.index / 16)

/-- May the pass test a unit now (R122, R548). -/
def testable (s : State) (u : KilnUnit) : Bool :=
  let m := spareMap s u.die
  let posOff := fun (c : Nat) => !m.posCl.contains c || tget .off (cdAt s u.die).pos (m.posCl.findIdx (· == c)) == .off
  if copySource s u then false else
  match u.type with
  | 1 => posOff u.index
  | 2 => !inService m 2 u.index || tget .off (cdAt s u.die).pos (u.index / 65) == .off
  | 3 => !inService m 3 u.index || tget .off (cdAt s u.die).pos (u.index / 17) == .off
  | 5 => !inService m 5 u.index || (cdAt s u.die).polder == 0xFF
  | 13 => posOff (u.index / 16)
  | 10 => !s.xlat.walks.any fun w => w.id == u.index
  | 14 => !s.fabric.slots.any fun r => r.key.hub + 29 == u.die
  | 15 => !s.fabric.windows.any fun w => w.adder == u.die
  | 6 => true
  | t => !inService m t u.index

/-- Is a unit one that a sweep tests. -/
def kilnTests (u : KilnUnit) : Bool :=
  match u.type with
  | 1 => u.die < 24 && u.index < 18
  | 2 => u.die < 24 && u.index < 1040
  | 3 => u.die < 24 && u.index < 272
  | 4 => u.die < 24 && u.index < 17
  | 5 => u.die < 24 && u.index < 2
  | 6 => u.die < 24 && u.index = 0
  | 10 => u.die = 24 && u.index < 33
  | 13 => u.die < 24 && u.index < 288
  | 14 => (u.die = 29 || u.die = 30) && u.index = 0
  | 15 => (u.die < 24 && u.index < 32) || (25 ≤ u.die && u.die ≤ 28 && u.index < 8)
  | _ => false

/-- The UNIT of a tested unit: an array counts with its cluster, the spare DRAM die by its number, adders have no type. -/
def kilnUnitNo (s : State) (u : KilnUnit) : Nat :=
  match u.type with
  | 13 => 0x1000 + u.index / 16
  | 6 => 0x6000 + (spareMap s u.die).dieOut
  | 14 => 0
  | 15 => 0
  | t => t * 4096 + u.index

/-- What a failed unit's kind has done to it (R545, R553). -/
def unitFailed (s : State) (u : KilnUnit) : State :=
  let m := spareMap s u.die
  match u.type with
  | 10 =>
    let s := { s with xlat := { s.xlat with walkersOut := insertNat s.xlat.walkersOut u.index } }
    if 33 ≤ s.xlat.walkersOut.length then detect s (mkRec s (lsDevice 24) 0x62 3 24 (0xA000 + u.index) (errBytes { reason := 0 })) false else s
  | 14 => { s with fabric := { s.fabric with hubPend := insertNat s.fabric.hubPend (u.die - 29) } }
  | 15 => if u.die < 24 then cdOut s u.die 0x62 0 0 else detect s (mkRec s (lsDevice u.die) 0x62 3 u.die 0 (errBytes { reason := 0 })) false
  | 6 => saveSpare s u.die fun m => markBad m 6 m.dieOut
  | t =>
    let type := if t = 13 then 1 else t
    let idx := if t = 13 then u.index / 16 else u.index
    if isBad m type idx then s
    else
      let s := saveSpare s u.die fun m => markBad m type idx
      if inService m type idx then schedule s u.die type idx 0
      else if goodCl (spareMap s u.die) < 16 then cdOut s u.die 0x61 (type * 4096 + idx) 0 else s

/-- A sweep ends once every unit has passed or failed since it began. -/
def sweepEnd (s : State) : State :=
  if kilnUnits.all s.kiln.tested.contains then
    { s with kiln := { s.kiln with tested := [], sweepS := min ((s.dt - s.kiln.sweepDt) / dtS) 0xFFFFFF, sweepDt := s.dt, late := false } }
  else s

/-- Units in service of a kind that the sweep has not tested, on a CD without a pending swap of the kind. -/
def untested (s : State) (u : KilnUnit) : List KilnUnit :=
  let m := spareMap s u.die
  if 5 < u.type || (cdAt s u.die).swaps.any (·.type == u.type) then []
  else (List.range 1040).filterMap fun k =>
    let v : KilnUnit := { u with index := k }
    let near := if u.type = 2 then k / 65 == u.index / 65 else if u.type = 3 then k / 17 == u.index / 17 else true
    if kilnTests v && near && inService m u.type k && !s.kiln.tested.contains v then some v else none

/-- A spare that has passed is swapped with an untested unit of its kind, which the manual does not choose (R551). -/
def rotate (s : State) (u : KilnUnit) : State :=
  let l := if inService (spareMap s u.die) u.type u.index || u.type = 6 || 6 < u.type then [] else untested s u
  let (k, s') := drawPick s l.length
  match l[k]? with
  | none => s
  | some v =>
    modCd s' u.die fun c => { c with swaps := c.swaps ++ [{ type := v.type, index := v.index, rotation := true, reason := 0xFF }] }

/-- A kiln step ends with its signature, and with that of its repetition where the first differs (R547, R553). The pass stays on the unit until
it turns to another of its die or a request stops it. -/
def kilnStep (s : State) (u : KilnUnit) (step got again : Nat) : State :=
  if !s.kiln.en || !kilnTests u || !testable s u || s.power.rstLow then s
  else
    let e := Config.kilnExpected step % 2 ^ 32
    let s := { s with kiln := { s.kiln with
      testing := s.kiln.testing.filter (·.die ≠ u.die) ++ [u], tested := s.kiln.tested.filter (· ≠ u) ++ [u] } }
    if got % 2 ^ 32 = e then sweepEnd (rotate s u)
    else if again % 2 ^ 32 = e then sweepEnd (rotate { s with kiln := { s.kiln with transient := satInc s.kiln.transient 0xFF } } u)
    else
      let s := { s with kiln := { s.kiln with fails := satInc s.kiln.fails 0xFF } }
      let s := post s (mkRec s (lsDevice u.die) 0x63 0 u.die (kilnUnitNo s u) (errBytes { reason := 0, step := step, got := again, exp := e }))
      sweepEnd (unitFailed s u)

/-- A request stops the step on a unit, which is released (R549). -/
def kilnPreempt (s : State) (u : KilnUnit) : State := { s with kiln := { s.kiln with testing := s.kiln.testing.filter (· ≠ u) } }

/-- Does the pass occupy a unit now. -/
def underTest (s : State) (u : KilnUnit) : Bool := s.kiln.testing.contains u

/-- A scrub read of one atom (R552): every correction is rewritten and reported, an uncorrectable codeword is reported and left. -/
def scrubAtom (s : State) (pa : Nat) : State :=
  if !s.kiln.en || !(isNear pa || isFar pa) || s.power.trip || s.power.rstLow then s
  else
    let die := homeDie pa
    let m : MemCtx := { src := die, ls := lsDevice die, cls := none, p := 0xFF, req := .reeve }
    let s := wakePackage s pa
    (span (pa / 256 * 8) 8).foldl (fun s cw =>
      if badAt s (cw * 32) = 1 then setBad (corrected s m cw) cw 0
      else if 2 ≤ badAt s (cw * 32) then post s (mkRec s m.ls 0x11 0 die 0 (errBytes { addr := cw * 32, symbols := 2 }))
      else s) s

/-- A sweep exceeds HOURS (R554), of which 0 selects 24. -/
def kilnLate (s : State) : State :=
  let h := if s.kiln.hours = 0 then 24 else s.kiln.hours
  if !s.kiln.en || s.kiln.late then s
  else
    let s := advanceTo s (s.kiln.sweepDt + h * 3600 * dtS + 1)
    let s := { s with kiln := { s.kiln with late := true } }
    post s (mkRec s (lsDevice 31) 0x64 0 31 0 (errBytes { addr := 0 }))

/-! ### The commands -/

/-- KILN_STEP (R547). -/
def execKilnStep (u : KilnUnit) (step got again : Nat) (s : State) : Result := done (kilnStep s u step got again)

/-- KILN_PREEMPT (R549). -/
def execKilnPreempt (u : KilnUnit) (s : State) : Result := done (kilnPreempt s u)

/-- SCRUB (R552). -/
def execScrub (pa : Nat) (s : State) : Result := done (scrubAtom s pa)

/-- KILN_LATE (R554). -/
def execKilnLate (s : State) : Result := done (kilnLate s)

/-- ROW_REPAIR (R546). -/
def execRowRepair (cd row : Nat) (s : State) : Result := done (rowRepair s cd row)

/-- ROW_COPY_COMPLETE (R541). -/
def execRowCopyComplete (cd row : Nat) (s : State) : Result := done (rowCopied s cd row)

/-- DIE_SWAP (R546). -/
def execDieSwap (cd die : Nat) (s : State) : Result := done (dieSwap s cd die)

/-- WAY_SWAP (R546). -/
def execWaySwap (cd way : Nat) (s : State) : Result := done (waySwap s cd way)

/-- SPARE_SWAP (R542). -/
def execSpareSwap (cd : Nat) (s : State) : Result := done (if cd < 24 then swapsNow s cd else s)

/-- SPARE_COPY_DONE (R543). -/
def execSpareCopyDone (cd : Nat) (s : State) : Result := done (copiesDone s cd)

end Sys2Proof.Machine
end

