-- ==== Sys2Proof/Machine/Fabric.lean ====
section
/-! DEFINITION. The Eloax fabric (chapter 14): links and their recovery (R462–R467), hubs and lost bundles (R469–R472), tags, responses and
timeouts (R478–R485). -/

namespace Sys2Proof.Machine

/-! ### Transactions (R481–R485) -/

/-- What a transaction that ended carried and its home has not taken is gone: an ordered update on its way, a contribution that waits. -/
def dropWork (s : State) (t : TagEntry) : State :=
  { s with fabric := { s.fabric with
      flight := s.fabric.flight.filter fun f => !(f.win.src == t.src && f.tag == some t.num)
      redWait := s.fabric.redWait.filter fun w => !(w.2.1 == t.src && t.work == .red w.1) } }

/-- A transaction ends without its response: its tag is answered, and its requester meets its outcome (R485, Table 12-3). A store of the core and
an issue broadcast end with the record alone (log 11). -/
def txEnd (s : State) (t : TagEntry) (link status : Nat) : State :=
  let s := dropWork (releaseTag s t.src t.num) t
  let r := txRec s t 1 link status
  match t.req, t.work with
  | .descriptor p _, _ | .descUpdate p _, _ => detectInv s p r
  | .core p, .core va inst | .coreAtomic p, .core va inst =>
    let s := detect s r false
    if t.kind ≠ 1 && coreReady s p then raiseExc s p cMemerr va 0 false inst else s
  | .hostRead c, _ | .hostWrite c, _ => send (detect s r false) (.nak c nakOp)
  | .walker _, .walk id => walkLost s id t.addr status
  | .ring k, _ =>
    match ringCmd s k with
    | some (h, opc) => if opc = 0x30 then complete (detect s r false) h opc { status := cmMem, detail := status } else detect s r false
    | none => detect s r false
  | _, _ => detect s r false

/-- The tag of an owner that is outstanding under a number. -/
def tagAt (s : State) (o num : Nat) : Option TagEntry := (owner s o).tags.find? fun t => t.num == num

/-- Can a response reach a tag: its home has not discarded the request (R482), and its answer is no row of its own: a walk's end, an ordered
update's application, a reduction's result. -/
def answerable (s : State) (t : TagEntry) : Bool :=
  (match t.work with | .red _ | .walk _ | .discarded => false | _ => true) && !s.fabric.flight.any fun f => f.win.src == t.src && f.tag == some t.num

/-- A response is accepted: the tag is free, and a host's read goes to the host. -/
def accept (s : State) (t : TagEntry) : State :=
  let s := releaseTag s t.src t.num
  match t.req, t.work with
  | .hostRead c, .data d => if connUp s c then send s (.readResp c d) else s
  | _, _ => s

/-- A response arrives (R483, R484): accepted where its tag is outstanding with its generation and its DEADLINE has not passed, else
discarded. -/
def responseRx (s : State) (o num gen : Nat) : State :=
  match tagAt s o num with
  | some t => if t.gen = gen && s.dt ≤ t.deadline && answerable s t then accept s t else s
  | none => s

/-- A transaction reaches its DEADLINE unanswered (R481); the cycle is then over, in which a response or a link's end would have gone before
(R484). -/
def txLate (s : State) (o num : Nat) : State :=
  match tagAt s o num with
  | some t => advanceTo (txEnd (advanceTo s t.deadline) t 0xFFFF 1) (t.deadline + 1)
  | none => s

/-- Every transaction whose DEADLINE has come ends with TX_TIMEOUT at the end of the cycle (R481). -/
def expireTags (s : State) : State :=
  ((s.fabric.owners.flatMap fun o => o.2.tags).filter fun t => decide (t.deadline ≤ s.dt)).foldl
    (fun s t => if (tagAt s t.src t.num) == some t then txEnd s t 0xFFFF 1 else s) s

/-- The waiter that a freed tag goes to: walk reads and the sequencer's fetches first, then request order (R480). -/
def nextWaiter (w : List Waiter) : Option Waiter :=
  let l := w.filter fun x => !x.granted
  match l.find? (·.first) with
  | some x => some x
  | none => l.head?

/-- A freed tag is granted to the next stalled issuer, for which it is kept. -/
def tagGrant (s : State) (o : Nat) : State :=
  let w := owner s o
  match nextWaiter w.waiters with
  | none => s
  | some x =>
    if tagCount s o ≤ tagsInUse w + (w.waiters.filter (·.granted)).length then s
    else modOwner s o fun ow => Owner.stall { ow with waiters := ow.waiters.map fun y => if y = x then { y with granted := true } else y } s.dt

/-! ### Links (R463–R467) -/

/-- The die that a link's number belongs to (Table 14-1), and the die at its other end. -/
def linkDies (k : Nat) : Nat × Nat :=
  if k < 216 then (k / 9, if k % 9 < 4 then 29 else if k % 9 < 8 then 30 else (k / 9 + 1) % 24)
  else if k < 232 then (25 + (k - 216) / 4, if (k - 216) % 4 < 2 then 29 else 30)
  else if k < 234 then (24, 29 + (k - 232)) else (31, 29 + (k - 234))

/-- Does a link carry flits: up or replaying. -/
def linkUp (l : Link) : Bool := l.state == 2 || l.state == 3

/-- 2 µs of DT. -/
def replaySpan : Nat := 2 * dtUs

/-- A direction of a link. -/
def Link.dir (l : Link) (back : Bool) : LinkDir := if back then l.back else l.fwd
def Link.withDir (l : Link) (back : Bool) (d : LinkDir) : Link := if back then { l with back := d } else { l with fwd := d }

/-- The distance between two sequence numbers of 12 bits. -/
def seqDist (a b : Nat) : Nat := (b + 4096 - a) % 4096

/-- The header of a flit: its sequence number and acknowledgement in the first 24 bits (log 30). -/
def flitHeader (f : Flit) : List Byte := bytesLE 3 (f.seq % 4096 + f.ack % 4096 * 4096) ++ f.rest

/-- After a retrain the sender begins from the first unacknowledged flit unasked (R465). -/
def LinkDir.fresh (d : LinkDir) : LinkDir := { d with asked := false }

/-- Is a flit's CRC-32C that of its header and payload (R462). -/
def flitCrcOk (f : Flit) : Bool := (crcBytes polyCrc32c (2 ^ 32 - 1) (flitHeader f ++ f.payload) ^^^ (2 ^ 32 - 1)) == f.crc

/-- The replay buffer of a sender, in flits. -/
def replayMax : Nat := 256

/-- An acknowledgement of flits of one direction: those before it leave the sender's replay buffer. -/
def LinkDir.ack (d : LinkDir) (a : Nat) : LinkDir := if seqDist d.acked a ≤ seqDist d.acked d.rxNext then { d with acked := a } else d

/-- The receiver of a direction asks for replay from the first flit that it lacks, once until it is served. -/
def askReplay (l : Link) (back : Bool) : Link := { l.withDir back { l.dir back with asked := true } with state := 3 }

/-- A flit reaches the receiver of a direction of a link (R462, R463): a bad CRC or a gap asks for replay; what follows until the replay is
discarded, and so is a flit that was delivered before; the next one is delivered, and its acknowledgement frees the other direction's replay
buffer. The sender sends nothing beyond its buffer. -/
def flitRx (s : State) (k : Nat) (back : Bool) (f : Flit) (lanes : List Nat) : State :=
  let l := linkAt s k
  let d := l.dir back
  let n := seqDist d.acked f.seq
  if 236 ≤ k || !linkUp l || s.power.rstLow || (flitCrcOk f && replayMax ≤ n) then s
  else
    let l := { l with errs := (l.errs.filter fun e => s.dt < e.2 + replaySpan) ++ lanes.map fun x => (x, s.dt) }
    if d.asked then modLink s k fun _ => l
    else if !flitCrcOk f then modLink s k fun _ => askReplay l back
    else
      let d := if seqDist d.acked d.txNext ≤ n then { d with txNext := (f.seq + 1) % 4096 } else d
      let l := l.withDir back d
      if f.seq = d.rxNext then
        let o := (l.dir !back).ack f.ack
        let l := (l.withDir back { d with rxNext := (d.rxNext + 1) % 4096 }).withDir (!back) o
        send (modLink s k fun _ => { l with state := if o.asked then 3 else 2 }) (.flit k back f.payload)
      else if n < seqDist d.acked d.rxNext then modLink s k fun _ => l
      else modLink s k fun _ => askReplay l back

/-- Links whose bundle a CD has lost to a hub (R469), and a CD without any (R471). -/
def bundleEnd (s : State) (k : Nat) : State :=
  let (die, other) := linkDies k
  if 24 ≤ die || other < 29 then s
  else
    let hub := other - 29
    if !bundleLost s die hub then s
    else if bundleLost s die (1 - hub) then
      let s := detect s (mkRec s (lsCd s die) 0x25 2 die 0 (fabBytes { link := k })) false
      if (cdAt s die).polder < 24 then s else cdOut s die 0x61 0 0xFF
    else if (hubsIn s).contains hub then { s with fabric := { s.fabric with hubPend := insertNat s.fabric.hubPend hub } }
    else s

/-- Does a transaction's request or response travel on a link: between its die and a hub or its home by the way that its address takes (R23,
R461, R470), on a ring link only between its two dies. -/
def onPath (s : State) (k : Nat) (t : TagEntry) : Bool :=
  let (a, b) := linkDies k
  if t.src = t.dest then false
  else if 29 ≤ t.src && t.src ≤ 30 then t.src == b
  else if 29 ≤ t.dest && t.dest ≤ 30 then t.dest == b && (t.src == a || t.kind == 5)
  else if b < 29 then (t.src == a && t.dest == b) || (t.src == b && t.dest == a)
  else (t.src == a || t.dest == a) && (routeHub s t.src t.dest t.addr).any fun h => 29 + h == b

/-- The flits of a direction are discarded. -/
def LinkDir.clear (d : LinkDir) : LinkDir := { d with txNext := d.rxNext, acked := d.rxNext, asked := false }

/-- A link is declared down (R466): one LINK_DOWN record posts, and the transactions in its replay buffers or in flight on it end with TX_LINK;
which of those on its path these are is a free choice (log 3). -/
def declareDown (s : State) (k : Nat) : State :=
  let l := linkAt s k
  let n := l.window.length
  let ts := (s.fabric.owners.flatMap fun o => o.2.tags).filter (onPath s k)
  let s := modLink s k fun l =>
    { l with state := 5, downCnt := satInc l.downCnt 0xFF, window := [], errs := [], newLane := none, fwd := l.fwd.clear, back := l.back.clear }
  let die := (linkDies k).1
  let s := post s (mkRec s (lsDevice die) 0x22 0 die (0x8000 + k) (fabBytes { link := k, replays := n }))
  let s := ts.foldl (fun s t =>
    let (v, s) := drawFree s
    if bit v.toNat 0 && (tagAt s t.src t.num) == some t then txEnd s t k 2 else s) s
  bundleEnd s k

/-- The replay requests of the last 2 µs. -/
def recent (s : State) (l : Link) : List Nat := l.window.filter fun t => s.dt < t + replaySpan

/-- A replay request reaches the sender of a direction (R464, R466): the first 8 of a window are served, from the flit that the receiver lacks; a
ninth remaps, or finds the link down within 2 µs of a retrain. -/
def replayRx (s : State) (k : Nat) (back : Bool) (first : Nat) : State :=
  let l := linkAt s k
  let d := l.dir back
  if 236 ≤ k || !linkUp l || s.power.rstLow || !d.asked || first ≠ d.rxNext then s
  else
    let w := recent s l
    if w.length < 8 then
      modLink s k fun l => { l.withDir back { d with asked := false } with replays := satInc l.replays 0xFFFF, window := w ++ [s.dt], state := 3 }
    else
      let s := modLink s k fun l => { l with window := w ++ [s.dt] }
      if l.retrainEnd.any fun t => s.dt ≤ t + replaySpan then declareDown s k else modLink s k fun l => { l with state := 4 }

/-- Lane-parity errors of a physical lane in the window. -/
def laneErrs (s : State) (l : Link) (x : Nat) : Nat := (l.errs.filter fun e => e.1 == x && decide (s.dt < e.2 + replaySpan)).length

/-- The lanes in use: the first 64 and the spares brought in, less those taken out. -/
def lanesIn (l : Link) : List Nat := (List.range (64 + l.lanes.length)).filter fun x => !l.lanes.contains x

/-- The lane whose count exceeds every other lane's. -/
def worstLane (s : State) (l : Link) : Option Nat := (lanesIn l).find? fun x => (lanesIn l).all fun y => y == x || decide (laneErrs s l y < laneErrs s l x)

/-- The remap (R464): the worst lane and the lowest free spare, or neither; the link retrains. -/
def laneRemap (s : State) (k : Nat) : State :=
  let l := linkAt s k
  if l.state ≠ 4 || s.power.rstLow then s
  else
    let spare := 64 + l.lanes.length
    modLink s k fun l => { l with state := 1, newLane := if spare < 68 then (worstLane s l).map fun x => (x, spare) else none }

/-- A retrain ends (R465, R466): replay goes on from the first unacknowledged flit, with the records of a remap, or the link is down. -/
def retrainDone (s : State) (k : Nat) (ok : Bool) : State :=
  let l := linkAt s k
  if l.state ≠ 1 || 236 ≤ k || s.power.rstLow then s
  else if !ok then declareDown s k
  else
    let n := l.window.length
    let s := modLink s k fun l =>
      { l with state := 2, retrainEnd := some s.dt, window := [], errs := [], newLane := none, fwd := l.fwd.fresh, back := l.back.fresh }
    match l.newLane with
    | none => s
    | some (x, sp) =>
      let s := modLink s k fun l =>
        let out := l.lanes ++ [x]
        { l with lanes := out, lastLane := x, spareUsed := ((span 64 out.length).filter fun y => !out.contains y).length }
      let die := (linkDies k).1
      let b := fabBytes { link := k, lane := x, spare := sp, replays := n }
      let s := post s (mkRec s (lsDevice die) 0x20 0 die (0x8000 + k) b)
      if sp = 67 then post s (mkRec s (lsDevice die) 0x21 0 die (0x8000 + k) b) else s

/-! ### Hubs (R469, R472) -/

/-- A hub leaves service once no polder runs an invocation (R26, R469); where the other has left before it, no hub is left (Table 17-5). -/
def hubOut (s : State) (hub : Nat) : State :=
  if !s.fabric.hubPend.contains hub || (polderNums.any fun p => (polder s p).run.isSome) then s
  else
    let s := { s with fabric := { s.fabric with
      hubPend := s.fabric.hubPend.filter (· ≠ hub), hub0 := s.fabric.hub0 && hub ≠ 0, hub1 := s.fabric.hub1 && hub ≠ 1 } }
    let s := post s (mkRec s (lsDevice (29 + hub)) 0x24 0 (29 + hub) (0x9000 + hub) (fabBytes { dest := 29 + hub }))
    if (hubsIn s).isEmpty then detect s (mkRec s (lsDevice (29 + hub)) 0x62 3 (29 + hub) (0x9000 + hub) (errBytes { old := hub })) false else s

/-- Every member has accepted the oldest issue broadcast of a polder that is outstanding, and the hub acknowledges it, which frees the lead's tag
(R472). Broadcasts themselves are sent where instructions and descriptors issue. -/
def issueBroadcast (s : State) (p : Nat) : State :=
  if !named s p || s.power.rstLow then s
  else match (owner s (leadOf s p)).tags.find? fun t => t.kind == 5 with
    | some t => if s.dt ≤ t.deadline then releaseTag s t.src t.num else s
    | none => s

/-! ### Device time -/

/-- One unit of 0.25 ns passes with no command waiting (R83, log 2): transactions end at their DEADLINE (R481), then what waited and can go on does:
walks, vector instructions, hub contributions and host messages. -/
def tick (s : State) : State :=
  let s := expireTags s
  let s := { s with dt := (s.dt + 1) % 2 ^ 64 }
  serveReads (redRetry (vqGoAll (startWalks s.xlat.waiting.length s)))

/-! ### The commands -/

/-- FLIT_RX (R463). -/
def execFlitRx (link : Nat) (back : Bool) (f : Flit) (lanes : List Nat) (s : State) : Result := done (flitRx s link back f lanes)

/-- REPLAY_REQUEST (R464). -/
def execReplayRequest (side : LinkSide) (first : Nat) (s : State) : Result := done (replayRx s side.link side.back first)

/-- LANE_REMAP (R464). -/
def execLaneRemap (link : Nat) (s : State) : Result := done (laneRemap s link)

/-- RETRAIN_DONE (R465). -/
def execRetrainDone (link : Nat) (ok : Bool) (s : State) : Result := done (retrainDone s link ok)

/-- HUB_OUT (R469). -/
def execHubOut (hub : Nat) (s : State) : Result := done (hubOut s hub)

/-- ISSUE_BROADCAST (R472). -/
def execIssueBroadcast (p : Nat) (s : State) : Result := done (issueBroadcast s p)

/-- REDUCTION_CONTRIBUTION (R473). -/
def execReductionContribution (k : RedKey) (src : Nat) (data : List Byte) (s : State) : Result := done (redContribution s k src data)

/-- REDUCTION_RESULT (R475). -/
def execReductionResult (k : RedKey) (s : State) : Result := done (redResult s k)

/-- TAG_GRANT (R480). -/
def execTagGrant (owner : Nat) (s : State) : Result := done (tagGrant s owner)

/-- RESPONSE (R483). -/
def execResponse (owner num gen : Nat) (s : State) : Result := done (responseRx s owner num gen)

/-- TX_TIMEOUT (R481). -/
def execTxTimeout (owner num : Nat) (s : State) : Result := done (txLate s owner num)

end Sys2Proof.Machine
end

