-- ==== Sys2Proof/Machine/IoSpace.lean ====
section
/-! DEFINITION. The I/O space of the lead core (R53, R263, R272, R278, R283, R284, R296, R298, R316–R319, R380, R385; Tables 6-1 to 6-4,
8-11 to 8-15, 9-6, 11-8, 11-10) and writes of a register by each of its paths (R10, R11). -/

namespace Sys2Proof.Machine

/-! ### Reads -/

/-- Is an address in a range of Table 9-6; each is reached in K mode only. -/
def ioRange (a : Nat) : Bool :=
  (0x4000 ≤ a && a < 0x4010) || (0x4100 ≤ a && a < 0x4300) || (0x4800 ≤ a && a < 0x4830) || (0x5000 ≤ a && a < 0x7000) ||
    (0x10000 ≤ a && a < 0x30000) || (0x40000 ≤ a && a < 0x44000)

/-- AGSTATE of group g (Table 6-4). -/
def agState (po : Polder) (g : Nat) : Nat := freeSlots po <<< 16 + groupSlots (groupAt po g) <<< 2 + (groupAt po g).state

/-- RCP_STATUS (Table 8-14). -/
def rcpStatus (po : Polder) : Nat :=
  b2n po.adm.isSome <<< 63 + b2n po.rcp.trunc <<< 62 + po.rcp.code <<< 48 + (po.rcp.detail2 % 65536) <<< 32 + po.rcp.detail % 2 ^ 32

/-- RCP_CYC0 and RCP_CYC1 (Table 8-15). -/
def rcpCyc (po : Polder) (k : Nat) : Nat := natLE ((span (4 * k) 4).flatMap fun i => bytesLE 2 (po.rcp.cyc.getD i 0xFFFF))

/-- PSHADOW (Table 11-10). -/
def pshadow (c : Core) : Nat := c.shadow.length <<< 16 + maskOf ((List.range 16).filter fun i => c.shadow.getD i false)

/-- The 64-bit register at an aligned I/O address, BSF_DATA and the windows apart; none where none is assigned. -/
def ioReg (s : State) (p a : Nat) : Option Nat :=
  let po := polder s p
  let c := core s p
  let nc := fun (k : Nat) => if k < nMembers s p then some (cdOfRank s p k) else none
  if 0x4100 ≤ a && a < 0x4300 then
    let g := (a - 0x4100) / 32
    let k := (a - 0x4100) % 32 / 8
    some (if k = 3 then agState po g else (agcfg po g k).toNat)
  else if 0x6000 ≤ a && a < 0x6100 then (nc ((a - 0x6000) / 8)).map (ncCtlRead s)
  else if 0x6100 ≤ a && a < 0x6200 then (nc ((a - 0x6100) / 8)).map (ncStatRead s)
  else match a with
    | 0x4000 => some c.bsfAddr
    | 0x4800 => some 0
    | 0x4808 => some 0
    | 0x4810 => some 0
    | 0x4818 => some (rcpStatus po)
    | 0x4820 => some (rcpCyc po 0)
    | 0x4828 => some (rcpCyc po 1)
    | 0x5000 => some c.intPend.toNat
    | 0x5008 => some c.intEn.toNat
    | 0x5010 => some c.timerCmp
    | 0x5018 => some (pshadow c)
    | 0x5020 => some (rdFrzMap s p)
    | _ => none

/-- A read of `size` bytes at an aligned I/O address: status and value. A word of the tensor window is written, never read: a free
value (log 3, log 27). -/
def ioRead (s : State) (p va size : Nat) : Nat × Nat × State :=
  let a := va / 8 * 8
  if a = 0x4008 then
    if va = a then let (st, v) := fieldRead s p (core s p).bsfAddr false; (st, v, s) else (ioNone, 0, s)
  else if 0x10000 ≤ a && a < 0x30000 then
    if size = 8 && (a - 0x10000) / 32 < (polder s p).sec.ttEntries then let (v, s) := drawFree s; (ioOk, v.toNat, s) else (ioNone, 0, s)
  else if 0x40000 ≤ a && a < 0x44000 then (ioOk, 0, s)
  else if 0x6000 ≤ a && a < 0x6200 && (ioReg s p a).isSome && ncStopped s (cdOfRank s p (a % 0x100 / 8)) then (ioTimeout, 0, s)
  else match ioReg s p a with
    | some v => (ioOk, bits v (8 * (va - a)) (8 * size), s)
    | none => (ioNone, 0, s)

/-! ### Writes -/

/-- AGCFG0 under R9: each undefined field value is ignored (Table 6-1). -/
def putAgcfg0 (old v : Nat) : Nat :=
  let keep := fun (lo n : Nat) (bad : Bool) => (if bad then bits old lo n else bits v lo n) <<< lo
  keep 30 11 (1024 < bits v 30 11) + keep 23 7 (64 < bits v 23 7) + keep 20 3 (4 < bits v 20 3) + bits v 16 4 <<< 16 + keep 14 2 (1 < bits v 14 2)

/-- A write of AGCFGk of group g (Tables 6-1 to 6-3). -/
def putAgcfg (s : State) (p g k v : Nat) : State :=
  let old := (agcfg (polder s p) g k).toNat
  let v := if k = 0 then putAgcfg0 old v else if k = 1 then v else v % 2 ^ 34
  modPolder s p fun po => { po with agcfg := tset (if k = 0 then 0x20000 else 0) po.agcfg (g * 4 + k) (toW v) }

/-- INV_START (Table 8-11). -/
def invStart (s : State) (p v : Nat) : Nat × State :=
  startInv s p (bits v 60 4) (if bit v 59 then some (bits v 3 45 * 8) else none) false 0

/-- SL_CTL (Table 8-12). -/
def slCtl (s : State) (p v : Nat) : Nat × State := sluiceCtl s p (bits v 0 12) (bit v 12)

/-- RCP_ADMIT (Table 8-13): an admission answers ST_OK, or ST_BUSY where R278 refuses it (log 23). -/
def rcpAdmit (s : State) (p v : Nat) : Nat × State :=
  match bits v 58 2 with
  | 1 => let (ok, s) := adRequest s p none (bits v 60 4) (bits v 6 42 * 64); (if ok then stOk else stBusy, s)
  | 2 => withdrawSlot s p (bits v 60 4)
  | _ => (ioOk, s)

/-- BSF_ADDR (R53). -/
def putBsfAddr (s : State) (p v : Nat) : Nat × State := if 2 ^ 16 ≤ v then (bsRange, s) else (bsOk, modCore s p fun c => { c with bsfAddr := v })

/-- BSF_DATA (R44–R47, R53, R73). -/
def putBsfData (s : State) (p v : Nat) : Nat × State := if s.phiro.busy then (bsBusy, s) else fieldWrite s p (core s p).bsfAddr v

/-- TIMER_CMP: a nonzero value at or below DT sets TIMER at once (Table 11-8). -/
def putTimer (s : State) (p v : Nat) : State :=
  let hit := v ≠ 0 && v ≤ s.dt
  let s := modCore s p fun c => { c with timerCmp := v, timerHit := hit }
  if hit then setInt s p 2 else s

/-- A word of the tensor window: the entry takes its new value with the word at offset 24 (R263); a word not written since keeps the
entry's (log 27). -/
def ttWindow (s : State) (p idx k v : Nat) : Nat × State :=
  let po := polder s p
  let e := tget ttEmpty po.tt idx
  let w := fun (j : Nat) (old : Word) => (tfind po.ttWin (idx * 4 + j)).getD old
  if po.sec.ttEntries ≤ idx then (stRange, s)
  else if po.slots.any fun r => r.2.locked.contains idx then (stLocked, s)
  else if k = 3 then
    ttPut (setPolder s p { po with ttWin := tdrop po.ttWin fun j => j / 4 == idx }) p idx { w0 := w 0 e.w0, w1 := w 1 e.w1, w2 := w 2 e.w2, w3 := toW v }
  else (stOk, setPolder s p { po with ttWin := tins po.ttWin (idx * 4 + k) (toW v) })

/-- A write of a whole 64-bit register. -/
def ioPut (s : State) (p a v : Nat) : Nat × State :=
  let ok := fun (s : State) => (ioOk, s)
  let c := fun (f : Core → Core) => ok (modCore s p f)
  if 0x4100 ≤ a && a < 0x4300 then
    let k := (a - 0x4100) % 32 / 8
    ok (if k = 3 then s else putAgcfg s p ((a - 0x4100) / 32) k v)
  else if 0x6000 ≤ a && a < 0x6100 then
    (if ncStopped s (cdOfRank s p (a % 0x100 / 8)) then (ioTimeout, s) else ok (ncCtlWrite s (cdOfRank s p (a % 0x100 / 8)) v))
  else if 0x6100 ≤ a && a < 0x6200 then
    (if ncStopped s (cdOfRank s p (a % 0x100 / 8)) then (ioTimeout, s) else ok (ncStatWrite s (cdOfRank s p (a % 0x100 / 8)) v))
  else match a with
    | 0x4000 => putBsfAddr s p v
    | 0x4800 => invStart s p v
    | 0x4808 => slCtl s p v
    | 0x4810 => rcpAdmit s p v
    | 0x5000 => c fun c => { c with intPend := c.intPend &&& ~~~ (BitVec.ofNat 16 v) }
    | 0x5008 => c fun c => { c with intEn := BitVec.ofNat 16 v }
    | 0x5010 => ok (putTimer s p v)
    | _ => ok s

/-- What a narrow write leaves of a register's other half: what it reads, nothing where writing a one acts or where the register is a command
that reads 0. The manual does not say (R316–R319): DESIGN CHOICE, log 27. -/
def ioBase (s : State) (p a : Nat) : Nat := if a = 0x5000 || (0x6100 ≤ a && a < 0x6200) then 0 else (ioReg s p a).getD 0

/-- A write of `size` bytes at an aligned I/O address: its status. -/
def ioWrite (s : State) (p va size v : Nat) : Nat × State :=
  let a := va / 8 * 8
  let v := v % 2 ^ (8 * size)
  if a = 0x4008 then (if va = a then putBsfData s p v else (ioNone, s))
  else if 0x10000 ≤ a && a < 0x30000 then
    (if size = 8 then ttWindow s p ((a - 0x10000) / 32) (a % 32 / 8) v else (ioNone, s))
  else if 0x40000 ≤ a && a < 0x44000 then
    (ioOk, modCore s p fun c => { c with entrySram := msetN c.entrySram (va - 0x40000) (bytesLE size v) })
  else if (ioReg s p a).isNone then (ioNone, s)
  else ioPut s p a (setBits (ioBase s p a) (8 * (va - a)) (8 * size) v)

/-! ### IN and OUT (R316–R319) -/

/-- An I/O access: from U mode one to a K-only register freezes the core, then alignment is checked (R378); it issues once the store buffer has
drained (R317) and its die has a tag for it (R478). -/
def ioCheck (p va size : Nat) (w : Word32) (f : State → State) (s : State) : State :=
  let o := leadOf s p
  if (core s p).user && ioRange va then violate s p vMode false 0xFFFFFFFF va w
  else if va % size ≠ 0 then raiseExc s p cAlign va 0 false w
  else if tagFor s o (.core p) then drained p (fun s => f (tagPulse (leaveLine s p) o)) s
  else addWaiter s o { kind := 3, dest := o, addr := 0, ls := lsCore s p, req := .core p, first := false, granted := false }

/-- IN (R316): the value to gd, the status to IOSTAT. -/
def doIn (p : Nat) (gd ga : Reg) (disp : BitVec 16) (size : Nat) (w : Word32) (s : State) : State :=
  let va := mAddr (core s p) ga disp
  ioCheck p va size w (fun s =>
    let (st, v, s) := ioRead s p va size
    retire (modCore (putReg s p gd (toW v)) p fun c => { c with iostat := BitVec.ofNat 8 st }) p) s

/-- OUT (R316): the status to gd and IOSTAT. -/
def doOut (p : Nat) (gd ga gb : Reg) (size : Nat) (w : Word32) (s : State) : State :=
  let va := (gpr (core s p) ga).toNat
  ioCheck p va size w (fun s =>
    let (st, s) := ioWrite s p va size (gpr (core s p) gb).toNat
    retire (modCore (putReg s p gd (toW st)) p fun c => { c with iostat := BitVec.ofNat 8 st }) p) s

/-- The word of an OUT and of an IN (Table 9-3). -/
def wOut (gd ga gb : Reg) (dbl : Bool) : Word32 := wR 0x1F gd ga gb ((BitVec.ofBool dbl).setWidth 11)
def wIn (gd ga : Reg) (disp : BitVec 16) (dbl : Bool) : Word32 := wI (if dbl then 0x1E else 0x1D) gd ga disp

/-- Issue an OUT, an IN. -/
def issueOut (s : State) (p : Nat) (o : OutOp) : State := issue s p (doOut p o.gd o.ga o.gb (if o.dbl then 8 else 4) (wOut o.gd o.ga o.gb o.dbl))
def issueIn (s : State) (p : Nat) (o : InOp) : State := issue s p (doIn p o.gd o.ga o.disp (if o.dbl then 8 else 4) (wIn o.gd o.ga o.disp o.dbl))

/-- An OUT is the event of a row when it addresses the row's register, aligned, with a value the row's test admits. -/
def outRow (s : State) (p : Nat) (o : OutOp) (at_ : Nat → Bool) (q : Nat → Bool) : State :=
  let c := core s p
  let va := (gpr c o.ga).toNat
  let size := if o.dbl then 8 else 4
  if va % size = 0 && at_ va && q (((gpr c o.gb).toNat % 2 ^ (8 * size)) <<< (8 * (va % 8))) then issueOut s p o else s

/-- A register's address range. -/
def atReg (a va : Nat) : Bool := a ≤ va && va < a + 8

/-! ### The commands -/

/-- IN_W (R316). -/
def execInW (p : Nat) (gd ga : Reg) (disp : BitVec 16) (s : State) : Result := done (issueIn s p { gd := gd, ga := ga, disp := disp, dbl := false })

/-- IN_D (R316). -/
def execInD (p : Nat) (gd ga : Reg) (disp : BitVec 16) (s : State) : Result := done (issueIn s p { gd := gd, ga := ga, disp := disp, dbl := true })

/-- OUT_W (R316). -/
def execOutW (p : Nat) (gd ga gb : Reg) (s : State) : Result := done (issueOut s p { gd := gd, ga := ga, gb := gb, dbl := false })

/-- OUT_D (R316). -/
def execOutD (p : Nat) (gd ga gb : Reg) (s : State) : Result := done (issueOut s p { gd := gd, ga := ga, gb := gb, dbl := true })

/-- BSF_DATA_WRITE (R53). -/
def execBsfDataWrite (p : Nat) (o : OutOp) (s : State) : Result := done (outRow s p o (atReg 0x4008) fun _ => true)

/-- BSF_DATA_READ (R53). -/
def execBsfDataRead (p : Nat) (o : InOp) (s : State) : Result :=
  done (if atReg 0x4008 (mAddr (core s p) o.ga o.disp) then issueIn s p o else s)

/-- RCP_ADMIT (R278): OP 0b01. -/
def execRcpAdmit (p : Nat) (o : OutOp) (s : State) : Result := done (outRow s p o (atReg 0x4810) fun v => bits v 58 2 == 1)

/-- RCP_WITHDRAW (R283): OP 0b10. -/
def execRcpWithdraw (p : Nat) (o : OutOp) (s : State) : Result := done (outRow s p o (atReg 0x4810) fun v => bits v 58 2 == 2)

/-- INV_START_WRITE (R284). -/
def execInvStartWrite (p : Nat) (o : OutOp) (s : State) : Result := done (outRow s p o (atReg 0x4800) fun _ => true)

/-- SL_CTL_SET (R272). -/
def execSlCtlSet (p : Nat) (o : OutOp) (s : State) : Result := done (outRow s p o (atReg 0x4808) fun v => bit v 12)

/-- SL_CTL_CLEAR (R272). -/
def execSlCtlClear (p : Nat) (o : OutOp) (s : State) : Result := done (outRow s p o (atReg 0x4808) fun v => !bit v 12)

/-- TT_WINDOW_WRITE (R263). -/
def execTtWindowWrite (p index : Nat) (o : OutOp) (s : State) : Result :=
  done (outRow s p o (fun va => decide (0x10000 + 32 * index ≤ va) && decide (va < 0x10000 + 32 * index + 32) && ioRange va) fun _ => true)

/-- TIMER_CMP_WRITE (R380). -/
def execTimerCmpWrite (p : Nat) (o : OutOp) (s : State) : Result := done (outRow s p o (atReg 0x5010) fun _ => true)

/-- A register write by one of its paths (R10, R11): a window offset for REGW and Reeve, one of the host-port block for host RDMA (R495), an
I/O address for the lead core. The core's write stands for its OUT.D, with its checks; the row gives no instruction word, so what a
violation records of it is free (log 3, log 27). -/
def registerWrite (s : State) (path : WritePath) (addr : Nat) (v : Word) : State :=
  match path with
  | .regw => (winWrite s addr v.toNat).2
  | .rdma => if 0x10000 ≤ addr && addr < 0x15000 then (winWrite s addr v.toNat).2 else s
  | .core p =>
    if coreReady s p then
      let (w, s) := drawFree s
      ioCheck p addr 8 (w.setWidth 32) (fun s => (ioWrite s p addr 8 v.toNat).2) s
    else s

/-- REGISTER_WRITE (R10). -/
def execRegisterWrite (path : WritePath) (addr : Nat) (value : Word) (s : State) : Result := done (registerWrite s path addr value)

end Sys2Proof.Machine
end

