-- ==== Sys2Proof/Machine/Power.lean ====
section
/-! DEFINITION. Power, resets and boot (chapters 19 and 20): sensors and trips (R594–R596, R620–R622), COOL_ID (R68, R70), the governor
(R589–R593), the 56 V input (R584–R588), RST_N (R613), warm and cold resets (R603, R632), boot (R607), the test access port (R624). -/

namespace Sys2Proof.Machine

def modPower (s : State) (f : Power → Power) : State := { s with power := f s.power }

/-- Does the module run from its 56 V input. -/
def powered (s : State) : Bool := s.power.input == .on

/-! ### Sensors (R594, R620, R622) -/

/-- The cap in force in W (Table 2-11). -/
def capW (s : State) : Nat := match capNow s with | 2 => 3600 | 3 => 2900 | _ => 1500

/-- Warning, critical and trip thresholds of a temperature, in m°C (Tables 19-3 and 20-5); none where the sensor has none. -/
def tempLimits (s : State) (id : Nat) : Option (Int × Int × Option Int) :=
  if id < 0x20 then some (95000, 105000, some 115000)
  else if id < 0x38 then some (88000, 95000, some 105000)
  else if id = 0xB0 then
    match coolProfile s.phiro.coolId with
    | 2 => some (43000, 48000, none)
    | 3 => some (48000, 53000, none)
    | _ => none
  else none

/-- STATE of a sample of a sensor whose last STATE was `old`: warning clears 3 °C below its threshold. -/
def sensorState (s : State) (id old : Nat) (v : Int) : Nat :=
  match tempLimits s id with
  | some (w, c, _) => if c ≤ v then 2 else if w ≤ v then 1 else if (old = 1 || old = 2) && w - 3000 < v then 1 else 0
  | none =>
    if id = 0x40 then (if v < 50000 || 59000 < v then 2 else 0)
    else if id = 0x42 then (if s.power.clamp then 2 else if (98 * capW s * 10 : Nat) < v then 1 else 0)
    else 0

/-- Is a sample one that the sensor reports (R620): the coolant thermistor reads −20 to 120 °C, and SPV-CK-A has none. -/
def sampleOk (s : State) (id : Nat) (v : Int) : Bool :=
  id ≠ 0xB0 || (coolProfile s.phiro.coolId ≠ 1 && decide (-20000 ≤ v) && decide (v ≤ 120000))

/-- Die and stack sensors. -/
def thermIds : List Nat := List.range 0x38

/-- Does any die or stack read a warning or critical STATE; does any die read critical. -/
def anyWarn (s : State) : Bool := thermIds.any fun id => let st := (sensorAt s id).state; st == 1 || st == 2
def dieCritical (s : State) : Bool := (List.range 0x20).any fun id => (sensorAt s id).state == 2

/-- Does a sampled die or stack read another STATE than normal: warning, critical or unavailable. -/
def notNormal (s : State) : Bool := thermIds.any fun id => (s.power.sensors.any fun e => e.1 == id) && (sensorAt s id).state ≠ 0

/-- The thermal step of the next evaluation (R594): it falls only once every die and stack reads normal. -/
def nextTstep (s : State) : Nat :=
  if dieCritical s then 7 else if anyWarn s then min (s.power.tstep + 1) 7 else if notNormal s then s.power.tstep else s.power.tstep - 1

/-- Bytes 32–63 of the records of Table 19-4. -/
def powerBytes (id : Nat) (v : Int) (before after_ action : Nat) : List Byte :=
  bytesLE 2 id ++ bytesLE 2 0 ++ bytesLE 4 (toBits 32 v) ++ bytesLE 1 before ++ bytesLE 1 after_ ++ bytesLE 1 action

/-- Does a trip stop a position or core of a CD: every position goes Off (R595). -/
def tripOff (s : State) : State := { s with cds := tmap Cd.reset s.cds fun c => { c with pos := [] } }

/-- A sensor reaches its trip threshold (R595, R616). -/
def trip (s : State) (id : Nat) (v : Int) : State :=
  let s := modPower (tripOff s) fun w => { w with trip := true, thermtripN := false }
  detect s (mkRec s (lsDevice 31) 0x52 3 31 0 (powerBytes id v s.power.step s.power.step 2)) false

/-- A sensor's record on entering warning or critical (R596); a stack at critical throttles its channels until it reads 90 °C or less. -/
def thermalRecord (s : State) (id : Nat) (v : Int) (st : Nat) : State :=
  let stack := decide (0x20 ≤ id && id < 0x38)
  let after_ := if id = 0xB0 || 0x38 ≤ id then s.power.step else max s.power.pstep (nextTstep s)
  post s (mkRec s (lsDevice 31) 0x51 0 31 0 (powerBytes id v s.power.step after_ (if stack && st = 2 then 1 else 0)))

/-- The memory throttle of a stack after a sample. -/
def stackThrottle (s : State) (id : Nat) (v : Int) (st : Nat) : State :=
  if id < 0x20 || 0x38 ≤ id then s
  else modPower s fun w =>
    { w with memThr := tset false w.memThr (id - 0x20) (st == 2 || (tget false w.memThr (id - 0x20) && decide (90000 < v))) }

/-- Reeve samples a sensor (R578, R594); an unavailable one reports STATE 3 and a value that the manual does not give (log 3). -/
def sensorSample (s : State) (id : Nat) (value : Option Int) : State :=
  let old := sensorAt s id
  if !powered s || !sensorIds.contains id then s
  else match value.filter (sampleOk s id) with
    | none =>
      let (v, s) := drawFree s
      modPower s fun w => { w with sensors := tset Sensor.unread w.sensors id { value := (v.truncate 32).toInt, state := 3, dt := s.dt } }
    | some v =>
      let st := sensorState s id old.state v
      let tr := match tempLimits s id with | some (_, _, some t) => decide (t ≤ v) && !(decide (t ≤ old.value) && old.state == 2) | _ => false
      let s := modPower s fun w => { w with sensors := tset Sensor.unread w.sensors id { value := v, state := st, dt := s.dt } }
      let s := stackThrottle s id v st
      let s := if st ≠ old.state && (st = 1 || st = 2) then thermalRecord s id v st else s
      if tr then trip s id v else s

/-! ### COOL_ID (R68, R70) -/

/-- A sample of COOL_ID: two that differ from the loaded PROFILE in a row force the AIR cap, two that match release it. -/
def coolSample (s : State) (code : BitVec 3) : State :=
  if !powered s || s.reeve.frozen then s
  else
    let f := { s.phiro with coolId := code }
    if !f.loaded then { s with phiro := f }
    else if coolProfile code = f.profile then
      let hit := min (f.hitRun + 1) 2
      { s with phiro := { f with missRun := 0, hitRun := hit, forced := f.forced && decide (hit < 2) } }
    else
      let miss := min (f.missRun + 1) 2
      let s' := { s with phiro := { f with missRun := miss, hitRun := 0, forced := f.forced || decide (2 ≤ miss) } }
      if 2 ≤ miss && !f.forced then
        post s' (mkRec s' (lsDevice 31) 0x50 0 31 0 (errBytes { extra := code.toNat + f.profile <<< 4 }))
      else s'

/-! ### The governor (R589–R593) -/

/-- The 1 ms evaluation on the input power in mW (R590); while Reeve is frozen no step falls and the clamp stays (R593). -/
def governorEval (s : State) (p : Nat) : State :=
  let w := s.power
  let cap := 1000 * capW s
  if !powered s then s
  else if s.reeve.frozen then
    modPower s fun w => { w with inW := min (p / 1000) 65535, tstep := max w.tstep (nextTstep s), step := max w.step (nextTstep s) }
  else
    let high := decide (98 * cap < 100 * p)
    let old := match tfind w.overDt (w.pstep - 1) with | some t => decide (t + 100 * dtMs ≤ s.dt) | none => true
    let pstep := if high then min (w.step + 1) 7 else if 100 * p < 90 * cap && 0 < w.pstep && old then w.pstep - 1 else w.pstep
    let tstep := nextTstep s
    modPower s fun w =>
      { w with inW := min (p / 1000) 65535, overDt := if high then tins w.overDt w.step s.dt else w.overDt, pstep := pstep, tstep := tstep,
               step := max pstep tstep, clamp := false }

/-- The clamp (R590): input power above 1.10 × cap for 20 µs. -/
def powerClamp (s : State) (p : Nat) : State :=
  if !powered s || 100 * p ≤ 110 * 1000 * capW s then s
  else
    let before := s.power.step
    let s := modPower s fun w => { w with step := max w.step 5, clamp := true }
    post s (mkRec s (lsDevice 31) 0x53 0 31 0 (powerBytes 0x42 p before s.power.step 0))

/-! ### What a reset leaves (Table 19-7) -/

/-- A write of MRAM that a reset or a loss of power cuts short (R565, R571): a STORE leaves its target bank as it was or with a failing CRC,
which of them is free (log 3); a firmware write leaves a slot that does not verify. -/
def nvCut (s : State) : State :=
  let (w, s) := drawFree s
  let s := match s.reeve.store with
    | some (_, toB, _) =>
      if bit w.toNat 0 then modReeve s fun v => if toB then { v with bankB := [] } else { v with bankA := [] } else s
    | none => s
  match s.reeve.update with
  | some (_, f) => modReeve s fun v => putOther v { f with sigOk := false, active := false }
  | none => s

/-- Reeve as a reset leaves it: the content of MRAM. -/
def reeveNv (v : Reeve) : Reeve :=
  { Reeve.fresh with
    bankA := v.bankA, bankB := v.bankB, slotA := v.slotA, slotB := v.slotB, insertCnt := v.insertCnt,
    ownerEnrols := v.ownerEnrols, rollback := v.rollback, logNext := v.logNext, log := v.log, owner := v.owner, spareLeft := v.spareLeft,
    nvBad := v.nvBad, spares := v.spares }

/-- A link as a reset leaves it: the lanes out of use, and after a warm reset its counters (R467). -/
def linkKept (warm : Bool) (l : Link) : Link :=
  let k := { Link.reset with lanes := l.lanes, spareUsed := l.spareUsed, lastLane := l.lastLane }
  if warm then { k with replays := l.replays, downCnt := l.downCnt } else k

/-- The module's pins and the always-on logic, which a reset leaves. -/
def powerKept (w : Power) (cause : Nat) : Power :=
  { State.reset.power with
    input := w.input, sensors := w.sensors, trip := w.trip, thermtripN := w.thermtripN, smbAlertN := w.smbAlertN,
    rstLow := w.rstLow, cause := cause, straps := w.straps, powerLost := w.powerLost, tapIr := w.tapIr }

/-- A cold reset (Table 19-7): everything but MRAM; boot step 4 zeroes memory. -/
def coldState (s : State) (cause : Nat) : State :=
  let s := nvCut s
  let h := s.health
  { State.reset with
    pending := s.pending, free := s.free, out := s.out, mem := s.mem, grist := s.grist
    cds := tmap Cd.reset s.cds fun c => { Cd.reset with swaps := c.swaps }
    health := { State.reset.health with bad := h.bad, retired := h.retired, reserveUsed := h.reserveUsed, reserveOut := h.reserveOut }
    xlat := { State.reset.xlat with walkersOut := s.xlat.walkersOut }
    fabric := { State.reset.fabric with links := tmap Link.reset s.fabric.links (linkKept false) }
    errors := { State.reset.errors with sideband := s.errors.sideband }
    reeve := reeveNv s.reeve
    power := powerKept s.power cause }

/-- A warm reset (Table 19-7, R423, R504, R603, R632): near caches written back, the binding ended; DT, memory, the loaded image, MRAM, the
core SRAMs (R328) and the counters that a cold reset restarts are kept. -/
def warmState (s : State) (cause : Nat) : State :=
  let s := nvCut (endBinding ((List.range 24).foldl ncReset s))
  { State.reset with
    pending := s.pending, free := s.free, out := s.out, dt := s.dt, mem := s.mem, health := s.health
    cds := tmap Cd.reset s.cds fun c => { Cd.reset with swaps := c.swaps, rowCopy := c.rowCopy, nc := { Nc.reset with perrClean := c.nc.perrClean } }
    cores := tmap Core.reset s.cores fun c => { Core.reset with dtReset := s.dt, entrySram := c.entrySram, localSram := c.localSram }
    xlat := { State.reset.xlat with walkersOut := s.xlat.walkersOut, nextFid := s.xlat.nextFid }
    fabric := { State.reset.fabric with
      links := tmap Link.reset s.fabric.links (linkKept true), owners := tmap Owner.reset s.fabric.owners fun o => { Owner.reset with high := o.high } }
    port := { State.reset.port with bindCount := s.port.bindCount }
    errors := { State.reset.errors with nextSeq := s.errors.nextSeq, sideband := s.errors.sideband }
    kiln := { State.reset.kiln with fails := s.kiln.fails, transient := s.kiln.transient, rotations := s.kiln.rotations, sweepDt := s.dt }
    phiro := { Phiro.reset with image := s.phiro.image, loadCount := s.phiro.loadCount, lastStatus := s.phiro.lastStatus }
    reeve := reeveNv s.reeve
    power := powerKept s.power cause }

/-- A cold reset begins for the cause that asked for it. -/
def coldBegins (s : State) (cause : Nat) : State :=
  if powered s && !s.power.rstLow && causeCold cause && s.power.rstReq == some cause then coldState s cause else s

/-- The moment of a reset that a REGW asked for (R606): the host has acknowledged its completion, or 1 ms has passed since. -/
def resetMoment (s : State) (cause : Nat) : State :=
  match s.power.rstAsk with
  | some (r, t) => if cause = 6 && !cplAcked s r then advanceTo s (t + dtMs) else s
  | none => s

/-- A warm reset begins. -/
def warmBegins (s : State) (cause : Nat) : State :=
  if powered s && !s.power.rstLow && (cause == 4 || cause == 6) && s.power.rstReq == some cause then warmState (resetMoment s cause) cause else s

/-! ### The 56 V input (R584–R588) and RST_N (R613) -/

/-- The input is lost: memory, grist and cask, the binding and all logic state are gone; MRAM keeps its content. -/
def inputLost (s : State) (st : InputState) : State :=
  let c := coldState s s.power.cause
  { c with mem := [], grist := [], health := { c.health with bad := [] },
           power := { c.power with input := st, powerLost := true, sensors := [], memThr := [], trip := false, thermtripN := true, rstLow := false,
                                   bootStep := 0, tapIr := 5 } }

/-- Low or high voltage sheds the load (R585). -/
def shed (s : State) : State := if powered s then inputLost s .shed else if s.power.input == .softStart then modPower s fun w => { w with input := .absent } else s

/-- The input has stayed within 50 to 59 V for 10 ms after a shed. -/
def inputBack (s : State) : State := if s.power.input == .shed then askReset (modPower s fun w => { w with input := .on }) 2 else s

/-- PRSNT_N has read low for 10 ms (R586). -/
def presenceLow (s : State) : State :=
  if s.power.input == .absent || s.power.input == .removed then modPower s fun w => { w with input := .softStart } else s

/-- Power good ends the soft start. -/
def powerGood (s : State) : State :=
  if s.power.input == .softStart then askReset (modPower s fun w => { w with input := .on, powerLost := true }) 1 else s

/-- PRSNT_N rises (R586, R587). -/
def removed (s : State) : State :=
  if s.power.input == .softStart then modPower s fun w => { w with input := .absent }
  else if s.power.input == .on || s.power.input == .shed then inputLost s .removed
  else s

/-- RST_N goes low. -/
def rstFalls (s : State) : State := if powered s then modPower s fun w => { w with rstLow := true } else s

/-- EXTEST, EXTEST_PULSE or EXTEST_TRAIN (log 1). -/
def isExtest (k : Nat) : Bool := k == 2 || k == 3 || k == 4

/-- RST_N returns high after a pulse of `ns`: none, a warm or a cold reset (R613); the driving TAP instructions end (R624). -/
def rstRises (s : State) (ns : Nat) : State :=
  if !s.power.rstLow then s
  else
    let s := modPower (advanceTo s (s.dt + 4 * ns)) fun w => { w with rstLow := false, tapIr := if isExtest w.tapIr then 5 else w.tapIr }
    if ns < 10000 then s else askReset s (if ns < 1000000000 then 4 else 3)

/-! ### Boot (R607) -/

/-- Step 1: MG up, straps sampled (R614). -/
def boot1 (s : State) (r : BootResult) : State :=
  modPower s fun w => { w with bootStep := max w.bootStep 1, bootMs := min (w.bootMs + r.ms) 0xFFFFFFFF, bootCause := w.cause,
                                straps := if w.bootStep = 0 then r.straps else w.straps, powerLost := false }

/-- INSERT_CNT counts a loss of input power once (Table 18-4). -/
def countInsert (s : State) : State :=
  if !s.power.powerLost then s
  else match nvWrite s areaId false with
    | (true, s) => modReeve s fun v => { v with insertCnt := min (v.insertCnt + 1) 0xFFFFFFFF }
    | (false, s) => s

/-- Step 2: Reeve boots (R573) and takes the newer valid settings bank (R564). -/
def boot2 (s : State) : State :=
  let s := reeveStart s
  let b := (newerSet s.reeve).getD SetBank.empty
  let s := modReeve s fun v => { v with net4 := b.net4, net6 := b.net6 }
  { s with kiln := { s.kiln with hours := b.kilnHours, en := b.kilnEn, sweepDt := s.dt } }

/-- Does the trip hold the device at step 2 (R595). -/
def tripHolds (s : State) : Bool := s.power.trip && notNormal s

/-- Step 3: links train (R467); one that does not is down. Ring links wait for the polder of both their CDs (R22). -/
def boot3 (s : State) (r : BootResult) : State :=
  let hub := (List.range 236).filter fun k => !(k < 216 && k % 9 == 8)
  let s := hub.foldl (fun s k => modLink s k fun l => { l with state := 2 }) s
  (r.linksDown.filter (· < 236)).foldl (fun s k => if (linkAt s k).state = 5 then s else declareDown s k) s

/-- Step 4: stacks and packages train; spares apply; a cold boot zeroes memory. -/
def boot4 (s : State) (r : BootResult) : State :=
  let s := (r.stacksOut.filter (· < 24)).foldl (fun s n => cdOut s n 0x62 0 0xFF) s
  let (k, s) := if r.fmOk then (0, s) else drawPick s 4
  let s := if r.fmOk then s else detect s (mkRec s (lsDevice (25 + k)) 0x62 3 (25 + k) 0 (errBytes {})) false
  let s := (List.range 24).foldl swapsNow s
  let s := (List.range 24).foldl (fun s n => if cdGone s n then modCd s n fun c => { c with state := 3 } else s) s
  if causeCold s.power.bootCause then { s with mem := [], grist := [], health := { s.health with bad := [] } } else s

/-- R81: the status of a refused boot image enters the persistent log. The manual gives the record no code and no SEQ, which are free (log 3);
that the status stands in EXTRA, that CLASS is 0 and DIE 31, and that the record takes no other path: DESIGN CHOICE, log 25. -/
def logStatus (s : State) (st : Nat) : State :=
  let (c, s) := drawFree s
  let (q, s) := drawFree s
  let r := { mkRec s (lsDevice 31) (c.toNat % 65536) 0 31 0 (errBytes { extra := st }) with seq := q.toNat % 2 ^ 32 }
  match nvWrite s areaLog false with
  | (true, s) => modReeve s fun v => { v with log := tset Record.none v.log (v.logNext % logMax) r, logNext := v.logNext + 1 }
  | (false, s) => s

/-- The loaded image reapplied after a warm reset (R603, R632): it zeroes nothing and counts as no load. -/
def reapply (s : State) : State :=
  match checkImage s s.phiro.image with
  | .error (st, _) => logStatus s st
  | .ok m =>
    let t := applyImage s s.phiro.image m
    { t with mem := s.mem, health := s.health, phiro := { t.phiro with lastStatus := s.phiro.lastStatus } }

/-- Step 5: the stored default (cold, R81) or the loaded image (warm) is checked and applied; its port settings come into use (R65). -/
def boot5 (s : State) : State :=
  let s :=
    if causeCold s.power.bootCause then
      match newerSet s.reeve with
      | some b =>
        if b.bootBs.isEmpty then s
        else
          let (st, _, s) := loadImage s b.bootBs
          if st = bsOk then s else logStatus s st
      | none => s
    else if s.phiro.image.isEmpty then s
    else reapply s
  { s with phiro := { s.phiro with eth := s.phiro.ethLoaded } }

/-- Step 6: the port trains in one of its modes, or is still trying (R488). -/
def boot6 (s : State) (mode : Nat) (inverted : Byte) : State :=
  if (portModes s).contains mode then
    modPower (portTrained s mode inverted) fun w => { w with bootStep := 6 }
  else modPower (modPort s fun o => { o with link := 1, tryMode := 0 }) fun w => { w with bootStep := 5 }

/-- A boot: steps 1 to 6, held at step 2 without bootable firmware (R574) or by a trip (R595). -/
def boot (s : State) (r : BootResult) : State :=
  if !powered s || s.power.rstLow || s.power.rstReq.isSome || 5 ≤ s.power.bootStep then s
  else
    let s := boot1 (countInsert (advanceTo s (s.dt + r.ms * dtMs))) r
    let s := { s with phiro := { s.phiro with coolId := r.cool } }
    let s := boot2 s
    if s.reeve.recovery || tripHolds s then s
    else
      let s := modPower s fun w => { w with trip := false, thermtripN := true }
      boot6 (boot5 (boot4 (boot3 s r) r)) r.mode r.inverted

/-! ### The test access port (R624) and package self-refresh (R597) -/

/-- The TAP executes an instruction; the driving ones only while RST_N is low; its reply is IDCODE, BYPASS's 0, or a register that the manual
does not lay out (log 3). -/
def tapExec (s : State) (code : Nat) : State :=
  if !powered s then s
  else
    let ir := if code < 2 || (isExtest code && s.power.rstLow) then code else 5
    let d : Word := if ir = 0 then 0x12432B35 else if ir = 5 then 0 else Config.tapData s.free
    send (modPower { s with free := s.free + 1 } fun w => { w with tapIr := ir }) (.tap d)

/-- A package that nothing has accessed for 100 µs enters self-refresh. -/
def packageSleeps (s : State) (pkg : Nat) : State :=
  if pkg < 32 then { s with health := { s.health with selfRefresh := tset false s.health.selfRefresh pkg true } } else s

/-! ### The commands -/

/-- SENSOR_SAMPLE (R594). -/
def execSensorSample (id : Nat) (value : Option Int) (s : State) : Result := done (sensorSample s id value)

/-- COOL_ID_SAMPLE (R68). -/
def execCoolIdSample (code : BitVec 3) (s : State) : Result := done (coolSample s code)

/-- GOVERNOR_EVALUATION (R590). -/
def execGovernorEvaluation (milliW : Nat) (s : State) : Result := done (governorEval s milliW)

/-- POWER_CLAMP (R590). -/
def execPowerClamp (milliW : Nat) (s : State) : Result := done (powerClamp s milliW)

/-- INPUT_UNDERVOLTAGE (R585). -/
def execInputUndervoltage (s : State) : Result := done (shed s)

/-- INPUT_OVERVOLTAGE (R585). -/
def execInputOvervoltage (s : State) : Result := done (shed s)

/-- INPUT_RESTORED (R585). -/
def execInputRestored (s : State) : Result := done (inputBack s)

/-- PRSNT_N_DEBOUNCED (R586). -/
def execPrsntNDebounced (s : State) : Result := done (presenceLow s)

/-- POWER_GOOD (R586). -/
def execPowerGood (s : State) : Result := done (powerGood s)

/-- REMOVAL (R587). -/
def execRemoval (s : State) : Result := done (removed s)

/-- RST_N_RELEASE (R613). -/
def execRstNRelease (lowNs : Nat) (s : State) : Result := done (rstRises s lowNs)

/-- COLD_RESET (R607). -/
def execColdReset (cause : Nat) (s : State) : Result := done (coldBegins s cause)

/-- WARM_RESET (R632). -/
def execWarmReset (cause : Nat) (s : State) : Result := done (warmBegins s cause)

/-- BOOT (R607). -/
def execBoot (r : BootResult) (s : State) : Result := done (boot s r)

/-- RST_N_ASSERT (R613). -/
def execRstNAssert (s : State) : Result := done (rstFalls s)

/-- TAP_INSTRUCTION (R624). -/
def execTapInstruction (code : Nat) (s : State) : Result := done (tapExec s code)

/-- PACKAGE_SELF_REFRESH (R597). -/
def execPackageSelfRefresh (pkg : Nat) (s : State) : Result := done (packageSleeps s pkg)

end Sys2Proof.Machine
end

