-- ==== Sys2Proof/Machine/RingDispatch.lean ====
section
/-! DEFINITION. A ring fetches its next command and performs it (R507, R509, R511, R512): the entry's layout (Tables 15-3, 15-4, 18-1). -/

namespace Sys2Proof.Machine

/-- The bits that Table 15-4 or 18-1 gives an opcode's operands: runs of (byte offset, first bit, bits). -/
def opcBits (opc : Nat) : List (Nat × Nat × Nat) :=
  let buf := [(0x08, 0, 8), (0x0C, 0, 32)]
  match opc with
  | 0x02 => [(0x08, 0, 40), (0x10, 0, 64)]
  | 0x10 => [(0x08, 0, 44), (0x10, 0, 32)]
  | 0x11 => buf
  | 0x12 => [(0x08, 0, 16), (0x0A, 0, 2), (0x10, 0, 64)]
  | 0x20 => [(0x08, 0, 4), (0x10, 0, 48)]
  | 0x21 => [(0x08, 0, 4)]
  | 0x22 => [(0x08, 0, 4), (0x09, 0, 1), (0x10, 0, 48)]
  | 0x23 => [(0x08, 0, 12), (0x0A, 0, 1)]
  | 0x24 => [(0x08, 0, 1)]
  | 0x26 => [(0x08, 0, 12), (0x20, 0, 256)]
  | 0x30 => [(0x08, 0, 48), (0x10, 0, 3), (0x10, 4, 3), (0x18, 0, 64), (0x20, 0, 64)]
  | 0x38 => [(0x08, 0, 3), (0x0A, 0, 16), (0x0C, 0, 32), (0x10, 0, 48), (0x18, 0, 48)]
  | 0x39 => [(0x08, 0, 32), (0x0C, 0, 1)]
  | 0x40 => [(0x08, 0, 16), (0x0A, 0, 2)]
  | 0x42 => [(0x08, 0, 48)]
  | 0x60 => [(0x08, 0, 2)]
  | 0x61 => [(0x08, 0, 8), (0x10, 0, 384)]
  | 0x62 => buf ++ [(0x20, 0, 256)]
  | 0x63 => buf
  | 0x64 => [(0x08, 0, 44)]
  | 0x65 => [(0x08, 0, 44)]
  | 0x66 => buf
  | 0x67 => [(0x08, 0, 44), (0x10, 0, 32)]
  | 0x69 => buf ++ [(0x10, 0, 64), (0x18, 0, 16)]
  | 0x6A => buf
  | _ => []

/-- The bits of a command entry that may hold ones: the header's and the operands'. A bit that the tables leave unassigned within an operand's
byte counts as reserved too (R8, R512, log 29). -/
def entryMask (opc : Nat) : Nat :=
  ([(0, 0, 8), (2, 0, 8), (4, 0, 32)] ++ opcBits opc).foldl (fun m (f : Nat × Nat × Nat) => m ||| (2 ^ f.2.2 - 1) <<< (8 * f.1 + f.2.1)) 0

/-- Does an entry hold a one in a reserved bit. -/
def entryReserved (opc w : Nat) : Bool := w &&& entryMask opc ≠ w

/-- Perform the command that an entry holds; `w` is its 64 bytes as one number. -/
def perform (s : State) (h : CmdHdr) (opc w : Nat) : State :=
  let f := fun (o b n : Nat) => bits w (8 * o + b) n
  let g := fun (o : Nat) => BitVec.ofNat 64 (f o 0 64)
  let bytes := bytesLE 64 w
  match opc with
  | 0x01 => nopCmd h s
  | 0x02 => regwCmd h (f 8 0 40) (g 0x10) s
  | 0x10 => bsLoad h (f 8 0 44) (f 0x10 0 32) s
  | 0x11 => bsReadback h (f 8 0 8) (f 0xC 0 32) s
  | 0x12 => if f 0xA 0 1 = 1 then bsFieldWrite h (f 8 0 16) (g 0x10) s else bsFieldRead h (f 8 0 16) (f 0xA 1 1 == 1) s
  | 0x20 => admitHost h (f 8 0 4) (f 0x10 0 48) s
  | 0x21 => withdrawCmd h (f 8 0 4) s
  | 0x22 => startCmd h (f 8 0 4) (if f 9 0 1 = 1 then some (f 0x10 0 48) else none) s
  | 0x23 => sluiceCmd h (f 8 0 12) (f 0xA 0 1 == 1) s
  | 0x24 => quiesceCmd h (f 8 0 1 == 1) s
  | 0x25 => resumeCmd h s
  | 0x26 => ttWriteCmd h (f 8 0 12) { w0 := g 0x20, w1 := g 0x28, w2 := g 0x30, w3 := g 0x38 } s
  | 0x30 => updateCmd h (f 8 0 48) (f 0x10 0 3) (f 0x10 4 3) (g 0x18) (g 0x20) s
  | 0x38 => xltInv h { scope := f 8 0 2, asid := f 0xA 0 16, va := f 0x10 0 48, len := f 0x18 0 48 } (f 8 2 1 == 1) (f 0xC 0 32) s
  | 0x39 => xltResumeCmd h (f 8 0 32) (f 0xC 0 1 == 1) s
  | 0x40 => unfreeze h (f 8 0 16) (f 0xA 0 2) s
  | 0x41 => breachReqCmd h s
  | 0x42 => coreStart h (f 8 0 48) s
  | 0x43 => coreIntCmd h s
  | 0x50 => unbindCmd h s
  | 0x60 => storeCmd h (BitVec.ofNat 2 (f 8 0 2)) s
  | 0x61 => setWrite h (f 8 0 8) (slice bytes 0x10 48) s
  | 0x62 => attestCmd h (f 8 0 8) (f 0xC 0 32) (slice bytes 0x20 32) s
  | 0x63 => idRead h (f 8 0 8) (f 0xC 0 32) s
  | 0x64 => ownerEnrol h (f 8 0 44) s
  | 0x65 => ownerWithdraw h (f 8 0 44) s
  | 0x66 => nonceCmd h (f 8 0 8) (f 0xC 0 32) s
  | 0x67 => fwUpdate h (f 8 0 44) (f 0x10 0 32) s
  | 0x68 => fwActivateCmd h s
  | 0x69 => logReadCmd h (f 8 0 8) (f 0xC 0 32) (f 0x10 0 64) (f 0x18 0 16) s
  | 0x6A => sensorRead h (f 8 0 8) (f 0xC 0 32) s
  | _ => s

/-- The context of NW's read of a ring entry (class 4, Table 2-7). -/
def ringCtx (s : State) (h : CmdHdr) : MemCtx := { src := 24, ls := lsCmd s h, cls := some 4, p := 0xFF, req := .ring h.ring }

/-- The physical address of the entry at HEAD (R507). -/
def entryAt (s : State) (r : Nat) : Nat := (ring s r).base * 4096 + 64 * ((ring s r).head % 2 ^ (ring s r).size)

/-- An entry that cannot be read: the manual gives the case no status, and neither OPC nor COOKIE is known, so those are free (log 29); its
record posts, and the entry carries CM_MEM. -/
def entryLost (s : State) (h : CmdHdr) (rec : Option Record) : State :=
  let (v, s) := drawFree s
  let h' := { h with cookie := v.toNat % 2 ^ 32 }
  let s := match rec with | some r => detect s r false | none => s
  completeSt s h' (v.toNat >>> 32 % 256) cmMem

/-- RING_COMMAND (R509): the ring reads the entry at HEAD; an undefined opcode and a reserved bit are violations of the ring, then the command acts by
its own rules. It waits while NW has no tag for the read (R480), the entry's frame is being copied (R408) or a trip stops memory traffic (R595). -/
def ringPerform (s : State) (r : Nat) : State :=
  let h0 : CmdHdr := { ring := r, pol := 0xFF, cookie := 0 }
  if 256 ≤ r || !ringReady s r then s
  else
    let m := ringCtx s h0
    let pa := entryAt s r
    if !physOpen s pa 64 then entryLost s h0 none
    else if s.power.trip || frameHeld s pa then s
    else if !tagFor s 24 (.ring r) then
      addWaiter s 24 { kind := 0, dest := homeDie pa, addr := pa, ls := lsCmd s h0, req := .ring r, first := false, granted := false }
    else match readSpan (dropWaiter s 24 (· == .ring r)) m (pieces pa 64) with
      | (.error (.uncorr cw), s) => entryLost s h0 (some (uncorrRec s m 1 cw))
      | (.error .lost, s) => entryLost s h0 none
      | (.ok b, s) =>
        let w := natLE b
        let opc := bits w 0 8
        let h : CmdHdr := { ring := r, pol := bits w 16 8, cookie := bits w 32 32 }
        if !opcDefined opc then violateRing s h opc 1
        else if entryReserved opc w then violateRing s h opc 2
        else perform s h opc w

/-- RING_COMMAND (R509). -/
def execRingCommand (ring : Nat) (s : State) : Result := done (ringPerform s ring)

end Sys2Proof.Machine
end

