-- ==== Sys2Proof/Machine/Dispatch.lean ====
section
/-! DEFINITION. The dispatch of a command to its meaning: one arm per constructor. -/

namespace Sys2Proof.Machine

/-- The effect of a command on everything but the queue: one meaning per row of the command table. -/
def exec (i : Instr) (s : State) : Host.Outcome State Fault Refusal :=
  match i with
  | .registerWrite path addr value => Sys2Proof.Machine.execRegisterWrite path addr value s
  | .nop h => Sys2Proof.Machine.execNop h s
  | .regw h off value => Sys2Proof.Machine.execRegw h off value s
  | .bsLoad h pa len => Sys2Proof.Machine.execBsLoad h pa len s
  | .loadZeroingDone => Sys2Proof.Machine.execLoadZeroingDone s
  | .bsReadback h hbuf off => Sys2Proof.Machine.execBsReadback h hbuf off s
  | .bsFieldWrite h off value => Sys2Proof.Machine.execBsFieldWrite h off value s
  | .bsFieldRead h off shadow => Sys2Proof.Machine.execBsFieldRead h off shadow s
  | .bsfDataWrite p o => Sys2Proof.Machine.execBsfDataWrite p o s
  | .bsfDataRead p o => Sys2Proof.Machine.execBsfDataRead p o s
  | .admitCmd h slot va => Sys2Proof.Machine.execAdmitCmd h slot va s
  | .rcpAdmit p o => Sys2Proof.Machine.execRcpAdmit p o s
  | .admission p => Sys2Proof.Machine.execAdmission p s
  | .withdraw h slot => Sys2Proof.Machine.execWithdraw h slot s
  | .rcpWithdraw p o => Sys2Proof.Machine.execRcpWithdraw p o s
  | .start h slot pb => Sys2Proof.Machine.execStart h slot pb s
  | .invStartWrite p o => Sys2Proof.Machine.execInvStartWrite p o s
  | .invocationStart p => Sys2Proof.Machine.execInvocationStart p s
  | .invocationComplete p => Sys2Proof.Machine.execInvocationComplete p s
  | .sluiceSet h sl => Sys2Proof.Machine.execSluiceSet h sl s
  | .sluiceClear h sl => Sys2Proof.Machine.execSluiceClear h sl s
  | .slCtlSet p o => Sys2Proof.Machine.execSlCtlSet p o s
  | .slCtlClear p o => Sys2Proof.Machine.execSlCtlClear p o s
  | .quiesce h => Sys2Proof.Machine.execQuiesce h s
  | .quiesceAbort h => Sys2Proof.Machine.execQuiesceAbort h s
  | .quiesceComplete p => Sys2Proof.Machine.execQuiesceComplete p s
  | .resume h => Sys2Proof.Machine.execResume h s
  | .ttWrite h index w0 w1 w2 w3 => Sys2Proof.Machine.execTtWrite h index w0 w1 w2 w3 s
  | .ttWindowWrite p index o => Sys2Proof.Machine.execTtWindowWrite p index o s
  | .update h addr op fmt x c => Sys2Proof.Machine.execUpdate h addr op fmt x c s
  | .xltInv h scope force asid gen va len => Sys2Proof.Machine.execXltInv h scope force asid gen va len s
  | .xltInvComplete p => Sys2Proof.Machine.execXltInvComplete p s
  | .xltResume h fid => Sys2Proof.Machine.execXltResume h fid s
  | .xltResumeFail h fid => Sys2Proof.Machine.execXltResumeFail h fid s
  | .unfreezeResume h master => Sys2Proof.Machine.execUnfreezeResume h master s
  | .unfreezeDeliver h master => Sys2Proof.Machine.execUnfreezeDeliver h master s
  | .unfreezeReset h master => Sys2Proof.Machine.execUnfreezeReset h master s
  | .breachReq h => Sys2Proof.Machine.execBreachReq h s
  | .breachRequestTaken p => Sys2Proof.Machine.execBreachRequestTaken p s
  | .coreStart h addr => Sys2Proof.Machine.execCoreStart h addr s
  | .coreInt h => Sys2Proof.Machine.execCoreInt h s
  | .unbind h => Sys2Proof.Machine.execUnbind h s
  | .undefinedCommand h opc reserved => Sys2Proof.Machine.execUndefinedCommand h opc reserved s
  | .store h bs => Sys2Proof.Machine.execStore h bs s
  | .setWrite h type value => Sys2Proof.Machine.execSetWrite h type value s
  | .attest h hbuf off nonce => Sys2Proof.Machine.execAttest h hbuf off nonce s
  | .idRead h hbuf off => Sys2Proof.Machine.execIdRead h hbuf off s
  | .ownerEnrol h pa => Sys2Proof.Machine.execOwnerEnrol h pa s
  | .ownerWithdraw h pa => Sys2Proof.Machine.execOwnerWithdraw h pa s
  | .nonce h hbuf off => Sys2Proof.Machine.execNonce h hbuf off s
  | .nonceExpiry => Sys2Proof.Machine.execNonceExpiry s
  | .fwUpdate h pa len => Sys2Proof.Machine.execFwUpdate h pa len s
  | .fwActivate h => Sys2Proof.Machine.execFwActivate h s
  | .logRead path hbuf off first count => Sys2Proof.Machine.execLogRead path hbuf off first count s
  | .sensorRead h hbuf off => Sys2Proof.Machine.execSensorRead h hbuf off s
  | .doorbell imm => Sys2Proof.Machine.execDoorbell imm s
  | .ringCommand ring => Sys2Proof.Machine.execRingCommand ring s
  | .cplConsWrite ring value => Sys2Proof.Machine.execCplConsWrite ring value s
  | .ringEnable ring value => Sys2Proof.Machine.execRingEnable ring value s
  | .ringDisable ring value => Sys2Proof.Machine.execRingDisable ring value s
  | .evqEnable value => Sys2Proof.Machine.execEvqEnable value s
  | .evqDisable value => Sys2Proof.Machine.execEvqDisable value s
  | .evqConsWrite value => Sys2Proof.Machine.execEvqConsWrite value s
  | .coalesceWindowEnd w => Sys2Proof.Machine.execCoalesceWindowEnd w s
  | .pendingErrorHandle scope => Sys2Proof.Machine.execPendingErrorHandle scope s
  | .matrix p j => Sys2Proof.Machine.execMatrix p j s
  | .chain p j => Sys2Proof.Machine.execChain p j s
  | .vmap p j => Sys2Proof.Machine.execVmap p j s
  | .vnorm p j => Sys2Proof.Machine.execVnorm p j s
  | .vmerge p j => Sys2Proof.Machine.execVmerge p j s
  | .vmergeRescale p j => Sys2Proof.Machine.execVmergeRescale p j s
  | .vmergeNormalise p j => Sys2Proof.Machine.execVmergeNormalise p j s
  | .vsample p j => Sys2Proof.Machine.execVsample p j s
  | .vsampleIndices p j => Sys2Proof.Machine.execVsampleIndices p j s
  | .vsampleCommit p j => Sys2Proof.Machine.execVsampleCommit p j s
  | .vaccept p j => Sys2Proof.Machine.execVaccept p j s
  | .vcompactAppend p j => Sys2Proof.Machine.execVcompactAppend p j s
  | .vcompactMove p j => Sys2Proof.Machine.execVcompactMove p j s
  | .vcompactGather p j => Sys2Proof.Machine.execVcompactGather p j s
  | .mcopy p j => Sys2Proof.Machine.execMcopy p j s
  | .mupdate p j => Sys2Proof.Machine.execMupdate p j s
  | .mfill p j => Sys2Proof.Machine.execMfill p j s
  | .mevent p j => Sys2Proof.Machine.execMevent p j s
  | .callred p j => Sys2Proof.Machine.execCallred p j s
  | .cbcast p j => Sys2Proof.Machine.execCbcast p j s
  | .cgather p j => Sys2Proof.Machine.execCgather p j s
  | .chalo p j => Sys2Proof.Machine.execChalo p j s
  | .descriptorComplete p j => Sys2Proof.Machine.execDescriptorComplete p j s
  | .seqStall p queue => Sys2Proof.Machine.execSeqStall p queue s
  | .positionWake p pos => Sys2Proof.Machine.execPositionWake p pos s
  | .positionWakeDone p pos => Sys2Proof.Machine.execPositionWakeDone p pos s
  | .positionSleep p pos off => Sys2Proof.Machine.execPositionSleep p pos off s
  | .accumulationGroupClose p g => Sys2Proof.Machine.execAccumulationGroupClose p g s
  | .orderedUpdate w u => Sys2Proof.Machine.execOrderedUpdate w u s
  | .endMarker w src => Sys2Proof.Machine.execEndMarker w src s
  | .unorderedUpdate req m => Sys2Proof.Machine.execUnorderedUpdate req m s
  | .memoryRead r => Sys2Proof.Machine.execMemoryRead r s
  | .memoryWrite r data => Sys2Proof.Machine.execMemoryWrite r data s
  | .fmRetire pa => Sys2Proof.Machine.execFmRetire pa s
  | .fmRetireCopyDone pa => Sys2Proof.Machine.execFmRetireCopyDone pa s
  | .stackTempSample unit milliC => Sys2Proof.Machine.execStackTempSample unit milliC s
  | .ncFlush cd => Sys2Proof.Machine.execNcFlush cd s
  | .ncFlushDone cd => Sys2Proof.Machine.execNcFlushDone cd s
  | .ncInv cd => Sys2Proof.Machine.execNcInv cd s
  | .ncInvDone cd => Sys2Proof.Machine.execNcInvDone cd s
  | .ncEnable cd => Sys2Proof.Machine.execNcEnable cd s
  | .ncDisable cd => Sys2Proof.Machine.execNcDisable cd s
  | .ncDisableDone cd => Sys2Proof.Machine.execNcDisableDone cd s
  | .localWalk q => Sys2Proof.Machine.execLocalWalk q s
  | .ctuWalk q => Sys2Proof.Machine.execCtuWalk q s
  | .walkComplete walker => Sys2Proof.Machine.execWalkComplete walker s
  | .flitRx link back f lanes => Sys2Proof.Machine.execFlitRx link back f lanes s
  | .replayRequest side first => Sys2Proof.Machine.execReplayRequest side first s
  | .laneRemap link => Sys2Proof.Machine.execLaneRemap link s
  | .retrainDone link ok => Sys2Proof.Machine.execRetrainDone link ok s
  | .hubOut hub => Sys2Proof.Machine.execHubOut hub s
  | .issueBroadcast p => Sys2Proof.Machine.execIssueBroadcast p s
  | .reductionContribution k src data => Sys2Proof.Machine.execReductionContribution k src data s
  | .reductionResult k => Sys2Proof.Machine.execReductionResult k s
  | .tagGrant owner => Sys2Proof.Machine.execTagGrant owner s
  | .response owner num gen => Sys2Proof.Machine.execResponse owner num gen s
  | .txTimeout owner num => Sys2Proof.Machine.execTxTimeout owner num s
  | .highClr owner => Sys2Proof.Machine.execHighClr owner s
  | .frameRx f => Sys2Proof.Machine.execFrameRx f s
  | .portTrainAttempt r => Sys2Proof.Machine.execPortTrainAttempt r s
  | .arp ip from_ => Sys2Proof.Machine.execArp ip from_ s
  | .neighbourDiscovery ip from_ => Sys2Proof.Machine.execNeighbourDiscovery ip from_ s
  | .icmpEcho from_ data => Sys2Proof.Machine.execIcmpEcho from_ data s
  | .cmReq q => Sys2Proof.Machine.execCmReq q s
  | .cmRtu conn from_ => Sys2Proof.Machine.execCmRtu conn from_ s
  | .cmDreq conn from_ => Sys2Proof.Machine.execCmDreq conn from_ s
  | .send conn payload => Sys2Proof.Machine.execSend conn payload s
  | .sendWithImmediate conn payload imm => Sys2Proof.Machine.execSendWithImmediate conn payload imm s
  | .rdmaWrite conn rkey va data => Sys2Proof.Machine.execRdmaWrite conn rkey va data s
  | .rdmaWriteWithImmediate conn rkey va data imm => Sys2Proof.Machine.execRdmaWriteWithImmediate conn rkey va data imm s
  | .rdmaRead conn rkey va len => Sys2Proof.Machine.execRdmaRead conn rkey va len s
  | .hostAck num => Sys2Proof.Machine.execHostAck num s
  | .connectionRetryExhausted conn => Sys2Proof.Machine.execConnectionRetryExhausted conn s
  | .cnp conn => Sys2Proof.Machine.execCnp conn s
  | .rateIncrease conn => Sys2Proof.Machine.execRateIncrease conn s
  | .pfcFrame prios pause => Sys2Proof.Machine.execPfcFrame prios pause s
  | .pfcWeir prio bytes => Sys2Proof.Machine.execPfcWeir prio bytes s
  | .getVersion from_ => Sys2Proof.Machine.execGetVersion from_ s
  | .getCapabilities from_ => Sys2Proof.Machine.execGetCapabilities from_ s
  | .negotiateAlgorithms from_ ecdsaP256 sha256 => Sys2Proof.Machine.execNegotiateAlgorithms from_ ecdsaP256 sha256 s
  | .getDigests from_ => Sys2Proof.Machine.execGetDigests from_ s
  | .getCertificate from_ slot off len => Sys2Proof.Machine.execGetCertificate from_ slot off len s
  | .challenge from_ nonce => Sys2Proof.Machine.execChallenge from_ nonce s
  | .bindReq from_ => Sys2Proof.Machine.execBindReq from_ s
  | .bind from_ sig mac ip => Sys2Proof.Machine.execBind from_ sig mac ip s
  | .bindTimeout => Sys2Proof.Machine.execBindTimeout s
  | .getMeasurements index nonce => Sys2Proof.Machine.execGetMeasurements index nonce s
  | .keyExchange ownerAuth => Sys2Proof.Machine.execKeyExchange ownerAuth s
  | .setEndpointId eid => Sys2Proof.Machine.execSetEndpointId eid s
  | .mctpDiscovery query => Sys2Proof.Machine.execMctpDiscovery query s
  | .pldmBase query => Sys2Proof.Machine.execPldmBase query s
  | .getSensorReading id => Sys2Proof.Machine.execGetSensorReading id s
  | .forceUnbind secured => Sys2Proof.Machine.execForceUnbind secured s
  | .requestUpdate image => Sys2Proof.Machine.execRequestUpdate image s
  | .activateFirmware => Sys2Proof.Machine.execActivateFirmware s
  | .sensorSample id value => Sys2Proof.Machine.execSensorSample id value s
  | .coolIdSample code => Sys2Proof.Machine.execCoolIdSample code s
  | .governorEvaluation milliW => Sys2Proof.Machine.execGovernorEvaluation milliW s
  | .powerClamp milliW => Sys2Proof.Machine.execPowerClamp milliW s
  | .timer p => Sys2Proof.Machine.execTimer p s
  | .timerCmpWrite p o => Sys2Proof.Machine.execTimerCmpWrite p o s
  | .interrupt p => Sys2Proof.Machine.execInterrupt p s
  | .storeBufferDrain p => Sys2Proof.Machine.execStoreBufferDrain p s
  | .add p gd ga gb => Sys2Proof.Machine.execAdd p gd ga gb s
  | .sub p gd ga gb => Sys2Proof.Machine.execSub p gd ga gb s
  | .and_ p gd ga gb => Sys2Proof.Machine.execAnd p gd ga gb s
  | .or_ p gd ga gb => Sys2Proof.Machine.execOr p gd ga gb s
  | .xor_ p gd ga gb => Sys2Proof.Machine.execXor p gd ga gb s
  | .sll p gd ga gb => Sys2Proof.Machine.execSll p gd ga gb s
  | .srl p gd ga gb => Sys2Proof.Machine.execSrl p gd ga gb s
  | .sra p gd ga gb => Sys2Proof.Machine.execSra p gd ga gb s
  | .slt p gd ga gb => Sys2Proof.Machine.execSlt p gd ga gb s
  | .sltu p gd ga gb => Sys2Proof.Machine.execSltu p gd ga gb s
  | .min p gd ga gb => Sys2Proof.Machine.execMin p gd ga gb s
  | .max p gd ga gb => Sys2Proof.Machine.execMax p gd ga gb s
  | .minu p gd ga gb => Sys2Proof.Machine.execMinu p gd ga gb s
  | .maxu p gd ga gb => Sys2Proof.Machine.execMaxu p gd ga gb s
  | .addW p gd ga gb => Sys2Proof.Machine.execAddW p gd ga gb s
  | .subW p gd ga gb => Sys2Proof.Machine.execSubW p gd ga gb s
  | .sllW p gd ga gb => Sys2Proof.Machine.execSllW p gd ga gb s
  | .srlW p gd ga gb => Sys2Proof.Machine.execSrlW p gd ga gb s
  | .sraW p gd ga gb => Sys2Proof.Machine.execSraW p gd ga gb s
  | .mul p gd ga gb => Sys2Proof.Machine.execMul p gd ga gb s
  | .mulh p gd ga gb => Sys2Proof.Machine.execMulh p gd ga gb s
  | .mulhu p gd ga gb => Sys2Proof.Machine.execMulhu p gd ga gb s
  | .div p gd ga gb => Sys2Proof.Machine.execDiv p gd ga gb s
  | .divu p gd ga gb => Sys2Proof.Machine.execDivu p gd ga gb s
  | .rem p gd ga gb => Sys2Proof.Machine.execRem p gd ga gb s
  | .remu p gd ga gb => Sys2Proof.Machine.execRemu p gd ga gb s
  | .mulW p gd ga gb => Sys2Proof.Machine.execMulW p gd ga gb s
  | .divW p gd ga gb => Sys2Proof.Machine.execDivW p gd ga gb s
  | .divuW p gd ga gb => Sys2Proof.Machine.execDivuW p gd ga gb s
  | .remW p gd ga gb => Sys2Proof.Machine.execRemW p gd ga gb s
  | .remuW p gd ga gb => Sys2Proof.Machine.execRemuW p gd ga gb s
  | .clz p gd ga => Sys2Proof.Machine.execClz p gd ga s
  | .ctz p gd ga => Sys2Proof.Machine.execCtz p gd ga s
  | .popc p gd ga => Sys2Proof.Machine.execPopc p gd ga s
  | .par p gd ga => Sys2Proof.Machine.execPar p gd ga s
  | .brev p gd ga => Sys2Proof.Machine.execBrev p gd ga s
  | .bswap p gd ga => Sys2Proof.Machine.execBswap p gd ga s
  | .clzW p gd ga => Sys2Proof.Machine.execClzW p gd ga s
  | .ctzW p gd ga => Sys2Proof.Machine.execCtzW p gd ga s
  | .popcW p gd ga => Sys2Proof.Machine.execPopcW p gd ga s
  | .parW p gd ga => Sys2Proof.Machine.execParW p gd ga s
  | .brevW p gd ga => Sys2Proof.Machine.execBrevW p gd ga s
  | .bswapW p gd ga => Sys2Proof.Machine.execBswapW p gd ga s
  | .crc32 p gd ga gb sz => Sys2Proof.Machine.execCrc32 p gd ga gb sz s
  | .crc32c p gd ga gb sz => Sys2Proof.Machine.execCrc32c p gd ga gb sz s
  | .crcb p gd ga gb => Sys2Proof.Machine.execCrcb p gd ga gb s
  | .crcbC p gd ga gb => Sys2Proof.Machine.execCrcbC p gd ga gb s
  | .fadd p single gd ga gb => Sys2Proof.Machine.execFadd p single gd ga gb s
  | .fsub p single gd ga gb => Sys2Proof.Machine.execFsub p single gd ga gb s
  | .fmul p single gd ga gb => Sys2Proof.Machine.execFmul p single gd ga gb s
  | .fdiv p single gd ga gb => Sys2Proof.Machine.execFdiv p single gd ga gb s
  | .fsqrt p single gd ga => Sys2Proof.Machine.execFsqrt p single gd ga s
  | .fma p single gd ga gb => Sys2Proof.Machine.execFma p single gd ga gb s
  | .fmin p single gd ga gb => Sys2Proof.Machine.execFmin p single gd ga gb s
  | .fmax p single gd ga gb => Sys2Proof.Machine.execFmax p single gd ga gb s
  | .feq p single gd ga gb => Sys2Proof.Machine.execFeq p single gd ga gb s
  | .flt p single gd ga gb => Sys2Proof.Machine.execFlt p single gd ga gb s
  | .fle p single gd ga gb => Sys2Proof.Machine.execFle p single gd ga gb s
  | .fneg p single gd ga => Sys2Proof.Machine.execFneg p single gd ga s
  | .fabs p single gd ga => Sys2Proof.Machine.execFabs p single gd ga s
  | .fsgnj p single gd ga gb => Sys2Proof.Machine.execFsgnj p single gd ga gb s
  | .fkind p single gd ga => Sys2Proof.Machine.execFkind p single gd ga s
  | .fcvtF p single gd ga => Sys2Proof.Machine.execFcvtF p single gd ga s
  | .fcvtL p single gd ga => Sys2Proof.Machine.execFcvtL p single gd ga s
  | .fcvtLz p single gd ga => Sys2Proof.Machine.execFcvtLz p single gd ga s
  | .fcvtWi p single gd ga => Sys2Proof.Machine.execFcvtWi p single gd ga s
  | .fcvtWz p single gd ga => Sys2Proof.Machine.execFcvtWz p single gd ga s
  | .icvt p single gd ga => Sys2Proof.Machine.execIcvt p single gd ga s
  | .ucvt p single gd ga => Sys2Proof.Machine.execUcvt p single gd ga s
  | .addi p gd ga imm => Sys2Proof.Machine.execAddi p gd ga imm s
  | .andi p gd ga imm => Sys2Proof.Machine.execAndi p gd ga imm s
  | .ori p gd ga imm => Sys2Proof.Machine.execOri p gd ga imm s
  | .xori p gd ga imm => Sys2Proof.Machine.execXori p gd ga imm s
  | .lui p gd imm => Sys2Proof.Machine.execLui p gd imm s
  | .slti p gd ga imm => Sys2Proof.Machine.execSlti p gd ga imm s
  | .slli p gd ga sh => Sys2Proof.Machine.execSlli p gd ga sh s
  | .srli p gd ga sh => Sys2Proof.Machine.execSrli p gd ga sh s
  | .srai p gd ga sh => Sys2Proof.Machine.execSrai p gd ga sh s
  | .shori p gd ga imm => Sys2Proof.Machine.execShori p gd ga imm s
  | .ldB p gd ga disp => Sys2Proof.Machine.execLdB p gd ga disp s
  | .ldBu p gd ga disp => Sys2Proof.Machine.execLdBu p gd ga disp s
  | .ldH p gd ga disp => Sys2Proof.Machine.execLdH p gd ga disp s
  | .ldHu p gd ga disp => Sys2Proof.Machine.execLdHu p gd ga disp s
  | .ldW p gd ga disp => Sys2Proof.Machine.execLdW p gd ga disp s
  | .ldWu p gd ga disp => Sys2Proof.Machine.execLdWu p gd ga disp s
  | .ldD p gd ga disp => Sys2Proof.Machine.execLdD p gd ga disp s
  | .stB p gs ga disp => Sys2Proof.Machine.execStB p gs ga disp s
  | .stH p gs ga disp => Sys2Proof.Machine.execStH p gs ga disp s
  | .stW p gs ga disp => Sys2Proof.Machine.execStW p gs ga disp s
  | .stD p gs ga disp => Sys2Proof.Machine.execStD p gs ga disp s
  | .amoadd p gd ga gb dbl => Sys2Proof.Machine.execAmoadd p gd ga gb dbl s
  | .amoswap p gd ga gb dbl => Sys2Proof.Machine.execAmoswap p gd ga gb dbl s
  | .amocas p gd ga gb dbl => Sys2Proof.Machine.execAmocas p gd ga gb dbl s
  | .inW p gd ga disp => Sys2Proof.Machine.execInW p gd ga disp s
  | .inD p gd ga disp => Sys2Proof.Machine.execInD p gd ga disp s
  | .outW p gd ga gb => Sys2Proof.Machine.execOutW p gd ga gb s
  | .outD p gd ga gb => Sys2Proof.Machine.execOutD p gd ga gb s
  | .beq p ga gb off => Sys2Proof.Machine.execBeq p ga gb off s
  | .bne p ga gb off => Sys2Proof.Machine.execBne p ga gb off s
  | .blt p ga gb off => Sys2Proof.Machine.execBlt p ga gb off s
  | .bge p ga gb off => Sys2Proof.Machine.execBge p ga gb off s
  | .bltu p ga gb off => Sys2Proof.Machine.execBltu p ga gb off s
  | .bgeu p ga gb off => Sys2Proof.Machine.execBgeu p ga gb off s
  | .jmp p off => Sys2Proof.Machine.execJmp p off s
  | .call p off => Sys2Proof.Machine.execCall p off s
  | .jr p ga => Sys2Proof.Machine.execJr p ga s
  | .callr p gd ga => Sys2Proof.Machine.execCallr p gd ga s
  | .csrr p gd csr => Sys2Proof.Machine.execCsrr p gd csr s
  | .csrw p gd ga csr => Sys2Proof.Machine.execCsrw p gd ga csr s
  | .csrs p gd ga csr => Sys2Proof.Machine.execCsrs p gd ga csr s
  | .csrc p gd ga csr => Sys2Proof.Machine.execCsrc p gd ga csr s
  | .syncC p => Sys2Proof.Machine.execSyncC p s
  | .syncI p => Sys2Proof.Machine.execSyncI p s
  | .fence p => Sys2Proof.Machine.execFence p s
  | .wait p => Sys2Proof.Machine.execWait p s
  | .rfe p => Sys2Proof.Machine.execRfe p s
  | .trap p code => Sys2Proof.Machine.execTrap p code s
  | .dcInv p ga => Sys2Proof.Machine.execDcInv p ga s
  | .dcInvall p => Sys2Proof.Machine.execDcInvall p s
  | .reservedOpcode p word => Sys2Proof.Machine.execReservedOpcode p word s
  | .mlds p gm gb => Sys2Proof.Machine.execMlds p gm gb s
  | .mstream p gm ga => Sys2Proof.Machine.execMstream p gm ga s
  | .mma8 p gm ga gb => Sys2Proof.Machine.execMma8 p gm ga gb s
  | .setvl p gd ga imm => Sys2Proof.Machine.execSetvl p gd ga imm s
  | .vfadd p o => Sys2Proof.Machine.execVfadd p o s
  | .vfsub p o => Sys2Proof.Machine.execVfsub p o s
  | .vfmul p o => Sys2Proof.Machine.execVfmul p o s
  | .vfdiv p o => Sys2Proof.Machine.execVfdiv p o s
  | .vfsqrt p o => Sys2Proof.Machine.execVfsqrt p o s
  | .vfma p o => Sys2Proof.Machine.execVfma p o s
  | .vfnma p o => Sys2Proof.Machine.execVfnma p o s
  | .vfmin p o => Sys2Proof.Machine.execVfmin p o s
  | .vfmax p o => Sys2Proof.Machine.execVfmax p o s
  | .vfeq p o => Sys2Proof.Machine.execVfeq p o s
  | .vflt p o => Sys2Proof.Machine.execVflt p o s
  | .vfle p o => Sys2Proof.Machine.execVfle p o s
  | .vfneg p o => Sys2Proof.Machine.execVfneg p o s
  | .vfabs p o => Sys2Proof.Machine.execVfabs p o s
  | .vfsgnj p o => Sys2Proof.Machine.execVfsgnj p o s
  | .vfkind p o => Sys2Proof.Machine.execVfkind p o s
  | .vadd p o => Sys2Proof.Machine.execVadd p o s
  | .vsub p o => Sys2Proof.Machine.execVsub p o s
  | .vmul p o => Sys2Proof.Machine.execVmul p o s
  | .vmulh p o => Sys2Proof.Machine.execVmulh p o s
  | .vmulhu p o => Sys2Proof.Machine.execVmulhu p o s
  | .vand p o => Sys2Proof.Machine.execVand p o s
  | .vor p o => Sys2Proof.Machine.execVor p o s
  | .vxor p o => Sys2Proof.Machine.execVxor p o s
  | .vsll p o => Sys2Proof.Machine.execVsll p o s
  | .vsrl p o => Sys2Proof.Machine.execVsrl p o s
  | .vsra p o => Sys2Proof.Machine.execVsra p o s
  | .vmin p o => Sys2Proof.Machine.execVmin p o s
  | .vmax p o => Sys2Proof.Machine.execVmax p o s
  | .vminu p o => Sys2Proof.Machine.execVminu p o s
  | .vmaxu p o => Sys2Proof.Machine.execVmaxu p o s
  | .vsadd p o => Sys2Proof.Machine.execVsadd p o s
  | .vssub p o => Sys2Proof.Machine.execVssub p o s
  | .vsaddu p o => Sys2Proof.Machine.execVsaddu p o s
  | .vssubu p o => Sys2Proof.Machine.execVssubu p o s
  | .vmseq p o => Sys2Proof.Machine.execVmseq p o s
  | .vmslt p o => Sys2Proof.Machine.execVmslt p o s
  | .vmsltu p o => Sys2Proof.Machine.execVmsltu p o s
  | .vsel p o => Sys2Proof.Machine.execVsel p o s
  | .vmv p o => Sys2Proof.Machine.execVmv p o s
  | .vld p o => Sys2Proof.Machine.execVld p o s
  | .vlds p o => Sys2Proof.Machine.execVlds p o s
  | .vldx p o => Sys2Proof.Machine.execVldx p o s
  | .vldff p o => Sys2Proof.Machine.execVldff p o s
  | .vldg p o => Sys2Proof.Machine.execVldg p o s
  | .vldm p o => Sys2Proof.Machine.execVldm p o s
  | .vst p o => Sys2Proof.Machine.execVst p o s
  | .vsts p o => Sys2Proof.Machine.execVsts p o s
  | .vstx p o => Sys2Proof.Machine.execVstx p o s
  | .vstg p o => Sys2Proof.Machine.execVstg p o s
  | .vstm p o => Sys2Proof.Machine.execVstm p o s
  | .vperm p o => Sys2Proof.Machine.execVperm p o s
  | .vslideup p o => Sys2Proof.Machine.execVslideup p o s
  | .vslidedn p o => Sys2Proof.Machine.execVslidedn p o s
  | .vcompress p o => Sys2Proof.Machine.execVcompress p o s
  | .viota p o => Sys2Proof.Machine.execViota p o s
  | .vredAdd p o => Sys2Proof.Machine.execVredAdd p o s
  | .vredMin p o => Sys2Proof.Machine.execVredMin p o s
  | .vredMax p o => Sys2Proof.Machine.execVredMax p o s
  | .vredMinu p o => Sys2Proof.Machine.execVredMinu p o s
  | .vredMaxu p o => Sys2Proof.Machine.execVredMaxu p o s
  | .vscanAdd p o => Sys2Proof.Machine.execVscanAdd p o s
  | .vscanMin p o => Sys2Proof.Machine.execVscanMin p o s
  | .vscanMax p o => Sys2Proof.Machine.execVscanMax p o s
  | .vscanMinu p o => Sys2Proof.Machine.execVscanMinu p o s
  | .vscanMaxu p o => Sys2Proof.Machine.execVscanMaxu p o s
  | .vmand p o => Sys2Proof.Machine.execVmand p o s
  | .vmor p o => Sys2Proof.Machine.execVmor p o s
  | .vmxor p o => Sys2Proof.Machine.execVmxor p o s
  | .vmandn p o => Sys2Proof.Machine.execVmandn p o s
  | .vpopc p o => Sys2Proof.Machine.execVpopc p o s
  | .vfirst p o => Sys2Proof.Machine.execVfirst p o s
  | .vredFadd p o => Sys2Proof.Machine.execVredFadd p o s
  | .vredFmin p o => Sys2Proof.Machine.execVredFmin p o s
  | .vredFmax p o => Sys2Proof.Machine.execVredFmax p o s
  | .vscanFadd p o => Sys2Proof.Machine.execVscanFadd p o s
  | .vscanFmin p o => Sys2Proof.Machine.execVscanFmin p o s
  | .vscanFmax p o => Sys2Proof.Machine.execVscanFmax p o s
  | .reductionResultReturn p => Sys2Proof.Machine.execReductionResultReturn p s
  | .vexp p o => Sys2Proof.Machine.execVexp p o s
  | .vlog p o => Sys2Proof.Machine.execVlog p o s
  | .vrsqrt p o => Sys2Proof.Machine.execVrsqrt p o s
  | .vtanh p o => Sys2Proof.Machine.execVtanh p o s
  | .verf p o => Sys2Proof.Machine.execVerf p o s
  | .vsigm p o => Sys2Proof.Machine.execVsigm p o s
  | .vsilu p o => Sys2Proof.Machine.execVsilu p o s
  | .vgelu p o => Sys2Proof.Machine.execVgelu p o s
  | .vcvtF p o => Sys2Proof.Machine.execVcvtF p o s
  | .vcvtFs p o => Sys2Proof.Machine.execVcvtFs p o s
  | .vcvtI p o => Sys2Proof.Machine.execVcvtI p o s
  | .vcvtIz p o => Sys2Proof.Machine.execVcvtIz p o s
  | .vcvtU p o => Sys2Proof.Machine.execVcvtU p o s
  | .vcvtUz p o => Sys2Proof.Machine.execVcvtUz p o s
  | .vqmx p o => Sys2Proof.Machine.execVqmx p o s
  | .vdqmx p o => Sys2Proof.Machine.execVdqmx p o s
  | .vpopw p o => Sys2Proof.Machine.execVpopw p o s
  | .vpopwNb p o => Sys2Proof.Machine.execVpopwNb p o s
  | .vpushw p o => Sys2Proof.Machine.execVpushw p o s
  | .vmvX p o => Sys2Proof.Machine.execVmvX p o s
  | .vmvS p o => Sys2Proof.Machine.execVmvS p o s
  | .vwait p => Sys2Proof.Machine.execVwait p s
  | .kilnStep u step got again => Sys2Proof.Machine.execKilnStep u step got again s
  | .kilnPreempt u => Sys2Proof.Machine.execKilnPreempt u s
  | .scrub pa => Sys2Proof.Machine.execScrub pa s
  | .kilnLate => Sys2Proof.Machine.execKilnLate s
  | .kilnEnable value => Sys2Proof.Machine.execKilnEnable value s
  | .kilnDisable value => Sys2Proof.Machine.execKilnDisable value s
  | .rowRepair cd row => Sys2Proof.Machine.execRowRepair cd row s
  | .dieSwap cd die => Sys2Proof.Machine.execDieSwap cd die s
  | .waySwap cd way => Sys2Proof.Machine.execWaySwap cd way s
  | .spareSwap cd => Sys2Proof.Machine.execSpareSwap cd s
  | .spareCopyDone cd => Sys2Proof.Machine.execSpareCopyDone cd s
  | .inputUndervoltage => Sys2Proof.Machine.execInputUndervoltage s
  | .inputOvervoltage => Sys2Proof.Machine.execInputOvervoltage s
  | .inputRestored => Sys2Proof.Machine.execInputRestored s
  | .prsntNDebounced => Sys2Proof.Machine.execPrsntNDebounced s
  | .powerGood => Sys2Proof.Machine.execPowerGood s
  | .removal => Sys2Proof.Machine.execRemoval s
  | .rstNRelease lowNs => Sys2Proof.Machine.execRstNRelease lowNs s
  | .coldReset cause => Sys2Proof.Machine.execColdReset cause s
  | .warmReset cause => Sys2Proof.Machine.execWarmReset cause s
  | .polderReset p => Sys2Proof.Machine.execPolderReset p s
  | .coreReset p => Sys2Proof.Machine.execCoreReset p s
  | .boot r => Sys2Proof.Machine.execBoot r s
  | .portLinkDown => Sys2Proof.Machine.execPortLinkDown s
  | .rstNAssert => Sys2Proof.Machine.execRstNAssert s
  | .tapInstruction code => Sys2Proof.Machine.execTapInstruction code s
  | .packageSelfRefresh pkg => Sys2Proof.Machine.execPackageSelfRefresh pkg s
  | .storeComplete ok => Sys2Proof.Machine.execStoreComplete ok s
  | .fwWrittenVerified ok => Sys2Proof.Machine.execFwWrittenVerified ok s
  | .polderResetComplete p => Sys2Proof.Machine.execPolderResetComplete p s
  | .rowCopyComplete cd row => Sys2Proof.Machine.execRowCopyComplete cd row s

end Sys2Proof.Machine
end

