-- ==== Sys2Proof/Machine/CoreDecode.lean ====
section
/-! DEFINITION. The decoder of the Coxel core's instruction words, from the tables that Machine/CoreWord.lean encodes from. Lean's
compiler builds no code for a constructor beyond the 245th of an inductive type, so these definitions carry the word noncomputable;
the kernel evaluates them, and no meaning calls them. -/

namespace Sys2Proof.Machine

/-- The instructions of major 0x1. -/
noncomputable def dec01 (p : Nat) (x : WordFields) : Option Instr :=
  if x.fn == 0x0 then some (.add p x.gd x.ga x.gb)
  else if x.fn == 0x1 then some (.sub p x.gd x.ga x.gb)
  else if x.fn == 0x2 then some (.and_ p x.gd x.ga x.gb)
  else if x.fn == 0x3 then some (.or_ p x.gd x.ga x.gb)
  else if x.fn == 0x4 then some (.xor_ p x.gd x.ga x.gb)
  else if x.fn == 0x5 then some (.sll p x.gd x.ga x.gb)
  else if x.fn == 0x6 then some (.srl p x.gd x.ga x.gb)
  else if x.fn == 0x7 then some (.sra p x.gd x.ga x.gb)
  else if x.fn == 0x8 then some (.slt p x.gd x.ga x.gb)
  else if x.fn == 0x9 then some (.sltu p x.gd x.ga x.gb)
  else if x.fn == 0xa then some (.min p x.gd x.ga x.gb)
  else if x.fn == 0xb then some (.max p x.gd x.ga x.gb)
  else if x.fn == 0xc then some (.minu p x.gd x.ga x.gb)
  else if x.fn == 0xd then some (.maxu p x.gd x.ga x.gb)
  else if x.fn == 0x100 then some (.addW p x.gd x.ga x.gb)
  else if x.fn == 0x101 then some (.subW p x.gd x.ga x.gb)
  else if x.fn == 0x105 then some (.sllW p x.gd x.ga x.gb)
  else if x.fn == 0x106 then some (.srlW p x.gd x.ga x.gb)
  else if x.fn == 0x107 then some (.sraW p x.gd x.ga x.gb)
  else none

/-- The instructions of major 0x2. -/
noncomputable def dec02 (p : Nat) (x : WordFields) : Option Instr :=
  if x.fn == 0x0 then some (.mul p x.gd x.ga x.gb)
  else if x.fn == 0x1 then some (.mulh p x.gd x.ga x.gb)
  else if x.fn == 0x2 then some (.mulhu p x.gd x.ga x.gb)
  else if x.fn == 0x4 then some (.div p x.gd x.ga x.gb)
  else if x.fn == 0x5 then some (.divu p x.gd x.ga x.gb)
  else if x.fn == 0x6 then some (.rem p x.gd x.ga x.gb)
  else if x.fn == 0x7 then some (.remu p x.gd x.ga x.gb)
  else if x.fn == 0x100 then some (.mulW p x.gd x.ga x.gb)
  else if x.fn == 0x104 then some (.divW p x.gd x.ga x.gb)
  else if x.fn == 0x105 then some (.divuW p x.gd x.ga x.gb)
  else if x.fn == 0x106 then some (.remW p x.gd x.ga x.gb)
  else if x.fn == 0x107 then some (.remuW p x.gd x.ga x.gb)
  else none

/-- The instructions of major 0x3. -/
noncomputable def dec03 (p : Nat) (x : WordFields) : Option Instr :=
  if x.fn == 0x20 then some (.crcb p x.gd x.ga x.gb)
  else if x.fn == 0x21 then some (.crcbC p x.gd x.ga x.gb)
  else if x.fn == 0x0 && x.gb == 0 then some (.clz p x.gd x.ga)
  else if x.fn == 0x1 && x.gb == 0 then some (.ctz p x.gd x.ga)
  else if x.fn == 0x2 && x.gb == 0 then some (.popc p x.gd x.ga)
  else if x.fn == 0x3 && x.gb == 0 then some (.par p x.gd x.ga)
  else if x.fn == 0x4 && x.gb == 0 then some (.brev p x.gd x.ga)
  else if x.fn == 0x5 && x.gb == 0 then some (.bswap p x.gd x.ga)
  else if x.fn == 0x100 && x.gb == 0 then some (.clzW p x.gd x.ga)
  else if x.fn == 0x101 && x.gb == 0 then some (.ctzW p x.gd x.ga)
  else if x.fn == 0x102 && x.gb == 0 then some (.popcW p x.gd x.ga)
  else if x.fn == 0x103 && x.gb == 0 then some (.parW p x.gd x.ga)
  else if x.fn == 0x104 && x.gb == 0 then some (.brevW p x.gd x.ga)
  else if x.fn == 0x105 && x.gb == 0 then some (.bswapW p x.gd x.ga)
  else if x.fn &&& 0x7FC == 0x10 then some (.crc32 p x.gd x.ga x.gb (x.fn.setWidth 2))
  else if x.fn &&& 0x7FC == 0x14 then some (.crc32c p x.gd x.ga x.gb (x.fn.setWidth 2))
  else none

/-- The instructions of major 0x4. -/
noncomputable def dec04 (p : Nat) (x : WordFields) : Option Instr :=
  if x.fn &&& 0x3FF == 0x0 then some (.fadd p (x.fn.getLsbD 10) x.gd x.ga x.gb)
  else if x.fn &&& 0x3FF == 0x1 then some (.fsub p (x.fn.getLsbD 10) x.gd x.ga x.gb)
  else if x.fn &&& 0x3FF == 0x2 then some (.fmul p (x.fn.getLsbD 10) x.gd x.ga x.gb)
  else if x.fn &&& 0x3FF == 0x3 then some (.fdiv p (x.fn.getLsbD 10) x.gd x.ga x.gb)
  else if x.fn &&& 0x3FF == 0x5 then some (.fma p (x.fn.getLsbD 10) x.gd x.ga x.gb)
  else if x.fn &&& 0x3FF == 0x6 then some (.fmin p (x.fn.getLsbD 10) x.gd x.ga x.gb)
  else if x.fn &&& 0x3FF == 0x7 then some (.fmax p (x.fn.getLsbD 10) x.gd x.ga x.gb)
  else if x.fn &&& 0x3FF == 0x8 then some (.feq p (x.fn.getLsbD 10) x.gd x.ga x.gb)
  else if x.fn &&& 0x3FF == 0x9 then some (.flt p (x.fn.getLsbD 10) x.gd x.ga x.gb)
  else if x.fn &&& 0x3FF == 0xa then some (.fle p (x.fn.getLsbD 10) x.gd x.ga x.gb)
  else if x.fn &&& 0x3FF == 0xd then some (.fsgnj p (x.fn.getLsbD 10) x.gd x.ga x.gb)
  else if x.fn &&& 0x3FF == 0x4 && x.gb == 0 then some (.fsqrt p (x.fn.getLsbD 10) x.gd x.ga)
  else if x.fn &&& 0x3FF == 0xb && x.gb == 0 then some (.fneg p (x.fn.getLsbD 10) x.gd x.ga)
  else if x.fn &&& 0x3FF == 0xc && x.gb == 0 then some (.fabs p (x.fn.getLsbD 10) x.gd x.ga)
  else if x.fn &&& 0x3FF == 0xe && x.gb == 0 then some (.fkind p (x.fn.getLsbD 10) x.gd x.ga)
  else if x.fn &&& 0x3FF == 0x10 && x.gb == 0 then some (.fcvtF p (x.fn.getLsbD 10) x.gd x.ga)
  else if x.fn &&& 0x3FF == 0x11 && x.gb == 0 then some (.fcvtL p (x.fn.getLsbD 10) x.gd x.ga)
  else if x.fn &&& 0x3FF == 0x12 && x.gb == 0 then some (.fcvtLz p (x.fn.getLsbD 10) x.gd x.ga)
  else if x.fn &&& 0x3FF == 0x13 && x.gb == 0 then some (.fcvtWi p (x.fn.getLsbD 10) x.gd x.ga)
  else if x.fn &&& 0x3FF == 0x14 && x.gb == 0 then some (.fcvtWz p (x.fn.getLsbD 10) x.gd x.ga)
  else if x.fn &&& 0x3FF == 0x18 && x.gb == 0 then some (.icvt p (x.fn.getLsbD 10) x.gd x.ga)
  else if x.fn &&& 0x3FF == 0x19 && x.gb == 0 then some (.ucvt p (x.fn.getLsbD 10) x.gd x.ga)
  else none

/-- The instructions of major 0x5. -/
noncomputable def dec05 (p : Nat) (x : WordFields) : Option Instr :=
  some (.addi p x.gd x.ga x.imm)

/-- The instructions of major 0x6. -/
noncomputable def dec06 (p : Nat) (x : WordFields) : Option Instr :=
  some (.andi p x.gd x.ga x.imm)

/-- The instructions of major 0x7. -/
noncomputable def dec07 (p : Nat) (x : WordFields) : Option Instr :=
  some (.ori p x.gd x.ga x.imm)

/-- The instructions of major 0x8. -/
noncomputable def dec08 (p : Nat) (x : WordFields) : Option Instr :=
  some (.xori p x.gd x.ga x.imm)

/-- The instructions of major 0x9. -/
noncomputable def dec09 (p : Nat) (x : WordFields) : Option Instr :=
  if x.ga == 0 then some (.lui p x.gd x.imm)
  else none

/-- The instructions of major 0xa. -/
noncomputable def dec0A (p : Nat) (x : WordFields) : Option Instr :=
  some (.slti p x.gd x.ga x.imm)

/-- The instructions of major 0xb. -/
noncomputable def dec0B (p : Nat) (x : WordFields) : Option Instr :=
  if x.imm &&& 0xFFC0 == 0x0 then some (.slli p x.gd x.ga (x.imm.setWidth 6))
  else if x.imm &&& 0xFFC0 == 0x40 then some (.srli p x.gd x.ga (x.imm.setWidth 6))
  else if x.imm &&& 0xFFC0 == 0x80 then some (.srai p x.gd x.ga (x.imm.setWidth 6))
  else none

/-- The instructions of major 0xc. -/
noncomputable def dec0C (p : Nat) (x : WordFields) : Option Instr :=
  some (.shori p x.gd x.ga x.imm)

/-- The instructions of major 0x10. -/
noncomputable def dec10 (p : Nat) (x : WordFields) : Option Instr :=
  some (.ldB p x.gd x.ga x.imm)

/-- The instructions of major 0x11. -/
noncomputable def dec11 (p : Nat) (x : WordFields) : Option Instr :=
  some (.ldBu p x.gd x.ga x.imm)

/-- The instructions of major 0x12. -/
noncomputable def dec12 (p : Nat) (x : WordFields) : Option Instr :=
  some (.ldH p x.gd x.ga x.imm)

/-- The instructions of major 0x13. -/
noncomputable def dec13 (p : Nat) (x : WordFields) : Option Instr :=
  some (.ldHu p x.gd x.ga x.imm)

/-- The instructions of major 0x14. -/
noncomputable def dec14 (p : Nat) (x : WordFields) : Option Instr :=
  some (.ldW p x.gd x.ga x.imm)

/-- The instructions of major 0x15. -/
noncomputable def dec15 (p : Nat) (x : WordFields) : Option Instr :=
  some (.ldWu p x.gd x.ga x.imm)

/-- The instructions of major 0x16. -/
noncomputable def dec16 (p : Nat) (x : WordFields) : Option Instr :=
  some (.ldD p x.gd x.ga x.imm)

/-- The instructions of major 0x18. -/
noncomputable def dec18 (p : Nat) (x : WordFields) : Option Instr :=
  some (.stB p x.gd x.ga x.imm)

/-- The instructions of major 0x19. -/
noncomputable def dec19 (p : Nat) (x : WordFields) : Option Instr :=
  some (.stH p x.gd x.ga x.imm)

/-- The instructions of major 0x1a. -/
noncomputable def dec1A (p : Nat) (x : WordFields) : Option Instr :=
  some (.stW p x.gd x.ga x.imm)

/-- The instructions of major 0x1b. -/
noncomputable def dec1B (p : Nat) (x : WordFields) : Option Instr :=
  some (.stD p x.gd x.ga x.imm)

/-- The instructions of major 0x1c. -/
noncomputable def dec1C (p : Nat) (x : WordFields) : Option Instr :=
  if x.fn &&& 0x7FE == 0x0 then some (.amoadd p x.gd x.ga x.gb (x.fn.getLsbD 0))
  else if x.fn &&& 0x7FE == 0x2 then some (.amoswap p x.gd x.ga x.gb (x.fn.getLsbD 0))
  else if x.fn &&& 0x7FE == 0x4 then some (.amocas p x.gd x.ga x.gb (x.fn.getLsbD 0))
  else none

/-- The instructions of major 0x1d. -/
noncomputable def dec1D (p : Nat) (x : WordFields) : Option Instr :=
  some (.inW p x.gd x.ga x.imm)

/-- The instructions of major 0x1e. -/
noncomputable def dec1E (p : Nat) (x : WordFields) : Option Instr :=
  some (.inD p x.gd x.ga x.imm)

/-- The instructions of major 0x1f. -/
noncomputable def dec1F (p : Nat) (x : WordFields) : Option Instr :=
  if x.fn == 0x0 then some (.outW p x.gd x.ga x.gb)
  else if x.fn == 0x1 then some (.outD p x.gd x.ga x.gb)
  else none

/-- The instructions of major 0x20. -/
noncomputable def dec20 (p : Nat) (x : WordFields) : Option Instr :=
  some (.beq p x.gd x.ga x.imm)

/-- The instructions of major 0x21. -/
noncomputable def dec21 (p : Nat) (x : WordFields) : Option Instr :=
  some (.bne p x.gd x.ga x.imm)

/-- The instructions of major 0x22. -/
noncomputable def dec22 (p : Nat) (x : WordFields) : Option Instr :=
  some (.blt p x.gd x.ga x.imm)

/-- The instructions of major 0x23. -/
noncomputable def dec23 (p : Nat) (x : WordFields) : Option Instr :=
  some (.bge p x.gd x.ga x.imm)

/-- The instructions of major 0x24. -/
noncomputable def dec24 (p : Nat) (x : WordFields) : Option Instr :=
  some (.bltu p x.gd x.ga x.imm)

/-- The instructions of major 0x25. -/
noncomputable def dec25 (p : Nat) (x : WordFields) : Option Instr :=
  some (.bgeu p x.gd x.ga x.imm)

/-- The instructions of major 0x26. -/
noncomputable def dec26 (p : Nat) (x : WordFields) : Option Instr :=
  some (.jmp p (x.w.setWidth 26))

/-- The instructions of major 0x27. -/
noncomputable def dec27 (p : Nat) (x : WordFields) : Option Instr :=
  some (.call p (x.w.setWidth 26))

/-- The instructions of major 0x28. -/
noncomputable def dec28 (p : Nat) (x : WordFields) : Option Instr :=
  if x.fn == 0 && x.gd == 0 && x.gb == 0 then some (.jr p x.ga)
  else if x.fn == 1 && x.gb == 0 then some (.callr p x.gd x.ga)
  else none

/-- The instructions of major 0x2c. -/
noncomputable def dec2C (p : Nat) (x : WordFields) : Option Instr :=
  if x.imm.setWidth 4 == (0 : BitVec 4) && x.ga == 0 then some (.csrr p x.gd (csrOf x.imm))
  else if x.imm.setWidth 4 == (1 : BitVec 4) then some (.csrw p x.gd x.ga (csrOf x.imm))
  else if x.imm.setWidth 4 == (2 : BitVec 4) then some (.csrs p x.gd x.ga (csrOf x.imm))
  else if x.imm.setWidth 4 == (3 : BitVec 4) then some (.csrc p x.gd x.ga (csrOf x.imm))
  else none

/-- The instructions of major 0x2d. -/
noncomputable def dec2D (p : Nat) (x : WordFields) : Option Instr :=
  if x.fn == 0 && x.gd == 0 && x.ga == 0 && x.gb == 0 then some (.syncC p)
  else if x.fn == 1 && x.gd == 0 && x.ga == 0 && x.gb == 0 then some (.syncI p)
  else if x.fn == 2 && x.gd == 0 && x.ga == 0 && x.gb == 0 then some (.fence p)
  else if x.fn == 3 && x.gd == 0 && x.ga == 0 && x.gb == 0 then some (.wait p)
  else if x.fn == 4 && x.gd == 0 && x.ga == 0 && x.gb == 0 then some (.rfe p)
  else if x.fn == 9 && x.gd == 0 && x.ga == 0 && x.gb == 0 then some (.dcInvall p)
  else if x.fn == 5 && x.gd == 0 && x.gb == 0 then some (.trap p x.ga)
  else if x.fn == 8 && x.gd == 0 && x.gb == 0 then some (.dcInv p x.ga)
  else none

/-- The instructions of major 0x30. -/
noncomputable def dec30 (p : Nat) (x : WordFields) : Option Instr :=
  if x.fn == 1 && x.ga == 0 then some (.mlds p x.gd x.gb)
  else if x.fn == 2 && x.gb == 0 then some (.mstream p x.gd x.ga)
  else if x.fn == 3 then some (.mma8 p x.gd x.ga x.gb)
  else none

/-- The instructions of major 0x38. -/
noncomputable def dec38 (p : Nat) (x : WordFields) : Option Instr :=
  some (.setvl p x.gd x.ga x.imm)

/-- The instructions of major 0x39. -/
noncomputable def dec39 (p : Nat) (x : WordFields) : Option Instr :=
  if x.f6 == 0x0 then some (.vfadd p x.o)
  else if x.f6 == 0x1 then some (.vfsub p x.o)
  else if x.f6 == 0x2 then some (.vfmul p x.o)
  else if x.f6 == 0x3 then some (.vfdiv p x.o)
  else if x.f6 == 0x4 then some (.vfsqrt p x.o)
  else if x.f6 == 0x5 then some (.vfma p x.o)
  else if x.f6 == 0x6 then some (.vfnma p x.o)
  else if x.f6 == 0x7 then some (.vfmin p x.o)
  else if x.f6 == 0x8 then some (.vfmax p x.o)
  else if x.f6 == 0x9 then some (.vfeq p x.o)
  else if x.f6 == 0xa then some (.vflt p x.o)
  else if x.f6 == 0xb then some (.vfle p x.o)
  else if x.f6 == 0xc then some (.vfneg p x.o)
  else if x.f6 == 0xd then some (.vfabs p x.o)
  else if x.f6 == 0xe then some (.vfsgnj p x.o)
  else if x.f6 == 0xf then some (.vfkind p x.o)
  else none

/-- The instructions of major 0x3a. -/
noncomputable def dec3A (p : Nat) (x : WordFields) : Option Instr :=
  if x.f6 == 0x0 then some (.vadd p x.o)
  else if x.f6 == 0x1 then some (.vsub p x.o)
  else if x.f6 == 0x2 then some (.vmul p x.o)
  else if x.f6 == 0x3 then some (.vmulh p x.o)
  else if x.f6 == 0x4 then some (.vmulhu p x.o)
  else if x.f6 == 0x5 then some (.vand p x.o)
  else if x.f6 == 0x6 then some (.vor p x.o)
  else if x.f6 == 0x7 then some (.vxor p x.o)
  else if x.f6 == 0x8 then some (.vsll p x.o)
  else if x.f6 == 0x9 then some (.vsrl p x.o)
  else if x.f6 == 0xa then some (.vsra p x.o)
  else if x.f6 == 0xb then some (.vmin p x.o)
  else if x.f6 == 0xc then some (.vmax p x.o)
  else if x.f6 == 0xd then some (.vminu p x.o)
  else if x.f6 == 0xe then some (.vmaxu p x.o)
  else if x.f6 == 0xf then some (.vsadd p x.o)
  else if x.f6 == 0x10 then some (.vssub p x.o)
  else if x.f6 == 0x11 then some (.vsaddu p x.o)
  else if x.f6 == 0x12 then some (.vssubu p x.o)
  else if x.f6 == 0x13 then some (.vmseq p x.o)
  else if x.f6 == 0x14 then some (.vmslt p x.o)
  else if x.f6 == 0x15 then some (.vmsltu p x.o)
  else if x.f6 == 0x16 then some (.vsel p x.o)
  else if x.f6 == 0x17 then some (.vmv p x.o)
  else none

/-- The instructions of major 0x3b. -/
noncomputable def dec3B (p : Nat) (x : WordFields) : Option Instr :=
  if x.f6 == 0x0 then some (.vld p x.o)
  else if x.f6 == 0x1 then some (.vlds p x.o)
  else if x.f6 == 0x2 then some (.vldx p x.o)
  else if x.f6 == 0x3 then some (.vldff p x.o)
  else if x.f6 == 0x4 then some (.vldg p x.o)
  else if x.f6 == 0x5 then some (.vldm p x.o)
  else if x.f6 == 0x8 then some (.vst p x.o)
  else if x.f6 == 0x9 then some (.vsts p x.o)
  else if x.f6 == 0xa then some (.vstx p x.o)
  else if x.f6 == 0xc then some (.vstg p x.o)
  else if x.f6 == 0xd then some (.vstm p x.o)
  else none

/-- The instructions of major 0x3c. -/
noncomputable def dec3C (p : Nat) (x : WordFields) : Option Instr :=
  if x.f6 == 0x0 then some (.vperm p x.o)
  else if x.f6 == 0x1 then some (.vslideup p x.o)
  else if x.f6 == 0x2 then some (.vslidedn p x.o)
  else if x.f6 == 0x3 then some (.vcompress p x.o)
  else if x.f6 == 0x4 then some (.viota p x.o)
  else if x.f6 == 0x8 then some (.vredAdd p x.o)
  else if x.f6 == 0x9 then some (.vredMin p x.o)
  else if x.f6 == 0xa then some (.vredMax p x.o)
  else if x.f6 == 0xb then some (.vredMinu p x.o)
  else if x.f6 == 0xc then some (.vredMaxu p x.o)
  else if x.f6 == 0x10 then some (.vscanAdd p x.o)
  else if x.f6 == 0x11 then some (.vscanMin p x.o)
  else if x.f6 == 0x12 then some (.vscanMax p x.o)
  else if x.f6 == 0x13 then some (.vscanMinu p x.o)
  else if x.f6 == 0x14 then some (.vscanMaxu p x.o)
  else if x.f6 == 0x18 then some (.vmand p x.o)
  else if x.f6 == 0x19 then some (.vmor p x.o)
  else if x.f6 == 0x1a then some (.vmxor p x.o)
  else if x.f6 == 0x1b then some (.vmandn p x.o)
  else if x.f6 == 0x1c then some (.vpopc p x.o)
  else if x.f6 == 0x1d then some (.vfirst p x.o)
  else if x.f6 == 0x28 then some (.vredFadd p x.o)
  else if x.f6 == 0x29 then some (.vredFmin p x.o)
  else if x.f6 == 0x2a then some (.vredFmax p x.o)
  else if x.f6 == 0x30 then some (.vscanFadd p x.o)
  else if x.f6 == 0x31 then some (.vscanFmin p x.o)
  else if x.f6 == 0x32 then some (.vscanFmax p x.o)
  else none

/-- The instructions of major 0x3d. -/
noncomputable def dec3D (p : Nat) (x : WordFields) : Option Instr :=
  if x.f6 == 0x0 then some (.vexp p x.o)
  else if x.f6 == 0x1 then some (.vlog p x.o)
  else if x.f6 == 0x2 then some (.vrsqrt p x.o)
  else if x.f6 == 0x3 then some (.vtanh p x.o)
  else if x.f6 == 0x4 then some (.verf p x.o)
  else if x.f6 == 0x5 then some (.vsigm p x.o)
  else if x.f6 == 0x6 then some (.vsilu p x.o)
  else if x.f6 == 0x7 then some (.vgelu p x.o)
  else if x.f6 == 0x10 then some (.vcvtF p x.o)
  else if x.f6 == 0x11 then some (.vcvtFs p x.o)
  else if x.f6 == 0x12 then some (.vcvtI p x.o)
  else if x.f6 == 0x13 then some (.vcvtIz p x.o)
  else if x.f6 == 0x14 then some (.vcvtU p x.o)
  else if x.f6 == 0x15 then some (.vcvtUz p x.o)
  else if x.f6 == 0x18 then some (.vqmx p x.o)
  else if x.f6 == 0x19 then some (.vdqmx p x.o)
  else none

/-- The instructions of major 0x3e. -/
noncomputable def dec3E (p : Nat) (x : WordFields) : Option Instr :=
  if x.f6 == 0x0 then some (.vpopw p x.o)
  else if x.f6 == 0x1 then some (.vpopwNb p x.o)
  else if x.f6 == 0x2 then some (.vpushw p x.o)
  else if x.f6 == 0x8 then some (.vmvX p x.o)
  else if x.f6 == 0x9 then some (.vmvS p x.o)
  else if x.w == 0xF8000010#32 then some (.vwait p)
  else none

/-- The instruction that a word spells for the lead core of polder `p`; none is a reserved opcode (R305). The fields of format V that an
instruction leaves unused are judged by its meaning, which traps on them alike. -/
noncomputable def decodeCore (p : Nat) (w : Word32) : Option Instr :=
  let x := wordFields w
  match (w.extractLsb' 26 6 : BitVec 6).toNat with
  | 0x1 => dec01 p x
  | 0x2 => dec02 p x
  | 0x3 => dec03 p x
  | 0x4 => dec04 p x
  | 0x5 => dec05 p x
  | 0x6 => dec06 p x
  | 0x7 => dec07 p x
  | 0x8 => dec08 p x
  | 0x9 => dec09 p x
  | 0xa => dec0A p x
  | 0xb => dec0B p x
  | 0xc => dec0C p x
  | 0x10 => dec10 p x
  | 0x11 => dec11 p x
  | 0x12 => dec12 p x
  | 0x13 => dec13 p x
  | 0x14 => dec14 p x
  | 0x15 => dec15 p x
  | 0x16 => dec16 p x
  | 0x18 => dec18 p x
  | 0x19 => dec19 p x
  | 0x1a => dec1A p x
  | 0x1b => dec1B p x
  | 0x1c => dec1C p x
  | 0x1d => dec1D p x
  | 0x1e => dec1E p x
  | 0x1f => dec1F p x
  | 0x20 => dec20 p x
  | 0x21 => dec21 p x
  | 0x22 => dec22 p x
  | 0x23 => dec23 p x
  | 0x24 => dec24 p x
  | 0x25 => dec25 p x
  | 0x26 => dec26 p x
  | 0x27 => dec27 p x
  | 0x28 => dec28 p x
  | 0x2c => dec2C p x
  | 0x2d => dec2D p x
  | 0x30 => dec30 p x
  | 0x38 => dec38 p x
  | 0x39 => dec39 p x
  | 0x3a => dec3A p x
  | 0x3b => dec3B p x
  | 0x3c => dec3C p x
  | 0x3d => dec3D p x
  | 0x3e => dec3E p x
  | _ => none

end Sys2Proof.Machine
end

