-- ==== Sys2Proof/WellFormed.lean ====
section
/-! DEFINITION. When a term of `Instr` spells a command that can be sent: every number lies in the range that the manual gives its field
(log 1). `exec` does not depend on it: it is total on every term. -/

namespace Sys2Proof

/-- A header (Table 15-3): 256 rings, an 8-bit POLDER, a 32-bit COOKIE. -/
def hdrOk (h : CmdHdr) : Bool := decide (h.ring < 256) && decide (h.pol < 256) && decide (h.cookie < 2 ^ 32)

def logPathOk : LogPath → Bool
  | .host h => hdrOk h
  | .sideband => true

def writePathOk : WritePath → Bool
  | .regw => true
  | .rdma => true
  | .core p => decide (p < 24)

/-- Who asks for memory. -/
def requesterOk : Requester → Bool
  | .descriptor p i => decide (p < 24) && decide (i < 65536)
  | .descUpdate p i => decide (p < 24) && decide (i < 65536)
  | .core p => decide (p < 24)
  | .coreAtomic p => decide (p < 24)
  | .vector p _ => decide (p < 24)
  | .ring r => decide (r < 256)
  | .hostRead c => decide (c < 65536)
  | .hostWrite c => decide (c < 65536)
  | .walker p => decide (p < 24)
  | .reeve => true

/-- A request lies within one 256 B atom (R402). -/
def memReqOk (r : MemReq) : Bool :=
  decide (r.src < 32) && requesterOk r.req && decide (r.pa < 2 ^ 44) && decide (0 < r.len) && decide (r.pa % 256 + r.len ≤ 256) &&
    decide (r.va < 2 ^ 48) && decide (r.age < 2 ^ 64)

/-- An update names 3-bit OP and OPFMT and at least one element (R425). -/
def updateOk (u : MemUpdate) : Bool := decide (u.pa < 2 ^ 44) && decide (u.op < 8) && decide (u.fmt < 8) && !u.elems.isEmpty

def windowOk (w : UpdWindow) : Bool := decide (w.adder < 29) && decide (w.p < 24) && decide (w.i < 65536) && decide (w.src < 24)

/-- A virtual address has 48 bits, a space is one of three (Table 13-1). -/
def xlatReqOk (q : XlatReq) : Bool :=
  decide (q.cd < 32) && decide (q.p < 24) && decide (q.space < 3) && decide (q.asid < 65536) && decide (q.va < 2 ^ 48) && decide (q.access < 8) &&
    requesterOk q.req

/-- A flit has 272 B (R462). -/
def flitOk (f : Flit) : Bool :=
  decide (f.seq < 4096) && decide (f.ack < 4096) && decide (f.rest.length = 9) && decide (f.payload.length = 256) && decide (f.crc < 2 ^ 32)

def redKeyOk (k : RedKey) : Bool := decide (k.hub < 2) && decide (k.p < 24) && decide (k.i < 65536) && decide (k.op < 8) && decide (k.fmt < 8)

def addrOk (a : HostAddr) : Bool := decide (a.mac < 2 ^ 48) && decide (a.ip < 2 ^ 128)

def frameOk (f : Frame) : Bool := addrOk f.from_ && (match f.kind with | .roce c _ | .roceOpcode c _ => decide (c < 65536) | _ => true)

def connReqOk (q : ConnReq) : Bool := addrOk q.from_ && decide (q.index < 65536) && decide (q.dscp < 64) && decide (q.prio < 8)

def spdmPathOk : SpdmPath → Bool
  | .port a => addrOk a
  | .sideband => true

/-- A unit of the kiln pass on one of the 32 dies (Table 3-2). -/
def unitOk (u : KilnUnit) : Bool := decide (u.type < 16) && decide (u.die < 32) && decide (u.index < 4096)

/-- 236 links and 24 stacks (Tables 1-3, 14-1). -/
def bootOk (r : BootResult) : Bool := r.linksDown.all (· < 236) && r.stacksOut.all (· < 24)

def windowKeyOk (w : WindowKey) : Bool := decide (w.code < 65536) && decide (w.die < 32) && decide (w.unit < 65536)

/-- A well-formed command. -/
def Instr.wf : Instr → Bool
  | .registerWrite path addr _ => writePathOk path && decide (addr < 2 ^ 48)
  | .nop h => hdrOk h
  | .regw h off _ => hdrOk h && decide (off < 2 ^ 40)
  | .bsLoad h pa len => hdrOk h && decide (pa < 2 ^ 44) && decide (len < 2 ^ 32)
  | .loadZeroingDone => true
  | .bsReadback h hbuf off => hdrOk h && decide (hbuf < 256) && decide (off < 2 ^ 32)
  | .bsFieldWrite h off _ => hdrOk h && decide (off < 65536)
  | .bsFieldRead h off _ => hdrOk h && decide (off < 65536)
  | .bsfDataWrite p _ => decide (p < 24)
  | .bsfDataRead p _ => decide (p < 24)
  | .admitCmd h slot va => hdrOk h && decide (slot < 16) && decide (va < 2 ^ 48)
  | .rcpAdmit p _ => decide (p < 24)
  | .admission p => decide (p < 24)
  | .withdraw h slot => hdrOk h && decide (slot < 16)
  | .rcpWithdraw p _ => decide (p < 24)
  | .start h slot pb => hdrOk h && decide (slot < 16) && pb.all (· < 2 ^ 48)
  | .invStartWrite p _ => decide (p < 24)
  | .invocationStart p => decide (p < 24)
  | .invocationComplete p => decide (p < 24)
  | .sluiceSet h sl => hdrOk h && decide (sl < 4096)
  | .sluiceClear h sl => hdrOk h && decide (sl < 4096)
  | .slCtlSet p _ => decide (p < 24)
  | .slCtlClear p _ => decide (p < 24)
  | .quiesce h => hdrOk h
  | .quiesceAbort h => hdrOk h
  | .quiesceComplete p => decide (p < 24)
  | .resume h => hdrOk h
  | .ttWrite h index _ _ _ _ => hdrOk h && decide (index < 4096)
  | .ttWindowWrite p index _ => decide (p < 24) && decide (index < 4096)
  | .update h addr op fmt _ _ => hdrOk h && decide (addr < 2 ^ 48) && decide (op < 8) && decide (fmt < 8)
  | .xltInv h scope _ asid gen va len => hdrOk h && decide (scope < 4) && decide (asid < 65536) && decide (gen < 2 ^ 32) && decide (va < 2 ^ 48) && decide (len < 2 ^ 48)
  | .xltInvComplete p => decide (p < 24)
  | .xltResume h fid => hdrOk h && decide (fid < 2 ^ 32)
  | .xltResumeFail h fid => hdrOk h && decide (fid < 2 ^ 32)
  | .unfreezeResume h _ => hdrOk h
  | .unfreezeDeliver h _ => hdrOk h
  | .unfreezeReset h _ => hdrOk h
  | .breachReq h => hdrOk h
  | .breachRequestTaken p => decide (p < 24)
  | .coreStart h addr => hdrOk h && decide (addr < 2 ^ 48)
  | .coreInt h => hdrOk h
  | .unbind h => hdrOk h
  | .undefinedCommand h opc _ => hdrOk h && decide (opc < 256)
  | .store h _ => hdrOk h
  | .setWrite h type value => hdrOk h && decide (type < 256) && value.length == 48
  | .attest h hbuf off nc => hdrOk h && decide (hbuf < 256) && decide (off < 2 ^ 32) && nc.length == 32
  | .idRead h hbuf off => hdrOk h && decide (hbuf < 256) && decide (off < 2 ^ 32)
  | .ownerEnrol h pa => hdrOk h && decide (pa < 2 ^ 44)
  | .ownerWithdraw h pa => hdrOk h && decide (pa < 2 ^ 44)
  | .nonce h hbuf off => hdrOk h && decide (hbuf < 256) && decide (off < 2 ^ 32)
  | .nonceExpiry => true
  | .fwUpdate h pa len => hdrOk h && decide (pa < 2 ^ 44) && decide (len < 2 ^ 32)
  | .fwActivate h => hdrOk h
  | .logRead path hbuf off first count => logPathOk path && decide (hbuf < 256) && decide (off < 2 ^ 32) && decide (first < 2 ^ 64) && decide (count < 65536)
  | .sensorRead h hbuf off => hdrOk h && decide (hbuf < 256) && decide (off < 2 ^ 32)
  | .doorbell _ => true
  | .ringCommand ring => decide (ring < 256)
  | .cplConsWrite ring _ => decide (ring < 256)
  | .ringEnable ring _ => decide (ring < 256)
  | .ringDisable ring _ => decide (ring < 256)
  | .evqEnable _ => true
  | .evqDisable _ => true
  | .evqConsWrite _ => true
  | .coalesceWindowEnd w => windowKeyOk w
  | .pendingErrorHandle scope => decide (scope < 25)
  | .matrix p i => decide (p < 24) && decide (i < 65536)
  | .chain p i => decide (p < 24) && decide (i < 65536)
  | .vmap p i => decide (p < 24) && decide (i < 65536)
  | .vnorm p i => decide (p < 24) && decide (i < 65536)
  | .vmerge p i => decide (p < 24) && decide (i < 65536)
  | .vmergeRescale p i => decide (p < 24) && decide (i < 65536)
  | .vmergeNormalise p i => decide (p < 24) && decide (i < 65536)
  | .vsample p i => decide (p < 24) && decide (i < 65536)
  | .vsampleIndices p i => decide (p < 24) && decide (i < 65536)
  | .vsampleCommit p i => decide (p < 24) && decide (i < 65536)
  | .vaccept p i => decide (p < 24) && decide (i < 65536)
  | .vcompactAppend p i => decide (p < 24) && decide (i < 65536)
  | .vcompactMove p i => decide (p < 24) && decide (i < 65536)
  | .vcompactGather p i => decide (p < 24) && decide (i < 65536)
  | .mcopy p i => decide (p < 24) && decide (i < 65536)
  | .mupdate p i => decide (p < 24) && decide (i < 65536)
  | .mfill p i => decide (p < 24) && decide (i < 65536)
  | .mevent p i => decide (p < 24) && decide (i < 65536)
  | .callred p i => decide (p < 24) && decide (i < 65536)
  | .cbcast p i => decide (p < 24) && decide (i < 65536)
  | .cgather p i => decide (p < 24) && decide (i < 65536)
  | .chalo p i => decide (p < 24) && decide (i < 65536)
  | .descriptorComplete p i => decide (p < 24) && decide (i < 65536)
  | .seqStall p queue => decide (p < 24) && decide (queue < 4)
  | .positionWake p pos => decide (p < 24) && decide (pos < 16)
  | .positionWakeDone p pos => decide (p < 24) && decide (pos < 16)
  | .positionSleep p pos _ => decide (p < 24) && decide (pos < 16)
  | .accumulationGroupClose p g => decide (p < 24) && decide (g < 16)
  | .orderedUpdate w u => windowOk w && updateOk u
  | .endMarker w src => windowOk w && decide (src < 24)
  | .unorderedUpdate req m => requesterOk req && updateOk m.upd && decide (m.age < 2 ^ 64)
  | .memoryRead r => memReqOk r
  | .memoryWrite r _ => memReqOk r
  | .fmRetire pa => decide (pa < 2 ^ 44)
  | .fmRetireCopyDone pa => decide (pa < 2 ^ 44)
  | .stackTempSample unit _ => decide (unit < 56)
  | .ncFlush cd => decide (cd < 24)
  | .ncFlushDone cd => decide (cd < 24)
  | .ncInv cd => decide (cd < 24)
  | .ncInvDone cd => decide (cd < 24)
  | .ncEnable cd => decide (cd < 24)
  | .ncDisable cd => decide (cd < 24)
  | .ncDisableDone cd => decide (cd < 24)
  | .localWalk q => xlatReqOk q
  | .ctuWalk q => xlatReqOk q
  | .walkComplete walker => decide (walker < 32)
  | .flitRx link _ f lanes => decide (link < 236) && flitOk f && lanes.all (· < 68)
  | .replayRequest side first => decide (side.link < 236) && decide (first < 4096)
  | .laneRemap link => decide (link < 236)
  | .retrainDone link _ => decide (link < 236)
  | .hubOut hub => decide (hub < 2)
  | .issueBroadcast p => decide (p < 24)
  | .reductionContribution k src _ => redKeyOk k && decide (src < 24)
  | .reductionResult k => redKeyOk k
  | .tagGrant owner => decide (owner < 32)
  | .response owner num gen => decide (owner < 32) && decide (num < 2 ^ 32) && decide (gen < 64)
  | .txTimeout owner num => decide (owner < 32) && decide (num < 2 ^ 32)
  | .highClr owner => decide (owner < 32)
  | .frameRx f => frameOk f
  | .portTrainAttempt _ => true
  | .arp ip from_ => decide (ip < 2 ^ 128) && addrOk from_
  | .neighbourDiscovery ip from_ => decide (ip < 2 ^ 128) && addrOk from_
  | .icmpEcho from_ _ => addrOk from_
  | .cmReq q => connReqOk q
  | .cmRtu conn from_ => decide (conn < 65536) && addrOk from_
  | .cmDreq conn from_ => decide (conn < 65536) && addrOk from_
  | .send conn _ => decide (conn < 65536)
  | .sendWithImmediate conn _ _ => decide (conn < 65536)
  | .rdmaWrite conn _ va _ => decide (conn < 65536) && decide (va < 2 ^ 64)
  | .rdmaWriteWithImmediate conn _ va _ _ => decide (conn < 65536) && decide (va < 2 ^ 64)
  | .rdmaRead conn _ va len => decide (conn < 65536) && decide (va < 2 ^ 64) && decide (len < 2 ^ 32)
  | .hostAck num => decide (num < 2 ^ 32)
  | .connectionRetryExhausted conn => decide (conn < 65536)
  | .cnp conn => decide (conn < 65536)
  | .rateIncrease conn => decide (conn < 65536)
  | .pfcFrame _ _ => true
  | .pfcWeir prio _ => decide (prio < 8)
  | .getVersion from_ => spdmPathOk from_
  | .getCapabilities from_ => spdmPathOk from_
  | .negotiateAlgorithms from_ _ _ => spdmPathOk from_
  | .getDigests from_ => spdmPathOk from_
  | .getCertificate from_ slot off len => spdmPathOk from_ && decide (slot < 8) && decide (off < 2 ^ 32) && decide (len < 2 ^ 32)
  | .challenge from_ nc => spdmPathOk from_ && nc.length == 32
  | .bindReq from_ => addrOk from_
  | .bind from_ _ mac ip => addrOk from_ && decide (mac < 2 ^ 48) && decide (ip < 2 ^ 128)
  | .bindTimeout => true
  | .getMeasurements index nc => decide (index < 256) && nc.length == 32
  | .keyExchange _ => true
  | .setEndpointId _ => true
  | .mctpDiscovery query => decide (query < 256)
  | .pldmBase query => decide (query < 256)
  | .getSensorReading id => decide (id < 65536)
  | .forceUnbind _ => true
  | .requestUpdate _ => true
  | .activateFirmware => true
  | .sensorSample id _ => decide (id < 65536)
  | .coolIdSample _ => true
  | .governorEvaluation _ => true
  | .powerClamp _ => true
  | .timer p => decide (p < 24)
  | .timerCmpWrite p _ => decide (p < 24)
  | .interrupt p => decide (p < 24)
  | .storeBufferDrain p => decide (p < 24)
  | .add p _ _ _ => decide (p < 24)
  | .sub p _ _ _ => decide (p < 24)
  | .and_ p _ _ _ => decide (p < 24)
  | .or_ p _ _ _ => decide (p < 24)
  | .xor_ p _ _ _ => decide (p < 24)
  | .sll p _ _ _ => decide (p < 24)
  | .srl p _ _ _ => decide (p < 24)
  | .sra p _ _ _ => decide (p < 24)
  | .slt p _ _ _ => decide (p < 24)
  | .sltu p _ _ _ => decide (p < 24)
  | .min p _ _ _ => decide (p < 24)
  | .max p _ _ _ => decide (p < 24)
  | .minu p _ _ _ => decide (p < 24)
  | .maxu p _ _ _ => decide (p < 24)
  | .addW p _ _ _ => decide (p < 24)
  | .subW p _ _ _ => decide (p < 24)
  | .sllW p _ _ _ => decide (p < 24)
  | .srlW p _ _ _ => decide (p < 24)
  | .sraW p _ _ _ => decide (p < 24)
  | .mul p _ _ _ => decide (p < 24)
  | .mulh p _ _ _ => decide (p < 24)
  | .mulhu p _ _ _ => decide (p < 24)
  | .div p _ _ _ => decide (p < 24)
  | .divu p _ _ _ => decide (p < 24)
  | .rem p _ _ _ => decide (p < 24)
  | .remu p _ _ _ => decide (p < 24)
  | .mulW p _ _ _ => decide (p < 24)
  | .divW p _ _ _ => decide (p < 24)
  | .divuW p _ _ _ => decide (p < 24)
  | .remW p _ _ _ => decide (p < 24)
  | .remuW p _ _ _ => decide (p < 24)
  | .clz p _ _ => decide (p < 24)
  | .ctz p _ _ => decide (p < 24)
  | .popc p _ _ => decide (p < 24)
  | .par p _ _ => decide (p < 24)
  | .brev p _ _ => decide (p < 24)
  | .bswap p _ _ => decide (p < 24)
  | .clzW p _ _ => decide (p < 24)
  | .ctzW p _ _ => decide (p < 24)
  | .popcW p _ _ => decide (p < 24)
  | .parW p _ _ => decide (p < 24)
  | .brevW p _ _ => decide (p < 24)
  | .bswapW p _ _ => decide (p < 24)
  | .crc32 p _ _ _ _ => decide (p < 24)
  | .crc32c p _ _ _ _ => decide (p < 24)
  | .crcb p _ _ _ => decide (p < 24)
  | .crcbC p _ _ _ => decide (p < 24)
  | .fadd p _ _ _ _ => decide (p < 24)
  | .fsub p _ _ _ _ => decide (p < 24)
  | .fmul p _ _ _ _ => decide (p < 24)
  | .fdiv p _ _ _ _ => decide (p < 24)
  | .fsqrt p _ _ _ => decide (p < 24)
  | .fma p _ _ _ _ => decide (p < 24)
  | .fmin p _ _ _ _ => decide (p < 24)
  | .fmax p _ _ _ _ => decide (p < 24)
  | .feq p _ _ _ _ => decide (p < 24)
  | .flt p _ _ _ _ => decide (p < 24)
  | .fle p _ _ _ _ => decide (p < 24)
  | .fneg p _ _ _ => decide (p < 24)
  | .fabs p _ _ _ => decide (p < 24)
  | .fsgnj p _ _ _ _ => decide (p < 24)
  | .fkind p _ _ _ => decide (p < 24)
  | .fcvtF p _ _ _ => decide (p < 24)
  | .fcvtL p _ _ _ => decide (p < 24)
  | .fcvtLz p _ _ _ => decide (p < 24)
  | .fcvtWi p _ _ _ => decide (p < 24)
  | .fcvtWz p _ _ _ => decide (p < 24)
  | .icvt p _ _ _ => decide (p < 24)
  | .ucvt p _ _ _ => decide (p < 24)
  | .addi p _ _ _ => decide (p < 24)
  | .andi p _ _ _ => decide (p < 24)
  | .ori p _ _ _ => decide (p < 24)
  | .xori p _ _ _ => decide (p < 24)
  | .lui p _ _ => decide (p < 24)
  | .slti p _ _ _ => decide (p < 24)
  | .slli p _ _ _ => decide (p < 24)
  | .srli p _ _ _ => decide (p < 24)
  | .srai p _ _ _ => decide (p < 24)
  | .shori p _ _ _ => decide (p < 24)
  | .ldB p _ _ _ => decide (p < 24)
  | .ldBu p _ _ _ => decide (p < 24)
  | .ldH p _ _ _ => decide (p < 24)
  | .ldHu p _ _ _ => decide (p < 24)
  | .ldW p _ _ _ => decide (p < 24)
  | .ldWu p _ _ _ => decide (p < 24)
  | .ldD p _ _ _ => decide (p < 24)
  | .stB p _ _ _ => decide (p < 24)
  | .stH p _ _ _ => decide (p < 24)
  | .stW p _ _ _ => decide (p < 24)
  | .stD p _ _ _ => decide (p < 24)
  | .amoadd p _ _ _ _ => decide (p < 24)
  | .amoswap p _ _ _ _ => decide (p < 24)
  | .amocas p _ _ _ _ => decide (p < 24)
  | .inW p _ _ _ => decide (p < 24)
  | .inD p _ _ _ => decide (p < 24)
  | .outW p _ _ _ => decide (p < 24)
  | .outD p _ _ _ => decide (p < 24)
  | .beq p _ _ _ => decide (p < 24)
  | .bne p _ _ _ => decide (p < 24)
  | .blt p _ _ _ => decide (p < 24)
  | .bge p _ _ _ => decide (p < 24)
  | .bltu p _ _ _ => decide (p < 24)
  | .bgeu p _ _ _ => decide (p < 24)
  | .jmp p _ => decide (p < 24)
  | .call p _ => decide (p < 24)
  | .jr p _ => decide (p < 24)
  | .callr p _ _ => decide (p < 24)
  | .csrr p _ _ => decide (p < 24)
  | .csrw p _ _ _ => decide (p < 24)
  | .csrs p _ _ _ => decide (p < 24)
  | .csrc p _ _ _ => decide (p < 24)
  | .syncC p => decide (p < 24)
  | .syncI p => decide (p < 24)
  | .fence p => decide (p < 24)
  | .wait p => decide (p < 24)
  | .rfe p => decide (p < 24)
  | .trap p _ => decide (p < 24)
  | .dcInv p _ => decide (p < 24)
  | .dcInvall p => decide (p < 24)
  | .reservedOpcode p _ => decide (p < 24)
  | .mlds p _ _ => decide (p < 24)
  | .mstream p _ _ => decide (p < 24)
  | .mma8 p _ _ _ => decide (p < 24)
  | .setvl p _ _ _ => decide (p < 24)
  | .vfadd p _ => decide (p < 24)
  | .vfsub p _ => decide (p < 24)
  | .vfmul p _ => decide (p < 24)
  | .vfdiv p _ => decide (p < 24)
  | .vfsqrt p _ => decide (p < 24)
  | .vfma p _ => decide (p < 24)
  | .vfnma p _ => decide (p < 24)
  | .vfmin p _ => decide (p < 24)
  | .vfmax p _ => decide (p < 24)
  | .vfeq p _ => decide (p < 24)
  | .vflt p _ => decide (p < 24)
  | .vfle p _ => decide (p < 24)
  | .vfneg p _ => decide (p < 24)
  | .vfabs p _ => decide (p < 24)
  | .vfsgnj p _ => decide (p < 24)
  | .vfkind p _ => decide (p < 24)
  | .vadd p _ => decide (p < 24)
  | .vsub p _ => decide (p < 24)
  | .vmul p _ => decide (p < 24)
  | .vmulh p _ => decide (p < 24)
  | .vmulhu p _ => decide (p < 24)
  | .vand p _ => decide (p < 24)
  | .vor p _ => decide (p < 24)
  | .vxor p _ => decide (p < 24)
  | .vsll p _ => decide (p < 24)
  | .vsrl p _ => decide (p < 24)
  | .vsra p _ => decide (p < 24)
  | .vmin p _ => decide (p < 24)
  | .vmax p _ => decide (p < 24)
  | .vminu p _ => decide (p < 24)
  | .vmaxu p _ => decide (p < 24)
  | .vsadd p _ => decide (p < 24)
  | .vssub p _ => decide (p < 24)
  | .vsaddu p _ => decide (p < 24)
  | .vssubu p _ => decide (p < 24)
  | .vmseq p _ => decide (p < 24)
  | .vmslt p _ => decide (p < 24)
  | .vmsltu p _ => decide (p < 24)
  | .vsel p _ => decide (p < 24)
  | .vmv p _ => decide (p < 24)
  | .vld p _ => decide (p < 24)
  | .vlds p _ => decide (p < 24)
  | .vldx p _ => decide (p < 24)
  | .vldff p _ => decide (p < 24)
  | .vldg p _ => decide (p < 24)
  | .vldm p _ => decide (p < 24)
  | .vst p _ => decide (p < 24)
  | .vsts p _ => decide (p < 24)
  | .vstx p _ => decide (p < 24)
  | .vstg p _ => decide (p < 24)
  | .vstm p _ => decide (p < 24)
  | .vperm p _ => decide (p < 24)
  | .vslideup p _ => decide (p < 24)
  | .vslidedn p _ => decide (p < 24)
  | .vcompress p _ => decide (p < 24)
  | .viota p _ => decide (p < 24)
  | .vredAdd p _ => decide (p < 24)
  | .vredMin p _ => decide (p < 24)
  | .vredMax p _ => decide (p < 24)
  | .vredMinu p _ => decide (p < 24)
  | .vredMaxu p _ => decide (p < 24)
  | .vscanAdd p _ => decide (p < 24)
  | .vscanMin p _ => decide (p < 24)
  | .vscanMax p _ => decide (p < 24)
  | .vscanMinu p _ => decide (p < 24)
  | .vscanMaxu p _ => decide (p < 24)
  | .vmand p _ => decide (p < 24)
  | .vmor p _ => decide (p < 24)
  | .vmxor p _ => decide (p < 24)
  | .vmandn p _ => decide (p < 24)
  | .vpopc p _ => decide (p < 24)
  | .vfirst p _ => decide (p < 24)
  | .vredFadd p _ => decide (p < 24)
  | .vredFmin p _ => decide (p < 24)
  | .vredFmax p _ => decide (p < 24)
  | .vscanFadd p _ => decide (p < 24)
  | .vscanFmin p _ => decide (p < 24)
  | .vscanFmax p _ => decide (p < 24)
  | .reductionResultReturn p => decide (p < 24)
  | .vexp p _ => decide (p < 24)
  | .vlog p _ => decide (p < 24)
  | .vrsqrt p _ => decide (p < 24)
  | .vtanh p _ => decide (p < 24)
  | .verf p _ => decide (p < 24)
  | .vsigm p _ => decide (p < 24)
  | .vsilu p _ => decide (p < 24)
  | .vgelu p _ => decide (p < 24)
  | .vcvtF p _ => decide (p < 24)
  | .vcvtFs p _ => decide (p < 24)
  | .vcvtI p _ => decide (p < 24)
  | .vcvtIz p _ => decide (p < 24)
  | .vcvtU p _ => decide (p < 24)
  | .vcvtUz p _ => decide (p < 24)
  | .vqmx p _ => decide (p < 24)
  | .vdqmx p _ => decide (p < 24)
  | .vpopw p _ => decide (p < 24)
  | .vpopwNb p _ => decide (p < 24)
  | .vpushw p _ => decide (p < 24)
  | .vmvX p _ => decide (p < 24)
  | .vmvS p _ => decide (p < 24)
  | .vwait p => decide (p < 24)
  | .kilnStep u step got again => unitOk u && decide (step < 2 ^ 32) && decide (got < 2 ^ 32) && decide (again < 2 ^ 32)
  | .kilnPreempt u => unitOk u
  | .scrub pa => decide (pa < 2 ^ 44)
  | .kilnLate => true
  | .kilnEnable _ => true
  | .kilnDisable _ => true
  | .rowRepair cd row => decide (cd < 24) && decide (row < 2 ^ 32)
  | .dieSwap cd die => decide (cd < 24) && decide (die < 9)
  | .waySwap cd way => decide (cd < 24) && decide (way < 16)
  | .spareSwap cd => decide (cd < 24)
  | .spareCopyDone cd => decide (cd < 24)
  | .inputUndervoltage => true
  | .inputOvervoltage => true
  | .inputRestored => true
  | .prsntNDebounced => true
  | .powerGood => true
  | .removal => true
  | .rstNRelease _ => true
  | .coldReset cause => decide (cause < 7)
  | .warmReset cause => decide (cause < 7)
  | .polderReset p => decide (p < 24)
  | .coreReset p => decide (p < 24)
  | .boot r => bootOk r
  | .portLinkDown => true
  | .rstNAssert => true
  | .tapInstruction code => decide (code < 6)
  | .packageSelfRefresh pkg => decide (pkg < 32)
  | .storeComplete _ => true
  | .fwWrittenVerified _ => true
  | .polderResetComplete p => decide (p < 24)
  | .rowCopyComplete cd row => decide (cd < 24) && decide (row < 2 ^ 32)

end Sys2Proof
end

