-- ==== Sys2Proof/Safety.lean ====
section
/-! DEFINITION. What counts as a safe state, in the terms that claims use: what every command leaves true, whatever state it starts from. -/

namespace Sys2Proof.Machine

/-- Records wait in dies' record buffers only while the event buffer holds its 4,096 (R515, R517). -/
def State.evqFull (s : State) : Prop := s.port.evq.wait ≠ [] → evqMax ≤ s.port.evq.held.length

/-- SMB_ALERT_N is low exactly while a sensor reads critical or a scope is FATAL (R615). -/
def State.alertRight (s : State) : Prop := s.power.smbAlertN = alertN s

/-- A scope handles only an error whose record is not posted yet, or waits to be accepted (R537, R538). -/
def State.scopesCurrent (s : State) : Prop :=
  ∀ k r, k < 25 → (scopeAt s k).cur = some r → r.seq = noSeq ∨ ∃ w ∈ s.port.evq.wait, w.seq = r.seq

/-- `t` is `s` but for what the settling of a command may change (log 10): held entries and records that leave for host memory with
their tags of NW and their frames, waiting records that enter the queue, errors whose handling ends, and SMB_ALERT_N. -/
structure SameWork (s t : State) : Prop where
  pending : t.pending = s.pending
  dt : t.dt = s.dt
  phiro : t.phiro = s.phiro
  cds : t.cds = s.cds
  polders : t.polders = s.polders
  cores : t.cores = s.cores
  mem : t.mem = s.mem
  grist : t.grist = s.grist
  health : t.health = s.health
  xlat : t.xlat = s.xlat
  kiln : t.kiln = s.kiln
  reeve : t.reeve = s.reeve
  fabric : { t.fabric with owners := [] } = { s.fabric with owners := [] }
  owners : ∀ o, o ≠ 24 → owner t o = owner s o
  port : { t.port with rings := [], evq := s.port.evq, resend := [] } = { s.port with rings := [], resend := [] }
  rings : ∀ r, { ring t r with held := [], cplProd := 0 } = { ring s r with held := [], cplProd := 0 }
  evq : { t.port.evq with held := [], wait := [], prod := 0 } = { s.port.evq with held := [], wait := [], prod := 0 }
  errors : { t.errors with scopes := [] } = { s.errors with scopes := [] }
  scopes : ∀ k, { scopeAt t k with cur := none } = { scopeAt s k with cur := none }
  power : { t.power with smbAlertN := true } = { s.power with smbAlertN := true }

/-- The lead core of polder `p` may issue an instruction in `s`, and its fetch succeeds, leaving `f` (R378). -/
def Fetched (s : State) (p : Nat) (f : State) : Prop := coreReady s p = true ∧ fetch s p = (none, f)

/-- `u` is `f` but for the lead core of polder `p`, which is `c` and stands in line for no tag (R480). -/
def CoreIs (f u : State) (p : Nat) (c : Core) : Prop :=
  u = { leaveLine f p with cores := u.cores } ∧ (∀ n, n ≠ leadOf f p → coreAt u n = coreAt f n) ∧ core u p = c

/-- The command answers a next state: `f` with `c` as the lead core of polder `p`, settled. -/
def CoreRuns (i : Instr) (s f : State) (p : Nat) (c : Core) : Prop := ∃ u, exec i s = .next (settle u) ∧ CoreIs f u p c

/-- An instruction of polder `p`'s lead core reaches the members of its polder and leaves `g` (R31, R472): at once in a polder of one CD, else
by the issue broadcast through a hub that serves and that every member reaches, which takes a tag of the lead die and the next issue number. -/
def Reaches (f : State) (p : Nat) (g : State) : Prop :=
  (nMembers f p ≤ 1 ∧ g = f) ∨
    (1 < nMembers f p ∧ ∃ h n u, issueHub f p = some h ∧ (∀ m ∈ members f p, bundleLost f m h = false) ∧
      tagFor f (leadOf f p) (.core p) = true ∧
      takeTag f (leadOf f p) { kind := 5, dest := 29 + h, addr := 0, ls := lsCore f p, req := .core p } = some (n, u) ∧
      g = leaveLine (modPolder u p fun po => { po with issueSeq := (po.issueSeq + 1) % 2 ^ 32 }) p)

/-- The lead core may issue a vector or matrix instruction, which reaches the members, whose queues are empty: the fetch leaves `f` and the
broadcast `g` (R346, R472). -/
def Issues (s : State) (p : Nat) (f g : State) : Prop := Fetched s p f ∧ (polder f p).vqueue = [] ∧ Reaches f p g

/-- The core past its instruction: pc behind it, INSTRET one more. -/
def past (c : Core) : Core := { c with pc := c.pc + 4, instret := c.instret + 1 }

/-- The core past an instruction that wrote `v` to register `r`. -/
def wrote (c : Core) (r : Reg) (v : Word) : Core := past (setGpr c r v)

/-- The core past an instruction that wrote a floating-point result to `r` and raised its flags in FPCTL [4:0] (R141). -/
def wroteFp (c : Core) (r : Reg) (x : FRes) : Core :=
  past { setGpr c r (BitVec.ofNat 64 x.v) with fpctl := c.fpctl ||| BitVec.ofNat 64 (x.fl % 32) }

/-- No buffered store of polder `p`'s lead core touches `n` bytes at a place. -/
def Unbuffered (s : State) (p : Nat) (l : Loc) (n : Nat) : Prop :=
  ∀ x ∈ (core s p).sb, overlaps (sbKey x) x.data.length (locKey l) n = false

/-- The core of `f` gets through exception entry for a cause (R382): no Breach, ML below 7 for a synchronous cause, room in the privilege
shadow, and a writable frame below g31 at `loc`, found with state `g`, which no buffered store overlaps. -/
def EntryOk (f : State) (p cause : Nat) (loc : Loc) (g : State) : Prop :=
  let c := core f p
  let sp := (gpr c 31).toNat
  c.breach = false ∧ (cause < 64 → c.ml ≠ 7) ∧ c.shadow.length < 16 ∧ sp % 32 = 0 ∧ 32 ≤ sp ∧ sp - 32 < 2 ^ 48 ∧
    framePlace f p (sp - 32) 2 c.user = (some loc, g) ∧ Unbuffered g p loc 32

/-- The core behind exception entry (R382): `old` is the core at the fault, `c` the core once the frame is written. -/
def entered (old c : Core) (cause code epc addr inst : Nat) : Core :=
  { setGpr c 31 (gpr old 31 - 32) with
    shadow := c.shadow ++ [c.user], estatus := BitVec.ofNat 64 (c.ml * 256 + if c.user then 1 else 0),
    epc := BitVec.ofNat 64 (epc - epc % 4), eaddr := BitVec.ofNat 64 (addr % 2 ^ 48), einst := BitVec.ofNat 64 inst,
    ecause := BitVec.ofNat 64 (code * 256 + cause), user := false, ml := 7, pc := 0x1000 + 16 * cause, waiting := false, npWait := none }

/-- The 32 bytes of an exception frame (Table 11-9). -/
def frameOf (c : Core) : List Byte :=
  bytesLE 8 c.epc.toNat ++ bytesLE 8 c.estatus.toNat ++ bytesLE 4 c.ecause.toNat ++ bytesLE 4 c.einst.toNat ++ bytesLE 8 c.eaddr.toNat

/-- A home answers a request of die `src` for an atom without trouble: it is reached, no near-cache line of the atom has a parity error, every
line of that cache can be written back, and no codeword of the atom is damaged. -/
def MemSound (s : State) (src pa : Nat) : Prop :=
  reach s src (homeDie pa) pa = true ∧ (∀ l ∈ (ncOf s (pa >>> 35)).lines, (l.atom = pa / 256 → l.perr = 0) ∧ lineLost l = false) ∧
    ∀ cw, cw / 8 = pa / 256 → badAt s (cw * 32) = 0

/-- A request arrives at its home: it lies in one atom, its work runs, its stack serves it and it breaks no rule, and its tag is free (R33, R34,
R250, R400, R480). -/
def Arrives (s : State) (r : MemReq) (write : Bool) : Prop :=
  inAtom r.pa r.len = true ∧ reqLive s r.req = true ∧ stackShut s r.pa r.req = false ∧ reqBroken s r.pa r.len write r.req = none ∧
    (isNear r.pa = true ∨ isFar r.pa = true) ∧ tagFor s r.src r.req = true

/-- The ring of `h` begins this command and its header passes (R509, R511, R532, R631): the ring may begin one, POLDER fits the opcode's scope,
the opcode is served, and a polder that POLDER names is in the loaded image. -/
def CmdReady (s : State) (h : CmdHdr) (sc : CmdScope) (opc : Nat) : Prop :=
  ringReady s h.ring = true ∧ polBad sc h.pol = false ∧ ((scopeAt s 24).fatal = true → servedFatal opc = true) ∧
    (h.pol < 24 → named s h.pol = true)

/-- A management command may act (R556, R557): its header passes, none runs before it, and Reeve serves. -/
def MgmtReady (s : State) (h : CmdHdr) (opc : Nat) : Prop :=
  CmdReady s h .device opc ∧ mgRuns s = false ∧ reeveWaits s = false ∧ s.reeve.frozen = false

/-- The command completes on its ring: the next state is `t` with the completion entry `x` held for the ring and HEAD past the command,
settled. -/
def Completes (c : Instr) (s t : State) (h : CmdHdr) (opc : Nat) (x : Cpl) : Prop := exec c s = .next (settle (complete t h opc x))

/-- The command answers a next state: `f` with `nc` as the near cache of CD `cd`, settled. -/
def NcRuns (i : Instr) (s f : State) (cd : Nat) (nc : Nc) : Prop :=
  ∃ u, exec i s = .next (settle u) ∧ u = { f with cds := u.cds } ∧ (∀ n, n ≠ cd → cdAt u n = cdAt f n) ∧ cdAt u cd = { cdAt f cd with nc := nc }

/-- The header, scope and opcode of a row that is a command of a ring (Tables 15-4 and 18-1). -/
def hostCmdOf : Instr → Option (CmdHdr × CmdScope × Nat)
  | .nop h => some (h, .device, 0x01) | .regw h _ _ => some (h, .device, 0x02) | .bsLoad h _ _ => some (h, .device, 0x10)
  | .bsReadback h _ _ => some (h, .device, 0x11) | .bsFieldWrite h _ _ => some (h, .polder, 0x12) | .bsFieldRead h _ _ => some (h, .polder, 0x12)
  | .admitCmd h _ _ => some (h, .polder, 0x20) | .withdraw h _ => some (h, .polder, 0x21) | .start h _ _ => some (h, .polder, 0x22)
  | .sluiceSet h _ => some (h, .polder, 0x23) | .sluiceClear h _ => some (h, .polder, 0x23) | .quiesce h => some (h, .polder, 0x24)
  | .quiesceAbort h => some (h, .polder, 0x24) | .resume h => some (h, .polder, 0x25) | .ttWrite h _ _ _ _ _ => some (h, .polder, 0x26)
  | .update h _ _ _ _ _ => some (h, .either, 0x30) | .xltInv h _ _ _ _ _ _ => some (h, .polder, 0x38) | .xltResume h _ => some (h, .polder, 0x39)
  | .xltResumeFail h _ => some (h, .polder, 0x39) | .unfreezeResume h _ => some (h, .either, 0x40) | .unfreezeDeliver h _ => some (h, .either, 0x40)
  | .unfreezeReset h _ => some (h, .either, 0x40) | .breachReq h => some (h, .polder, 0x41) | .coreStart h _ => some (h, .polder, 0x42)
  | .coreInt h => some (h, .polder, 0x43) | .unbind h => some (h, .device, 0x50) | .store h _ => some (h, .device, 0x60)
  | .setWrite h _ _ => some (h, .device, 0x61) | .attest h _ _ _ => some (h, .device, 0x62) | .idRead h _ _ => some (h, .device, 0x63)
  | .ownerEnrol h _ => some (h, .device, 0x64) | .ownerWithdraw h _ => some (h, .device, 0x65) | .nonce h _ _ => some (h, .device, 0x66)
  | .fwUpdate h _ _ => some (h, .device, 0x67) | .fwActivate h => some (h, .device, 0x68) | .logRead (.host h) _ _ _ _ => some (h, .device, 0x69)
  | .sensorRead h _ _ => some (h, .device, 0x6A)
  | _ => none

/-- A row that is an OUT or IN of one named register, or a word that names no instruction: its word is another row's, or none's. -/
def sharesWord : Instr → Bool
  | .bsfDataWrite .. | .bsfDataRead .. | .rcpAdmit .. | .rcpWithdraw .. | .invStartWrite .. | .slCtlSet .. | .slCtlClear .. | .ttWindowWrite ..
  | .timerCmpWrite .. | .reservedOpcode .. => true
  | _ => false

/-- What every step keeps. -/
def State.Settled (s : State) : Prop := s.evqFull ∧ s.alertRight ∧ s.scopesCurrent

end Sys2Proof.Machine
end

