-- ==== Sys2Proof/Certificates/Slice0/Obligations.lean ====
section
/-! DEFINITION. The statements for the provers: what the commands of the D-2432 do, from the numbered rules of the spec. -/

open Sys2Proof Sys2Proof.Machine

/-! ### The block: its queue of commands, reset, what every step keeps, the words of the core -/

/-- A step takes the command at the front of the queue and performs it with the queue's rest. With no command waiting a tick of the device passes
(the model's choice, log 2): where no transaction has reached its DEADLINE, and no walk, vector instruction, hub contribution or host message
waits, one unit of 0.25 ns of device time passes and nothing else changes.
The model's own choices in it: log 2. -/
def Obligations.StepTakesTheFront : Prop :=
  (∀ (c : Instr) (rest : List Instr) (s : State), s.pending = c :: rest → step s = exec c { s with pending := rest }) ∧
  (∀ s : State, s.pending = [] → step s = .next (settle (tick s))) ∧
  (∀ s : State, (∀ e ∈ s.fabric.owners, ∀ t ∈ e.2.tags, s.dt < t.deadline) → s.xlat.waiting = [] → s.fabric.redWait = [] →
    (∀ p, (polder s p).vqueue = []) → (∀ e ∈ s.port.conns, e.2.ops = []) → tick s = { s with dt := (s.dt + 1) % 2 ^ 64 })

/-- After a cold reset: no command waits, DT is 0, no bit-stream is loaded, memory lists nothing, every CD is unassigned, every ring, host buffer
and the event queue are disabled, no scope handles an error, THERMTRIP_N and SMB_ALERT_N are high, and the state is settled.
The model's own choices in it: log 4, 5. -/
def Obligations.ResetState : Prop :=
  let s := State.reset
  s.pending = [] ∧ s.dt = 0 ∧ s.phiro.loaded = false ∧ s.phiro.coolId = 7 ∧ Memory.wf s.mem ∧ s.mem = [] ∧ s.grist = [] ∧
    (∀ n, rdCdTopo s n = 18 * 2 ^ 48 + 0xFF * 2 ^ 32 + 0xFF * 2 ^ 24 + 0xFF * 2 ^ 16) ∧
    (∀ p, named s p = false ∧ (polder s p).rcp.code = 0x40 ∧ (core s p).ml = 7 ∧ (core s p).user = false ∧ (core s p).vtype = 3 ∧
      (core s p).bstk = 0xFFFFFFFF1000 ∧ ∀ r, gpr (core s p) r = 0) ∧
    (∀ r, (ring s r).en = false ∧ (hbuf s r).valid = false) ∧ s.port.evq.en = false ∧ s.port.bindState = 0 ∧
    (∀ k, (scopeAt s k).fatal = false ∧ (scopeAt s k).cur = none) ∧ s.kiln.en = true ∧ s.kiln.hours = 24 ∧
    s.power.thermtripN = true ∧ s.power.smbAlertN = true ∧ s.Settled

/-- What every step keeps: records wait in dies' record buffers only while the event buffer is full (R517), SMB_ALERT_N is low exactly while a
sensor reads critical or a scope is FATAL (R615), and a scope handles an error only until its record is accepted (R537). A command that is
performed establishes it from any state.
The model's own choices in it: log 10. -/
def Obligations.EveryStepSettles : Prop :=
  (∀ (s t : State), s.Settled → step s = .next t → t.Settled) ∧
  (∀ (c : Instr) (s : State), ∃ t, exec c s = .next t ∧ t.Settled ∧ ∃ u, t = settle u ∧ SameWork u t)

/-- Every core instruction of Tables 9-3 to 9-8 and 10-5 to 10-13 has its word decoded to itself with every operand: no bit of an encoding is
dropped. Rows that are an OUT or IN of one named register share the word of OUT.W, OUT.D, IN.W or IN.D, and a reserved word names no
instruction.
The model's own choices in it: log 1. -/
def Obligations.CoreWordsRoundTrip : Prop :=
  ∀ (i : Instr) (w : Word32), sharesWord i = false → coreWord i = some w → ∃ p, decodeCore p w = some i

/-- Words written out from Tables 9-2, 9-3 and 10-4 give the instructions they stand for (R303, R304, R344).
The model's own choices in it: log 1. -/
def Obligations.WordsDecode : Prop :=
  ∀ p : Nat,
    decodeCore p 0b000001_00011_00001_00010_00000000000 = some (.add p 3 1 2) ∧
    decodeCore p 0b000010_00011_00001_00010_00100000100 = some (.divW p 3 1 2) ∧
    decodeCore p 0b000100_00111_00101_00110_10000000010 = some (.fmul p true 7 5 6) ∧
    decodeCore p 0b000101_00101_00000_1111111111111111 = some (.addi p 5 0 0xFFFF) ∧
    decodeCore p 0b001011_00100_00011_0000000001000101 = some (.srli p 4 3 5) ∧
    decodeCore p 0b010110_00100_00010_0000000000001000 = some (.ldD p 4 2 8) ∧
    decodeCore p 0b011000_00111_01001_1111111111111111 = some (.stB p 7 9 0xFFFF) ∧
    decodeCore p 0b011100_00001_00010_00011_00000000101 = some (.amocas p 1 2 3 true) ∧
    decodeCore p 0b011111_00001_00010_00011_00000000001 = some (.outD p 1 2 3) ∧
    decodeCore p 0b100001_00001_00010_1111111111111110 = some (.bne p 1 2 0xFFFE) ∧
    decodeCore p 0b100111_00000000000000000000000011 = some (.call p 3) ∧
    decodeCore p 0b101100_00010_00110_000100010001_0001 = some (.csrw p 2 6 0x111) ∧
    decodeCore p 0b101101_00000_00000_00000_00000000100 = some (.rfe p) ∧
    decodeCore p 0b110000_00100_00101_00110_00000000011 = some (.mma8 p 4 5 6) ∧
    decodeCore p 0b111001_00001_00010_00011_1_010_0000000 = some (.vfadd p { s := false, vm := true, mreg := 2, vd := 1, va := 2, vb := 3 }) ∧
    decodeCore p 0b111100_00001_00000_00000_1_010_0011100 = some (.vpopc p { s := false, vm := true, mreg := 2, vd := 1, va := 0, vb := 0 }) ∧
    decodeCore p 0 = none ∧ decodeCore p 0xFFFFFFFF = none

/-- The header of a ring's command (R509, R511, R532, R631). A ring that may not begin a command leaves everything as it was; a POLDER that does not
fit the opcode is a violation of the ring with DETAIL 3; after a class 3 error everything but NOP and the management commands, and for a
polder that the loaded image does not name every command, completes with CM_STATE; so do management commands while Reeve is frozen (R557).
Completion takes HEAD past the command and holds one entry of 32 bytes for the ring; a violation freezes the ring with HEAD at the
command. -/
def Obligations.RingHeader : Prop :=
  (∀ (c : Instr) (h : CmdHdr) (sc : CmdScope) (opc : Nat) (s : State), hostCmdOf c = some (h, sc, opc) →
    (ringReady s h.ring = false → exec c s = .next (settle s)) ∧
    (ringReady s h.ring = true → (0x60 ≤ opc → mgRuns s = false ∧ reeveWaits s = false) →
      (polBad sc h.pol = true → exec c s = .next (settle (violateRing s h opc 3))) ∧
      (polBad sc h.pol = false → (scopeAt s 24).fatal = true → servedFatal opc = false → Completes c s s h opc { status := 0x85 }) ∧
      (polBad sc h.pol = false → (scopeAt s 24).fatal = false → h.pol < 24 → named s h.pol = false → Completes c s s h opc { status := 0x85 }) ∧
      (polBad sc h.pol = false → 0x60 ≤ opc → s.reeve.frozen = true → Completes c s s h opc { status := 0x85 }))) ∧
  (∀ (s : State) (h : CmdHdr) (opc : Nat) (x : Cpl),
    ring (complete s h opc x) h.ring = { ring s h.ring with
      busy := none, head := ((ring s h.ring).head + 1) % 2 ^ 16, held := (ring s h.ring).held ++ [(lsCmd s h, cplBytes s h opc x)] } ∧
    (cplBytes s h opc x).length = 32 ∧ ∀ r, r ≠ h.ring → ring (complete s h opc x) r = ring s r) ∧
  ∀ (s : State) (h : CmdHdr) (opc d : Nat), (ring (violateRing s h opc d) h.ring).frozen = true ∧
    (ring (violateRing s h opc d) h.ring).head = (ring s h.ring).head

/-! ### Commands of a ring, and the registers of the port -/

/-- The sequencer's and the core's ring commands (R44, R51, R263, R272, R278, R283, R284, R288–R290, R328, R380, R390, R397, R398): on a ring whose
header passes, under the conditions that Tables 8-16 and 11-15 put on success, each has its effect and completes with its success status;
ADMIT and QUIESCE hold their ring until their own end.
The model's own choices in it: log 10, 23. -/
def Obligations.HostCommandResults : Prop :=
  ∀ (s : State) (h : CmdHdr), h.pol < 24 →
    let p := h.pol
    let po := polder s p
    (∀ (slot : Nat) (pb : Option Nat) (rc : Recipe), CmdReady s h .polder 0x22 → slot < 16 → tfind po.slots slot = some rc → s.phiro.busy = false →
      po.quies = [] → admitting po slot = false → po.frzQueue = [] → po.pend.length < 16 → pbOk rc (pb.getD rc.pbVa) = true →
      let u := modPolder s p fun po => { po with pend := po.pend ++ [{ slot := slot, pb := pb.getD rc.pbVa, host := true, cookie := h.cookie }] }
      Completes (.start h slot pb) s (setMembers u p 2) h 0x22 { status := 0x30 } ∧
        ∀ n, (cdAt (setMembers u p 2) n).state = if n ∈ members s p ∧ (cdAt s n).state ≠ 3 then 2 else (cdAt s n).state) ∧
    (∀ n : Nat, CmdReady s h .polder 0x23 → n < po.sec.sluices → (internalNow s p).contains n = false →
      Completes (.sluiceSet h n) s (modPolder s p fun po => { po with sluices := tset false po.sluices n true }) h 0x23 { status := 0x30 } ∧
      Completes (.sluiceClear h n) s (clearSluice s p n) h 0x23 { status := 0x30 }) ∧
    (∀ slot : Nat, CmdReady s h .polder 0x21 → slot < 16 → (tfind po.slots slot).isSome = true → slotInUse po slot = false →
      Completes (.withdraw h slot) s
        (setInt (modPolder s p fun po => { po with slots := tdel po.slots slot, rcp := { RcpStatus.reset with code := 0x30 } }) p 4)
        h 0x21 { status := 0x30 }) ∧
    (∀ (n : Nat) (w0 w1 w2 w3 : Word), CmdReady s h .polder 0x26 → n < po.sec.ttEntries → (∀ e ∈ po.slots, n ∉ e.2.locked) →
      Completes (.ttWrite h n w0 w1 w2 w3) s
        (modPolder s p fun po => { po with tt := tset ttEmpty po.tt n { w0 := w0, w1 := w1, w2 := w2, w3 := w3 } }) h 0x26 { status := 0x30 }) ∧
    (CmdReady s h .polder 0x25 → Completes (.resume h) s (modPolder s p fun po => { po with held := false }) h 0x25 { status := 0x30 }) ∧
    (∀ slot va : Nat, CmdReady s h .polder 0x20 → po.adm = none → s.phiro.busy = false →
      exec (.admitCmd h slot va) s = .next (settle
        (begin_ (modPolder s p fun po => { po with adm := some { cmd := some h, slot := slot, va := va } }) h 0x20))) ∧
    (CmdReady s h .polder 0x24 →
      exec (.quiesce h) s = .next (settle (quiesceBegin (begin_ s h 0x24) p (some h))) ∧
      let u := quiesceBegin (begin_ s h 0x24) p (some h)
      exec (.quiesceAbort h) s = .next (settle (quiesceAbortInv u p (lsCmd u h)))) ∧
    (∀ (off : Nat) (v : Word) (t : State), CmdReady s h .polder 0x12 → s.phiro.busy = false → fieldWrite s p off v.toNat = (0, t) →
      Completes (.bsFieldWrite h off v) s t h 0x12 { status := 0 }) ∧
    (∀ (off x : Nat) (sh : Bool), CmdReady s h .polder 0x12 → fieldRead s p off sh = (0, x) →
      Completes (.bsFieldRead h off sh) s s h 0x12 { status := 0, result := bytesLE 8 x }) ∧
    (∀ a : Nat, CmdReady s h .polder 0x42 → (core s p).started = false → a % 4 = 0 → a < 2 ^ 48 →
      Completes (.coreStart h a) s
        (modCore s p fun c => { c with started := true, pc := a, starts := c.starts + 1, mCoxel := sha256 (mgetN c.entrySram 0 16384 ++ bytesLE 8 a) })
        h 0x42 { status := 0x80 }) ∧
    (CmdReady s h .polder 0x41 → Completes (.breachReq h) s (modCore s p fun c => { c with breachReq := true }) h 0x41 { status := 0x80 }) ∧
    (CmdReady s h .polder 0x43 →
      Completes (.coreInt h) s (modCore s p fun c => { c with intPend := c.intPend ||| 2 }) h 0x43 { status := 0x80 }) ∧
    (∀ f : FreezeInfo, CmdReady s h .either 0x40 → po.frzCore = some f → coreTags s p = false →
      (f.vcode ≠ 8 →
        Completes (.unfreezeResume h 0) s (modPolder s p fun po => { po with frzCore := none }) h 0x40 { status := 0x60 } ∧
        Completes (.unfreezeDeliver h 0) s
          (enter (modPolder s p fun po => { po with frzCore := none }) p
            { cause := 6, epc := f.pc, addr := f.addr, inst := f.inst, code := f.vcode % 32, half2 := f.half2, word := f.inst }) h 0x40 { status := 0x60 }) ∧
      Completes (.unfreezeReset h 0) s (coreReset s p) h 0x40 { status := 0x60 })

/-- The ring commands of the device, UPDATE and translation (R67, R73, R74, R251, R446, R448, R454–R456, R504, R511–R513): as the title of
`HostCommandResults` says; a load that zeroes nothing completes at once; an opcode that Tables 15-4 and 18-1 do not give, or a reserved byte
that is not zero, is a violation of the ring with DETAIL 1 or 2.
The model's own choices in it: log 10, 25. -/
def Obligations.DeviceCommandResults : Prop :=
  ∀ (s : State) (h : CmdHdr),
    (CmdReady s h .device 0x01 → Completes (.nop h) s s h 0x01 { status := 0x80 }) ∧
    (∀ (off st : Nat) (v : Word) (t : State), CmdReady s h .device 0x02 → winWrite s off v.toNat = (st, t) →
      Completes (.regw h off v) s (if t.power.rstReq = s.power.rstReq then t else
        { t with power := { t.power with rstAsk := some (h.ring, t.dt) } }) h 0x02 { status := st }) ∧
    (∀ (pa len st d : Nat) (b : List Byte) (t u : State), CmdReady s h .device 0x10 → s.phiro.busy = false → pa % 8 = 0 → len ≤ 65536 →
      devRead s (lsCmd s h) pa len = (some b, t) → loadImage t b = (st, d, u) → (∀ m, checkImage t b = .ok m → loadZeroes t m = false) →
      Completes (.bsLoad h pa len) s u h 0x10 { status := st, detail := d }) ∧
    (∀ h' : CmdHdr, s.phiro.loading = some h' → s.power.rstWait = [] →
      Completes .loadZeroingDone s { s with phiro := { s.phiro with busy := false, loading := none, affects := [] } } h' 0x10 { status := 0 }) ∧
    (∀ hb off : Nat, CmdReady s h .device 0x11 → s.phiro.loaded = true → (hbuf s hb).valid = true → readbackImage s ≠ [] →
      off + (readbackImage s).length ≤ (hbuf s hb).len → bufCan s hb = true →
      Completes (.bsReadback h hb off) s (hostWrite s hb off (readbackImage s) (lsCmd s h) (.ring h.ring)) h 0x11
        { status := 0, detail := (readbackImage s).length }) ∧
    (CmdReady s h .device 0x50 → (∀ p, p < 24 → named s p = true → polderRuns s p = false) →
      exec (.unbind h) s = .next (settle (endBinding (cplDeliver (complete s h 0x50 { status := 0x80 }) h.ring)))) ∧
    (∀ (pa op fmt : Nat) (x c : Word) (r : UpdRes) (t : State), CmdReady s h .either 0x30 → h.pol = 0xFF → opValid op fmt = true →
      pa % opSize fmt = 0 → pa < 2 ^ 48 → physOpen s pa 1 = true → imageHit s [(pa, opSize fmt)] = false → tagFor s 24 (.ring h.ring) = true →
      updateAtom (dropWaiter s 24 (· == .ring h.ring)) { src := 24, ls := lsCmd s h, cls := none, p := 0xFF, req := .ring h.ring } pa op fmt [x.toNat % 2 ^ (8 * opSize fmt)]
        (c.toNat % 2 ^ (8 * opSize fmt)) = (.ok r, t) →
      Completes (.update h pa op fmt x c) s t h 0x30
        { status := 0x80, result := (if op = 3 ∨ op = 4 then bytesLE 8 (r.old.headD 0) else bytesLE 8 0) ++ bytesLE 1 r.fl }) ∧
    (∀ (asid va len scope gen : Nat) (force : Bool), CmdReady s h .polder 0x38 → scope < 2 →
      (force = true ∨ gen % 2 ^ 32 = ((polder s h.pol).xltGen + 1) % 2 ^ 32) →
      let v : InvScope := { scope := scope, asid := asid, va := va, len := len }
      let t := dropWalks (dropXlat (begin_ (modPolder s h.pol fun po => { po with xltGen := gen % 2 ^ 32 }) h 0x38) h.pol v.covers) h.pol
      let l := tget [] t.xlat.invals h.pol ++ [{ cmd := h, held := v.holds (polder s h.pol) }]
      exec (.xltInv h scope force asid gen va len) s = .next (settle { t with xlat := { t.xlat with invals := tset [] t.xlat.invals h.pol l } })) ∧
    (∀ (p : Nat) (v : Inval) (rest : List Inval), tget [] s.xlat.invals p = v :: rest → polderTags s p = false → mayDrain s p 8 = none →
      let u := if named s p then drainAll s p else s
      Completes (.xltInvComplete p) s { u with xlat := { u.xlat with invals := tset [] u.xlat.invals p rest } } v.cmd 0x38
        { status := 0x70, flags := if v.held then 2 else 0 }) ∧
    (∀ (fid : Nat) (f : NpFault), CmdReady s h .polder 0x39 → faultOf s h.pol fid = some f → f.waiters = [] → (polder s h.pol).vqueue = [] →
      Completes (.xltResume h fid) s { s with xlat := { s.xlat with faults := s.xlat.faults.filter (· ≠ f) } } h 0x39 { status := 0x70 } ∧
      Completes (.xltResumeFail h fid) s { s with xlat := { s.xlat with faults := s.xlat.faults.filter (· ≠ f) } } h 0x39 { status := 0x70 }) ∧
    (∀ fid : Nat, CmdReady s h .polder 0x39 → faultOf s h.pol fid = none →
      Completes (.xltResume h fid) s s h 0x39 { status := 0x73 } ∧ Completes (.xltResumeFail h fid) s s h 0x39 { status := 0x73 }) ∧
    (∀ (opc : Nat) (rsv : Bool), ringReady s h.ring = true → (opcDefined opc = false ∨ rsv = true) →
      exec (.undefinedCommand h opc rsv) s = .next (settle (violateRing s h opc (if opcDefined opc then 2 else 1))))

/-- The management commands and the ends of what they begin (R556–R573, R578–R582), on a ring whose header passes while Reeve serves and no other
runs: staging, STORE and its end, reports into a host buffer, the nonce and its 60 s, the owner key, the firmware update's write, its end
and its activation.
The model's own choices in it: log 3, 10, 24. -/
def Obligations.ManagementResults : Prop :=
  ∀ (s : State) (h : CmdHdr),
    (∀ (ty : Nat) (v d : List Byte), MgmtReady s h 0x61 → setValue ty v = some d →
      Completes (.setWrite h ty v) s
        { s with reeve := if ty = 1 then { s.reeve with stagedNet4 := some d } else { s.reeve with stagedNet6 := some d } } h 0x61 { status := 0x90 }) ∧
    (∀ bs : BitVec 2, MgmtReady s h 0x60 → bs ≠ 3 → s.phiro.busy = false → s.reeve.update = none → (bs = 1 → s.phiro.loaded = true) →
      exec (.store h bs) s = .next (settle
        { begin_ s h 0x60 with reeve := { s.reeve with store := some (h, !newerIsB s.reeve, storeSet s bs) } })) ∧
    (∀ (h' : CmdHdr) (toB : Bool) (b : SetBank), s.reeve.store = some (h', toB, b) → s.reeve.nvBad.contains (if toB then 1 else 0) = false →
      Completes (.storeComplete true) s
        { s with reeve := { s.reeve with store := none, stagedNet4 := none, stagedNet6 := none, bankA := if toB then s.reeve.bankA else setBytes b,
                                         bankB := if toB then setBytes b else s.reeve.bankB } } h' 0x60 { status := 0x90 }) ∧
    (∀ hb off : Nat, (hbuf s hb).valid = true → bufCan s hb = true →
      let put := fun (s : State) (d : List Byte) => hostWrite s hb off d (lsCmd s h) (.ring h.ring)
      (MgmtReady s h 0x63 → off + Config.certChain.length ≤ (hbuf s hb).len →
        Completes (.idRead h hb off) s (if Config.certChain = [] then s else put s Config.certChain) h 0x63
          { status := 0x90, detail := Config.certChain.length }) ∧
      (MgmtReady s h 0x6A → off + 2112 ≤ (hbuf s hb).len →
        Completes (.sensorRead h hb off) s (put s (sensorIds.flatMap (sensorRecord s))) h 0x6A { status := 0x90, detail := 132 }) ∧
      (∀ first n : Nat, MgmtReady s h 0x69 → 0 < n → n ≤ 4096 →
        let a := max first (s.reeve.logNext - 81920)
        let k := min n (s.reeve.logNext - a)
        0 < k → off + 64 * k ≤ (hbuf s hb).len →
        Completes (.logRead (.host h) hb off first n) s (put s (logBytes s.reeve a k)) h 0x69
          { status := 0x90, detail := k, result := bytesLE 8 (a + k) }) ∧
      (∀ n : List Byte, MgmtReady s h 0x62 →
        let b := attestBody s n ++ sigBytes (Config.identitySign s.free (sha256 (attestBody s n)))
        off + b.length ≤ (hbuf s hb).len →
        Completes (.attest h hb off n) s (put { s with free := s.free + 1 } b) h 0x62 { status := 0x90 }) ∧
      (MgmtReady s h 0x66 → off + 32 ≤ (hbuf s hb).len →
        let b := slice (Config.freeBytes s.free) 0 32
        Completes (.nonce h hb off) s (put { s with free := s.free + 1, reeve := { s.reeve with nonce := some (b, s.dt) } } b) h 0x66
          { status := 0x90 })) ∧
    (∀ (b : List Byte) (t : Nat), s.reeve.nonce = some (b, t) →
      exec .nonceExpiry s = .next (settle { advanceTo s (t + 60 * dtS) with reeve := { s.reeve with nonce := none } })) ∧
    (∀ (pa : Nat) (b n : List Byte) (t : State), devRead s (lsCmd s h) pa 160 = (some b, t) → nonceNow t = some n → t.reeve.nvBad.contains 4 = false →
      (let key := (natBE (slice b 0 32), natBE (slice b 32 32))
       MgmtReady s h 0x64 → s.reeve.owner = none → natLE (slice b 0x40 32) = 0 →
       (if ecVerify key (ownerDigest t n tagEnrl) (ecSigAt b 0x60) then
         Completes (.ownerEnrol h pa) s
           { t with reeve := { t.reeve with owner := some key, ownerEnrols := (t.reeve.ownerEnrols + 1) % 2 ^ 32, nonce := none } } h 0x64
           { status := 0x90 }
        else Completes (.ownerEnrol h pa) s t h 0x64 { status := 0x92 })) ∧
      (∀ own : Nat × Nat, MgmtReady s h 0x65 → s.reeve.owner = some own → leAt b 0x40 1 = 2 → natLE (slice b 0 64) = 0 →
       natLE (slice b 0x41 31) = 0 →
       (if ecVerify own (ownerDigest t n tagWdrw) (ecSigAt b 0x60) then
         Completes (.ownerWithdraw h pa) s { t with reeve := { t.reeve with owner := none, nonce := none } } h 0x65 { status := 0x90 }
        else Completes (.ownerWithdraw h pa) s t h 0x65 { status := 0x92 }))) ∧
    (∀ (pa len : Nat) (b : List Byte) (t : State), MgmtReady s h 0x67 → s.reeve.update = none → s.phiro.busy = false → pa % 8 = 0 → len ≤ 12 * 2 ^ 20 →
      devRead s (lsCmd s h) pa len = (some b, t) →
      (if fwCheck t b = 0x90 then
        exec (.fwUpdate h pa len) s = .next (settle
          { begin_ t h 0x67 with reeve := { t.reeve with
              upd := 1, updPath := 1
              update := some (some h, { image := b, svn := leAt b 0x10 4, sigOk := true, seq := (otherSlot t.reeve).seq, active := false }) } })
       else Completes (.fwUpdate h pa len) s t h 0x67 { status := fwCheck t b })) ∧
    (∀ (h' : CmdHdr) (f : FwSlot), s.reeve.update = some (some h', f) → s.reeve.nvBad.contains (if s.reeve.runSlot then 2 else 3) = false →
      Completes (.fwWrittenVerified true) s
        { s with reeve := { s.reeve with
            slotA := if s.reeve.runSlot then f else s.reeve.slotA, slotB := if s.reeve.runSlot then s.reeve.slotB else f, upd := 2, update := none } }
        h' 0x67 { status := 0x90 }) ∧
    (MgmtReady s h 0x68 → s.reeve.upd = 2 → s.reeve.recovery = false → s.reeve.nvBad.contains (if s.reeve.runSlot then 2 else 3) = false →
      let v := s.reeve
      let f := { (if v.runSlot then v.slotA else v.slotB) with
        seq := ((if v.runSlot then v.slotB else v.slotA).seq + 1) % 2 ^ 32, active := true }
      Completes (.fwActivate h) s
        { s with reeve := { v with slotA := if v.runSlot then f else v.slotA, slotB := if v.runSlot then v.slotB else f, upd := 3 } } h 0x68
        { status := 0x90 })

/-- The rings, the event queue and the registers written (R10, R486, R507–R512, R515, R517, R520, R555, Tables 14-7, 15-9, 17-8): a doorbell within the
ring's free entries sets TAIL; a ring that is ready reads the entry at HEAD and performs its command; EN zeroes HEAD, TAIL and the count, and
clearing it leaves them; a consumer count not ahead of the producer is taken; HIGH_CLR sets HIGH to the tags in use; KILN_CTL.EN = 0
releases the units under test. A register write by REGW or by the core's OUT is that of the window or of the I/O space; from U mode the core
freezes with MODE.
The model's own choices in it: log 3, 9, 10, 25, 27, 29. -/
def Obligations.RingRegisterResults : Prop :=
  ∀ s : State,
    (∀ imm : Word32, portUp s = true → bound s = true →
      let r := imm.toNat % 256
      let t := imm.toNat / 256 % 65536
      let k := ring s r
      let d := (t + 65536 - k.tail) % 65536
      imm.toNat / 2 ^ 24 = 0 → k.en = true → 0 < d → d < 32768 → d + (k.tail + 65536 - k.head) % 65536 ≤ 2 ^ k.size →
      exec (.doorbell imm) s = .next (settle (modRing s r fun k => { k with tail := t }))) ∧
    (∀ (r opc w : Nat) (b : List Byte) (t : State), r < 256 → ringReady s r = true →
      let pa := (ring s r).base * 4096 + 64 * ((ring s r).head % 2 ^ (ring s r).size)
      let h0 : CmdHdr := { ring := r, pol := 0xFF, cookie := 0 }
      physOpen s pa 64 = true → frameHeld s pa = false → tagFor s 24 (.ring r) = true →
      readSpan (dropWaiter s 24 (· == .ring r)) (ringCtx s h0) (pieces pa 64) = (.ok b, t) → natLE b = w → opc = w % 256 → opcDefined opc = true →
      entryReserved opc w = false →
      exec (.ringCommand r) s = .next (settle (perform t { ring := r, pol := w / 65536 % 256, cookie := w / 2 ^ 32 % 2 ^ 32 } opc w))) ∧
    (∀ (r : Nat) (v : Word), r < 256 →
      ((ring s r).en = false → v.getLsbD 0 = true →
        exec (.ringEnable r v) s = .next (settle (modRing s r fun k =>
          { k with base := bits v.toNat 12 32, size := if 4 ≤ bits v.toNat 1 4 ∧ bits v.toNat 1 4 ≤ 12 then bits v.toNat 1 4 else k.size,
                   en := true, head := 0, tail := 0, cplProd := 0, held := [] }))) ∧
      ((ring s r).en = true → v.getLsbD 0 = false → exec (.ringDisable r v) s = .next (settle (modRing s r fun k => { k with en := false })))) ∧
    (∀ (r : Nat) (v : Word32), r < 256 →
      (newerThan v.toNat (ring s r).cplProd = false →
        exec (.cplConsWrite r v) s = .next (settle (modRing s r fun k => { k with cplCons := v.toNat }))) ∧
      (newerThan v.toNat (ring s r).cplProd = true → exec (.cplConsWrite r v) s = .next (settle (modRing s r id)))) ∧
    (∀ v : Word, s.port.evq.en = false → v.getLsbD 8 = true →
      let c := bits v.toNat 32 32
      exec (.evqEnable v) s = .next (settle { s with port := { s.port with evq := { s.port.evq with
        en := true, hbuf := bits v.toNat 0 8, prod := 0, cons := if newerThan c 0 then s.port.evq.cons else c } } })) ∧
    (∀ v : Word, s.port.evq.en = true → v.getLsbD 8 = false →
      let c := bits v.toNat 32 32
      exec (.evqDisable v) s = .next (settle { s with port := { s.port with evq := { s.port.evq with
        en := false, cons := if newerThan c s.port.evq.prod then s.port.evq.cons else c } } })) ∧
    (∀ v : Word32, exec (.evqConsWrite v) s = .next (settle { s with port := { s.port with evq := { s.port.evq with
        cons := if newerThan v.toNat s.port.evq.prod then s.port.evq.cons else v.toNat } } })) ∧
    (∀ o : Nat, o < 32 → exec (.highClr o) s = .next (settle (modOwner s o fun w => { w with high := w.tags.length }))) ∧
    (∀ v : Word,
      let k := if bits v.toNat 8 8 ≤ 168 then { s.kiln with hours := bits v.toNat 8 8 } else s.kiln
      (v.getLsbD 0 = true → exec (.kilnEnable v) s = .next (settle { s with kiln := { k with en := true } })) ∧
      (v.getLsbD 0 = false → exec (.kilnDisable v) s = .next (settle { s with kiln := { k with en := false, testing := [] } }))) ∧
    (∀ (a p st : Nat) (v : Word) (t : State),
      (winWrite s a v.toNat = (st, t) → exec (.registerWrite .regw a v) s = .next (settle t)) ∧
      (0x10000 ≤ a → a < 0x15000 → winWrite s a v.toNat = (st, t) → exec (.registerWrite .rdma a v) s = .next (settle t)) ∧
      (coreReady s p = true →
        let s' := { s with free := s.free + 1 }
        ((core s p).user = true → ioRange a = true →
          exec (.registerWrite (.core p) a v) s =
            .next (settle (violate s' p 2 false 0xFFFFFFFF a ((Config.freeWord s.free).setWidth 32)))) ∧
        ((core s p).user = false ∨ ioRange a = false → a % 8 = 0 → tagFor s (leadOf s p) (.core p) = true → (core s p).sb = [] →
          ioWrite (tagPulse (leaveLine s' p) (leadOf s p)) p a 8 v.toNat = (st, t) →
          exec (.registerWrite (.core p) a v) s = .next (settle t))))

/-! ### The scalar core: integer, bit, CRC-step and floating-point instructions -/

/-- R301: a register read gives the last value written to it, and g0 reads zero whatever is written. -/
def Obligations.RegisterFile : Prop :=
  ∀ (c : Core) (r q : Reg) (v : Word), gpr (setGpr c r v) q = if q = 0 then 0 else if q = r then v else gpr c q

/-- R306: the integer instructions of Table 9-4 write their result and change nothing else of the machine.
The model's own choices in it: log 10. -/
def Obligations.IntegerResults : Prop :=
  ∀ (s f : State) (p : Nat) (d ra rb : Reg), Fetched s p f →
    let a := gpr (core f p) ra
    let b := gpr (core f p) rb
    ∀ e ∈ ([
      (.add p d ra rb, a + b),
      (.sub p d ra rb, a - b),
      (.and_ p d ra rb, a &&& b),
      (.or_ p d ra rb, a ||| b),
      (.xor_ p d ra rb, a ^^^ b),
      (.sll p d ra rb, BitVec.ofNat 64 (a.toNat * 2 ^ (b.toNat % 64))),
      (.srl p d ra rb, BitVec.ofNat 64 (a.toNat / 2 ^ (b.toNat % 64))),
      (.sra p d ra rb, BitVec.ofInt 64 (a.toInt / 2 ^ (b.toNat % 64))),
      (.slt p d ra rb, if a.toInt < b.toInt then 1 else 0),
      (.sltu p d ra rb, if a.toNat < b.toNat then 1 else 0),
      (.min p d ra rb, BitVec.ofInt 64 (min a.toInt b.toInt)),
      (.max p d ra rb, BitVec.ofInt 64 (max a.toInt b.toInt)),
      (.minu p d ra rb, BitVec.ofNat 64 (min a.toNat b.toNat)),
      (.maxu p d ra rb, BitVec.ofNat 64 (max a.toNat b.toNat)),
      (.mul p d ra rb, BitVec.ofInt 64 (a.toInt * b.toInt)),
      (.mulh p d ra rb, BitVec.ofInt 64 (a.toInt * b.toInt / 2 ^ 64)),
      (.mulhu p d ra rb, BitVec.ofNat 64 (a.toNat * b.toNat / 2 ^ 64))] : List (Instr × Word)),
      CoreRuns e.1 s f p (wrote (core f p) d e.2)

/-- R306: the .W forms compute on bits [31:0] and write their 32-bit result sign-extended.
The model's own choices in it: log 10. -/
def Obligations.WordResults : Prop :=
  ∀ (s f : State) (p : Nat) (d ra rb : Reg), Fetched s p f →
    let a := (gpr (core f p) ra).setWidth 32
    let b := (gpr (core f p) rb).setWidth 32
    ∀ e ∈ ([
      (.addW p d ra rb, BitVec.ofInt 32 (a.toInt + b.toInt)),
      (.subW p d ra rb, BitVec.ofInt 32 (a.toInt - b.toInt)),
      (.sllW p d ra rb, BitVec.ofNat 32 (a.toNat * 2 ^ (b.toNat % 32))),
      (.srlW p d ra rb, BitVec.ofNat 32 (a.toNat / 2 ^ (b.toNat % 32))),
      (.sraW p d ra rb, BitVec.ofInt 32 (a.toInt / 2 ^ (b.toNat % 32))),
      (.mulW p d ra rb, BitVec.ofInt 32 (a.toInt * b.toInt))] : List (Instr × Word32)),
      CoreRuns e.1 s f p (wrote (core f p) d (e.2.signExtend 64))

/-- R306: with a nonzero divisor the quotient goes toward zero and the remainder has the dividend's sign.
The model's own choices in it: log 10. -/
def Obligations.DivisionResults : Prop :=
  ∀ (s f : State) (p : Nat) (d ra rb : Reg), Fetched s p f →
    let a := gpr (core f p) ra
    let b := gpr (core f p) rb
    let aw := a.setWidth 32
    let bw := b.setWidth 32
    (b ≠ 0 → ∀ e ∈ ([
      (.div p d ra rb, BitVec.ofInt 64 (a.toInt.tdiv b.toInt)),
      (.divu p d ra rb, BitVec.ofNat 64 (a.toNat / b.toNat)),
      (.rem p d ra rb, BitVec.ofInt 64 (a.toInt.tmod b.toInt)),
      (.remu p d ra rb, BitVec.ofNat 64 (a.toNat % b.toNat))] : List (Instr × Word)),
      CoreRuns e.1 s f p (wrote (core f p) d e.2)) ∧
    (bw ≠ 0 → ∀ e ∈ ([
      (.divW p d ra rb, BitVec.ofInt 32 (aw.toInt.tdiv bw.toInt)),
      (.divuW p d ra rb, BitVec.ofNat 32 (aw.toNat / bw.toNat)),
      (.remW p d ra rb, BitVec.ofInt 32 (aw.toInt.tmod bw.toInt)),
      (.remuW p d ra rb, BitVec.ofNat 32 (aw.toNat % bw.toNat))] : List (Instr × Word32)),
      CoreRuns e.1 s f p (wrote (core f p) d (e.2.signExtend 64)))

/-- R307: division by zero and the signed division of the most negative value by −1: results as stated, no trap and no flag. -/
def Obligations.DivisionCorners : Prop :=
  ∀ (s f : State) (p : Nat) (d ra rb : Reg), Fetched s p f →
    let a := gpr (core f p) ra
    let b := gpr (core f p) rb
    let aw := a.setWidth 32
    let bw := b.setWidth 32
    (b = 0 → ∀ e ∈ ([(.div p d ra rb, -1), (.divu p d ra rb, -1), (.rem p d ra rb, a), (.remu p d ra rb, a)] : List (Instr × Word)),
      CoreRuns e.1 s f p (wrote (core f p) d e.2)) ∧
    (bw = 0 → ∀ e ∈ ([(.divW p d ra rb, -1), (.divuW p d ra rb, -1), (.remW p d ra rb, aw.signExtend 64),
        (.remuW p d ra rb, aw.signExtend 64)] : List (Instr × Word)),
      CoreRuns e.1 s f p (wrote (core f p) d e.2)) ∧
    (a.toInt = -2 ^ 63 → b.toInt = -1 →
      CoreRuns (.div p d ra rb) s f p (wrote (core f p) d a) ∧ CoreRuns (.rem p d ra rb) s f p (wrote (core f p) d 0)) ∧
    (aw.toInt = -2 ^ 31 → bw.toInt = -1 →
      CoreRuns (.divW p d ra rb) s f p (wrote (core f p) d (aw.signExtend 64)) ∧ CoreRuns (.remW p d ra rb) s f p (wrote (core f p) d 0))

/-- R306: the bit instructions of Table 9-4; a .W form works on bits [31:0] and zero-extends.
The model's own choices in it: log 10. -/
def Obligations.BitResults : Prop :=
  ∀ (s f : State) (p : Nat) (d ra : Reg), Fetched s p f →
    let a := gpr (core f p) ra
    let w := a.setWidth 32
    ∀ e ∈ ([
      (.clz p d ra, BitVec.ofNat 64 ((List.range 64).takeWhile fun i => !a.getLsbD (63 - i)).length),
      (.ctz p d ra, BitVec.ofNat 64 ((List.range 64).takeWhile fun i => !a.getLsbD i).length),
      (.popc p d ra, BitVec.ofNat 64 ((List.range 64).countP fun i => a.getLsbD i)),
      (.par p d ra, BitVec.ofNat 64 ((List.range 64).countP (fun i => a.getLsbD i) % 2)),
      (.brev p d ra, a.reverse),
      (.bswap p d ra, BitVec.ofNat 64 (natLE (bytesLE 8 a.toNat).reverse)),
      (.clzW p d ra, BitVec.ofNat 64 ((List.range 32).takeWhile fun i => !w.getLsbD (31 - i)).length),
      (.ctzW p d ra, BitVec.ofNat 64 ((List.range 32).takeWhile fun i => !w.getLsbD i).length),
      (.popcW p d ra, BitVec.ofNat 64 ((List.range 32).countP fun i => w.getLsbD i)),
      (.parW p d ra, BitVec.ofNat 64 ((List.range 32).countP (fun i => w.getLsbD i) % 2)),
      (.brevW p d ra, w.reverse.setWidth 64),
      (.bswapW p d ra, BitVec.ofNat 64 (natLE (bytesLE 4 w.toNat).reverse))] : List (Instr × Word)),
      CoreRuns e.1 s f p (wrote (core f p) d e.2)

/-- R304: the immediate forms of Table 9-3.
The model's own choices in it: log 10. -/
def Obligations.ImmediateResults : Prop :=
  ∀ (s f : State) (p : Nat) (d ra : Reg) (imm : BitVec 16) (sh : BitVec 6), Fetched s p f →
    let a := gpr (core f p) ra
    ∀ e ∈ ([
      (.addi p d ra imm, BitVec.ofInt 64 (a.toInt + imm.toInt)),
      (.andi p d ra imm, a &&& imm.setWidth 64),
      (.ori p d ra imm, a ||| imm.setWidth 64),
      (.xori p d ra imm, a ^^^ imm.setWidth 64),
      (.lui p d imm, BitVec.ofInt 64 (imm.toInt * 2 ^ 16)),
      (.slti p d ra imm, if a.toInt < imm.toInt then 1 else 0),
      (.slli p d ra sh, BitVec.ofNat 64 (a.toNat * 2 ^ sh.toNat)),
      (.srli p d ra sh, BitVec.ofNat 64 (a.toNat / 2 ^ sh.toNat)),
      (.srai p d ra sh, BitVec.ofInt 64 (a.toInt / 2 ^ sh.toNat)),
      (.shori p d ra imm, BitVec.ofNat 64 (a.toNat * 2 ^ 16 + imm.toNat))] : List (Instr × Word)),
      CoreRuns e.1 s f p (wrote (core f p) d e.2)

/-- R308: CRC32 and CRC32C step the reflected CRC of bits [31:0] of ga over the low 1, 2, 4 or 8 bytes of gb, lowest byte first; bits
[63:32] of the result are zero. -/
def Obligations.CrcStepResults : Prop :=
  ∀ (s f : State) (p : Nat) (d ra rb : Reg) (sz : BitVec 2), Fetched s p f →
    let a := gpr (core f p) ra
    let b := gpr (core f p) rb
    ∀ e ∈ ([(.crc32 p d ra rb sz, 0xEDB88320), (.crc32c p d ra rb sz, 0x82F63B78)] : List (Instr × Nat)),
      let r := (bytesLE (2 ^ sz.toNat) b.toNat).foldl
        (fun c x => Nat.repeat (fun c => if c % 2 = 1 then (c / 2) ^^^ e.2 else c / 2) 8 (c ^^^ x.toNat)) (a.toNat % 2 ^ 32)
      r < 2 ^ 32 ∧ CoreRuns e.1 s f p (wrote (core f p) d (BitVec.ofNat 64 r))

/-- R311: the floating-point instructions of Table 9-5, with FUNC[10] selecting FP64 or FP32 operands and FPCTL.RM the rounding of the
operations that round; flags are raised in FPCTL and an FP32 result has zero above bit 31.
The model's own choices in it: log 10. -/
def Obligations.FloatResults : Prop :=
  ∀ (s f : State) (p : Nat) (single : Bool) (d ra rb : Reg), Fetched s p f →
    let c := core f p
    let fm := if single then 1 else 0
    let arg := fun r => if single then (gpr c r).toNat % 2 ^ 32 else (gpr c r).toNat
    let a := arg ra
    let b := arg rb
    let rm := fld c.fpctl 8 3
    let sg := if single then 2 ^ 31 else 2 ^ 63
    ∀ e ∈ ([
      (.fadd p single d ra rb, fAdd fm rm a b),
      (.fsub p single d ra rb, fSub fm rm a b),
      (.fmul p single d ra rb, fMul fm rm a b),
      (.fdiv p single d ra rb, fDiv fm rm a b),
      (.fsqrt p single d ra, fSqrt fm rm a),
      (.fma p single d ra rb, fMulAdd fm rm a b (arg d)),
      (.fmin p single d ra rb, ⟨fMaxMin false fm a b, fSnanFlag fm a b⟩),
      (.fmax p single d ra rb, ⟨fMaxMin true fm a b, fSnanFlag fm a b⟩),
      (.feq p single d ra rb, fCmp fm 0 a b),
      (.flt p single d ra rb, fCmp fm 1 a b),
      (.fle p single d ra rb, fCmp fm 2 a b),
      (.fneg p single d ra, ⟨a ^^^ sg, 0⟩),
      (.fabs p single d ra, ⟨a % sg, 0⟩),
      (.fsgnj p single d ra rb, ⟨a % sg + b / sg * sg, 0⟩),
      (.fkind p single d ra, ⟨fKind fm a, 0⟩),
      (.fcvtF p single d ra, fConv (1 - fm) fm rm false (if single then (gpr c ra).toNat else (gpr c ra).toNat % 2 ^ 32)),
      (.fcvtL p single d ra, let x := fToInt rm (-2 ^ 63) (2 ^ 63 - 1) (fDec fm a); ⟨toBits 64 x.1, x.2⟩),
      (.fcvtLz p single d ra, let x := fToInt 1 (-2 ^ 63) (2 ^ 63 - 1) (fDec fm a); ⟨toBits 64 x.1, x.2⟩),
      (.fcvtWi p single d ra, let x := fToInt rm (-2 ^ 31) (2 ^ 31 - 1) (fDec fm a); ⟨toBits 64 x.1, x.2⟩),
      (.fcvtWz p single d ra, let x := fToInt 1 (-2 ^ 31) (2 ^ 31 - 1) (fDec fm a); ⟨toBits 64 x.1, x.2⟩),
      (.icvt p single d ra, fEnc fm rm false (ofInt (gpr c ra).toInt)),
      (.ucvt p single d ra, fEnc fm rm false (ofInt (gpr c ra).toNat))] : List (Instr × FRes)),
      CoreRuns e.1 s f p (wroteFp c d e.2)

/-! ### The scalar core: loads, stores, atomics, I/O, control flow, CSRs and system instructions -/

/-- R312: the address is ga + sign_extend(disp16); the .B, .H, .W and .D loads sign-extend what they read and the U forms zero-extend it.
The model's own choices in it: log 10. -/
def Obligations.LoadResults : Prop :=
  ∀ (s f g : State) (p v : Nat) (d ra : Reg) (disp : BitVec 16), Fetched s p f →
    let va := (gpr (core f p) ra + disp.signExtend 64).toNat
    ∀ e ∈ ([
      (.ldB p d ra disp, 1, fun v => (BitVec.ofNat 8 v).signExtend 64),
      (.ldBu p d ra disp, 1, fun v => (BitVec.ofNat 8 v).setWidth 64),
      (.ldH p d ra disp, 2, fun v => (BitVec.ofNat 16 v).signExtend 64),
      (.ldHu p d ra disp, 2, fun v => (BitVec.ofNat 16 v).setWidth 64),
      (.ldW p d ra disp, 4, fun v => (BitVec.ofNat 32 v).signExtend 64),
      (.ldWu p d ra disp, 4, fun v => (BitVec.ofNat 32 v).setWidth 64),
      (.ldD p d ra disp, 8, fun v => BitVec.ofNat 64 v)] : List (Instr × Nat × (Nat → Word))),
      v < 2 ^ (8 * e.2.1) → loadData f p va e.2.1 = (.ok v, g) → CoreRuns e.1 s g p (wrote (core g p) d (e.2.2 v))

/-- R312, R313, R335: what a load reads. From the core-local SRAM and from memory, with no buffered store in the way, the bytes there,
lowest first, with every byte of memory as before; from a buffered store that holds all of them, that store's bytes, with nothing
changed. -/
def Obligations.LoadSources : Prop :=
  (∀ (f : State) (p va n : Nat), (core f p).user = false → sramBase ≤ va → va + n ≤ 2 ^ 48 → n ∈ [1, 2, 4, 8] →
    Unbuffered f p (.sram (va - sramBase)) n →
    loadData f p va n = (.ok (natLE (mgetN (core f p).localSram (va - sramBase) n)), f)) ∧
  (∀ (f g : State) (p va n pa : Nat), va < sramBase → va % 8 + n ≤ 8 → 0 < n → pa % 8 + n ≤ 8 →
    translate f (dReq f p va 1 0 (core f p).user) = (.ok pa, g) → Unbuffered g p (.mem pa) n → dceOn (core g p) = false →
    mayAsk g p 0 pa = none →
    MemSound g (leadOf g p) pa →
    ∃ u, loadData f p va n = (.ok (natLE (mgetN g.mem pa n)), u) ∧ u.mem = g.mem) ∧
  (∀ (f g : State) (p va n pa : Nat) (x : SbEntry), va < sramBase → va % 8 + n ≤ 8 → 0 < n →
    translate f (dReq f p va 1 0 (core f p).user) = (.ok pa, g) → (core g p).sb.getLast? = some x → x.local_ = false →
    x.pa ≤ pa → pa + n ≤ x.pa + x.data.length →
    loadData f p va n = (.ok (natLE ((x.data.drop (pa - x.pa)).take n)), g))

/-- R312, R313, R334: a store whose halves are canonical and placed enters the store buffer, one entry a half with the low bytes of gs,
after the oldest entries that must leave for it have drained; the load and store addresses are formed alike.
The model's own choices in it: log 10. -/
def Obligations.StoreResults : Prop :=
  ∀ (s f g : State) (p : Nat) (gs ra : Reg) (disp : BitVec 16) (ls : List (Loc × Nat)), Fetched s p f →
    let va := (gpr (core f p) ra + disp.signExtend 64).toNat
    ∀ e ∈ ([(.stB p gs ra disp, 1), (.stH p gs ra disp, 2), (.stW p gs ra disp, 4), (.stD p gs ra disp, 8)] : List (Instr × Nat)),
      let hs := if va % 8 + e.2 ≤ 8 then [(va, e.2)] else [(va, 8 - va % 8), (va - va % 8 + 8, va % 8 + e.2 - 8)]
      va + e.2 ≤ 2 ^ 48 → placeAll f p 2 0 true hs false = (.ok ls, g) →
        mayDrain g p ((core g p).sb.length + hs.length - 8) = none →
        let h := drainN p ((core g p).sb.length + hs.length - 8) g
        CoreRuns e.1 s h p (past { core h p with sb := (core h p).sb ++ sbEntries ls hs (bytesLE e.2 (gpr (core f p) gs).toNat) })

/-- R334: the oldest entry of the store buffer leaves it and its bytes, no others, are in their home: the core-local SRAM, or memory that is
sound and reached.
The model's own choices in it: log 10. -/
def Obligations.StoreDrains : Prop :=
  ∀ (s : State) (p : Nat) (x : SbEntry) (rest : List SbEntry), named s p = true → (core s p).sb = x :: rest →
    (x.local_ = true → CoreRuns (.storeBufferDrain p) s s p
      { core s p with sb := rest, localSram := msetN (core s p).localSram x.pa x.data }) ∧
    (x.local_ = false → mayDrain s p 1 = none → imageHit s [(x.pa, x.data.length)] = false → MemSound s (leadOf s p) x.pa →
      x.pa % 8 + x.data.length ≤ 8 →
      ∃ u, exec (.storeBufferDrain p) s = .next (settle u) ∧ (core u p).sb = rest ∧ u.mem = msetN s.mem x.pa x.data)

/-- R315: an atomic on an aligned, placed word or doubleword, once the store buffer has drained: the old value to gd, and at the core-local
SRAM the sum, gb, or gb where the old value equals gd, in its place; at a home, the outcome of the adder there.
The model's own choices in it: log 10, 12. -/
def Obligations.AtomicResults : Prop :=
  ∀ (s f g : State) (p : Nat) (d ra rb : Reg) (dbl : Bool), Fetched s p f →
    let va := (gpr (core f p) ra).toNat
    let n := if dbl then 8 else 4
    let b := (gpr (core f p) rb).toNat % 2 ^ (8 * n)
    let c := (gpr (core f p) d).toNat % 2 ^ (8 * n)
    va < 2 ^ 48 → va % n = 0 → mayDrain g p 8 = none →
    ∀ e ∈ ([(.amoadd p d ra rb dbl, 0, fun old => (old + b) % 2 ^ (8 * n)), (.amoswap p d ra rb dbl, 3, fun _ => b),
        (.amocas p d ra rb dbl, 4, fun old => if old = c then b else old)] : List (Instr × Nat × (Nat → Nat))),
      (∀ off, place f p va n 3 0 false = (.ok (.sram off), g) →
        let h := drainAll g p
        let old := natLE (mgetN (core h p).localSram off n)
        CoreRuns e.1 s h p { wrote (core h p) d (BitVec.ofInt 64 (sext (8 * n) old)) with
          localSram := msetN (core h p).localSram off (bytesLE n (e.2.2 old)) }) ∧
      (∀ pa r u, place f p va n 3 0 false = (.ok (.mem pa), g) →
        let h := modCore (drainAll g p) p fun k => dcInval k pa n
        mayAsk h p 2 pa = none → updateAtom h (coreCtx h p 0 (.coreAtomic p)) pa e.2.1
          (if e.2.1 = 0 then (if dbl then 4 else 3) else if dbl then 6 else 5) [b] c = (.ok r, u) →
        CoreRuns e.1 s u p (wrote (core u p) d (BitVec.ofInt 64 (sext (8 * n) (r.old.headD 0)))))

/-- R309: CRCB and CRCB.C step the CRC from gd[31:0] over min(gb, 256) bytes of D-space in ascending order; with gb = 0 gd keeps its value.
The model's own choices in it: log 10. -/
def Obligations.BlockCrcResults : Prop :=
  ∀ (s f g u : State) (p : Nat) (d ra rb : Reg) (ls : List (Loc × Nat)) (bs : List Byte), Fetched s p f →
    let c := core f p
    let va := (gpr c ra).toNat
    let n := min (gpr c rb).toNat 256
    let ps := bytePieces 40 va n
    ∀ e ∈ ([(.crcb p d ra rb, 0xEDB88320), (.crcbC p d ra rb, 0x82F63B78)] : List (Instr × Nat)),
      (n = 0 → CoreRuns e.1 s f p (past c)) ∧
      (n ≠ 0 → va + n ≤ 2 ^ 48 → placeAll f p 1 0 false ps false = (.ok ls, g) → readHalves g p false ls ps false = (.ok bs, u) →
        CoreRuns e.1 s u p (wrote (core u p) d (BitVec.ofNat 64 (crcBytes e.2 ((gpr c d).toNat % 2 ^ 32) bs))))

/-- R316, R317: IN and OUT at an aligned address, of a register the mode may reach, act once a tag is free and the store buffer has drained: the value read
to gd and the status to IOSTAT; the status of the write to gd and to IOSTAT.
The model's own choices in it: log 10, 27. -/
def Obligations.IoResults : Prop :=
  ∀ (s f u : State) (p st v : Nat) (d ra rb : Reg) (disp : BitVec 16), Fetched s p f →
    let c := core f p
    let g := tagPulse (leaveLine (drainAll f p) p) (leadOf f p)
    tagFor f (leadOf f p) (.core p) = true → mayDrain f p 8 = none →
    (let va := (gpr c ra + disp.signExtend 64).toNat
     ∀ e ∈ ([(.inW p d ra disp, 4), (.inD p d ra disp, 8)] : List (Instr × Nat)),
       va % e.2 = 0 → (c.user = false ∨ ioRange va = false) → ioRead g p va e.2 = (st, v, u) →
       CoreRuns e.1 s u p { wrote (core u p) d (BitVec.ofNat 64 v) with iostat := BitVec.ofNat 8 st }) ∧
    (let va := (gpr c ra).toNat
     ∀ e ∈ ([(.outW p d ra rb, 4), (.outD p d ra rb, 8)] : List (Instr × Nat)),
       va % e.2 = 0 → (c.user = false ∨ ioRange va = false) → ioWrite g p va e.2 (gpr (core g p) rb).toNat = (st, u) →
       CoreRuns e.1 s u p { wrote (core u p) d (BitVec.ofNat 64 st) with iostat := BitVec.ofNat 8 st })

/-- Rows of the I/O registers: an OUT.D or IN.D that addresses the row's register is the OUT or IN, whose own statement gives its effect;
R53 (BSF_DATA), R278 and R283 (RCP_ADMIT with OP 1 and 2), R284 (INV_START), R272 (SL_CTL), R263 (a word of the tensor window), R380
(TIMER_CMP). -/
def Obligations.IoRegisterRows : Prop :=
  ∀ (s f u : State) (p st v : Nat) (d ra rb : Reg) (disp : BitVec 16), Fetched s p f → (core f p).user = false →
    gpr (core s p) ra = gpr (core f p) ra → gpr (core s p) rb = gpr (core f p) rb →
    let va := (gpr (core f p) ra).toNat
    let x := (gpr (core f p) rb).toNat
    let g := tagPulse (leaveLine (drainAll f p) p) (leadOf f p)
    tagFor f (leadOf f p) (.core p) = true → mayDrain f p 8 = none →
    let o : OutOp := { gd := d, ga := ra, gb := rb, dbl := true }
    (∀ e ∈ ([
      (.bsfDataWrite p o, va = 0x4008),
      (.rcpAdmit p o, va = 0x4810 ∧ bits x 58 2 = 1),
      (.rcpWithdraw p o, va = 0x4810 ∧ bits x 58 2 = 2),
      (.invStartWrite p o, va = 0x4800),
      (.slCtlSet p o, va = 0x4808 ∧ bit x 12 = true),
      (.slCtlClear p o, va = 0x4808 ∧ bit x 12 = false),
      (.ttWindowWrite p ((va - 0x10000) / 32) o, 0x10000 ≤ va ∧ va < 0x30000 ∧ va % 8 = 0),
      (.timerCmpWrite p o, va = 0x5010)] : List (Instr × Prop)),
      e.2 → ioWrite g p va 8 (gpr (core g p) rb).toNat = (st, u) →
      CoreRuns e.1 s u p { wrote (core u p) d (BitVec.ofNat 64 st) with iostat := BitVec.ofNat 8 st }) ∧
    ((gpr (core f p) ra + disp.signExtend 64).toNat = 0x4008 → ioRead g p 0x4008 8 = (st, v, u) →
      CoreRuns (.bsfDataRead p { gd := d, ga := ra, disp := disp, dbl := true }) s u p
        { wrote (core u p) d (BitVec.ofNat 64 v) with iostat := BitVec.ofNat 8 st })

/-- R320: the branches compare signed or unsigned and go to their own address plus 4 × the signed offset when the condition holds.
The model's own choices in it: log 10. -/
def Obligations.BranchResults : Prop :=
  ∀ (s f : State) (p : Nat) (ra rb : Reg) (off : BitVec 16), Fetched s p f →
    let c := core f p
    let a := gpr c ra
    let b := gpr c rb
    c.pc < 2 ^ 48 →
    ∀ e ∈ ([
      (.beq p ra rb off, decide (a = b)), (.bne p ra rb off, decide (a ≠ b)),
      (.blt p ra rb off, decide (a.toInt < b.toInt)), (.bge p ra rb off, decide (b.toInt ≤ a.toInt)),
      (.bltu p ra rb off, decide (a.toNat < b.toNat)), (.bgeu p ra rb off, decide (b.toNat ≤ a.toNat))] : List (Instr × Bool)),
      CoreRuns e.1 s f p { c with pc := if e.2 then (((c.pc : Int) + 4 * off.toInt) % 2 ^ 64).toNat else c.pc + 4, instret := c.instret + 1 }

/-- R320: JMP and CALL go to their own address plus 4 × the signed offset, JR and CALLR to ga where it is a canonical multiple of 4; CALL
writes the address of the next instruction to g30 and CALLR to gd.
The model's own choices in it: log 10. -/
def Obligations.JumpResults : Prop :=
  ∀ (s f : State) (p : Nat) (d ra : Reg) (off : BitVec 26), Fetched s p f →
    let c := core f p
    let t := (((c.pc : Int) + 4 * off.toInt) % 2 ^ 64).toNat
    let a := (gpr c ra).toNat
    let next := BitVec.ofNat 64 (c.pc + 4)
    c.pc < 2 ^ 48 →
    CoreRuns (.jmp p off) s f p { c with pc := t, instret := c.instret + 1 } ∧
    CoreRuns (.call p off) s f p { setGpr c 30 next with pc := t, instret := c.instret + 1 } ∧
    (a % 4 = 0 → a < 2 ^ 48 →
      CoreRuns (.jr p ra) s f p { c with pc := a, instret := c.instret + 1 } ∧
      CoreRuns (.callr p d ra) s f p { setGpr c d next with pc := a, instret := c.instret + 1 })

/-- R323, R324: in K mode CSRR writes the value in effect of each CSR of Table 9-9 to gd and changes nothing else.
The model's own choices in it: log 10. -/
def Obligations.CsrReads : Prop :=
  ∀ (s f : State) (p : Nat) (d : Reg), Fetched s p f → (core f p).user = false →
    let c := core f p
    ∀ e ∈ ([
      (0x000, BitVec.ofNat 64 (aclkCycles (leadOf f p) (f.dt - c.dtReset) c.dtReset)), (0x001, c.instret), (0x002, BitVec.ofNat 64 f.dt), (0x003, c.fpctl),
      (0x010, BitVec.ofNat 64 c.vl), (0x011, c.vtype),
      (0x100, BitVec.ofNat 64 (c.ml * 256 + (if c.breach then 16 else 0) + if c.user then 1 else 0)), (0x101, c.estatus), (0x102, c.epc),
      (0x103, c.ecause), (0x104, c.eaddr), (0x105, c.einst), (0x106, c.bstk), (0x107, c.mldef), (0x110, c.itb), (0x111, c.dtb),
      (0x112, BitVec.ofNat 64 c.asid), (0x120, c.cctl),
      (0x130, BitVec.ofNat 64 ((cdAt f (leadOf f p)).polder * 65536 +
        (if 24 ≤ (cdAt f (leadOf f p)).rank then 0 else (cdAt f (leadOf f p)).rank) * 256 + leadOf f p)),
      (0x140, tget 0 c.scratch 0), (0x141, tget 0 c.scratch 1), (0x142, tget 0 c.scratch 2), (0x143, tget 0 c.scratch 3),
      (0x150, c.iostat.setWidth 64)] : List (BitVec 12 × Word)),
      CoreRuns (.csrr p d e.1) s f p (wrote c d e.2)

/-- R323, R325: in K mode CSRW, CSRS and CSRC return the old value and write ga, old OR ga, old AND NOT ga: the CSRs in effect at once take
it under their layout, the SYNC.C ones take it into their pending copy.
The model's own choices in it: log 10. -/
def Obligations.CsrWrites : Prop :=
  ∀ (s f : State) (p : Nat) (d ra : Reg), Fetched s p f → (core f p).user = false →
    let c := core f p
    let a := gpr c ra
    ∀ e ∈ ([
      (0x000, BitVec.ofNat 64 (aclkCycles (leadOf f p) (f.dt - c.dtReset) c.dtReset), fun _ c => c), (0x001, c.instret, fun _ c => c), (0x002, BitVec.ofNat 64 f.dt, fun _ c => c),
      (0x010, BitVec.ofNat 64 c.vl, fun v c => { c with vl := min v.toNat (vlMax f p (fld c.vtype 0 3)) }),
      (0x011, c.vtype, fun v c =>
        let t := putVtype c.vtype v
        { c with vtype := t, vl := min c.vl (vlMax f p (fld t 0 3)) }),
      (0x100, BitVec.ofNat 64 (c.ml * 256 + (if c.breach then 16 else 0) + if c.user then 1 else 0),
        fun v c => if c.breach then c else { c with ml := fld v 8 3 }),
      (0x101, c.estatus, fun v c => { c with estatus := v &&& 0x701 }), (0x102, c.epc, fun v c => { c with epc := v &&& ~~~ 3 }),
      (0x103, c.ecause, fun v c => { c with ecause := v &&& 0x1FFF }), (0x104, c.eaddr, fun v c => { c with eaddr := v &&& 0xFFFFFFFFFFFF }),
      (0x105, c.einst, fun v c => { c with einst := v &&& 0xFFFFFFFF }), (0x106, c.bstk, fun v c => { c with bstk := v &&& 0xFFFFFFFFFFC0 }),
      (0x107, c.mldef, fun v c => { c with pendCsr := tins c.pendCsr 0x107 (v &&& 0xFFFFFFFFFFFF) }),
      (0x110, c.itb, fun v c => { c with pendCsr := tins c.pendCsr 0x110 (v &&& 0xFFFFFFFF001) }),
      (0x111, c.dtb, fun v c => { c with pendCsr := tins c.pendCsr 0x111 (v &&& 0xFFFFFFFF001) }),
      (0x112, BitVec.ofNat 64 c.asid, fun v c => { c with pendCsr := tins c.pendCsr 0x112 (v &&& 0xFFFF) }),
      (0x120, c.cctl, fun v c => { c with pendCsr := tins c.pendCsr 0x120 (v &&& 7) }),
      (0x130, BitVec.ofNat 64 (coreId f p), fun _ c => c),
      (0x140, tget 0 c.scratch 0, fun v c => { c with scratch := tset 0 c.scratch 0 v }),
      (0x141, tget 0 c.scratch 1, fun v c => { c with scratch := tset 0 c.scratch 1 v }),
      (0x142, tget 0 c.scratch 2, fun v c => { c with scratch := tset 0 c.scratch 2 v }),
      (0x143, tget 0 c.scratch 3, fun v c => { c with scratch := tset 0 c.scratch 3 v }),
      (0x150, c.iostat.setWidth 64, fun _ c => c)] : List (BitVec 12 × Word × (Word → Core → Core))),
      CoreRuns (.csrw p d ra e.1) s f p (wrote (e.2.2 a c) d e.2.1) ∧
      CoreRuns (.csrs p d ra e.1) s f p (wrote (e.2.2 (e.2.1 ||| a) c) d e.2.1) ∧
      CoreRuns (.csrc p d ra e.1) s f p (wrote (e.2.2 (e.2.1 &&& ~~~ a) c) d e.2.1)

/-- R323: FPCTL, in either mode. CSRW takes a defined RM and clears the flags written as 1; CSRS and CSRC change RM only.
The model's own choices in it: log 10. -/
def Obligations.FpctlWrites : Prop :=
  ∀ (s f : State) (p : Nat) (d ra : Reg), Fetched s p f →
    let c := core f p
    let a := gpr c ra
    let fl := fld c.fpctl 0 5
    let rm := fun v : Word => if fld v 8 3 ≤ 3 then fld v 8 3 else fld c.fpctl 8 3
    CoreRuns (.csrw p d ra 3) s f p (wrote { c with fpctl := BitVec.ofNat 64 (rm a * 256 + (fl - (fl &&& fld a 0 5))) } d c.fpctl) ∧
    CoreRuns (.csrs p d ra 3) s f p (wrote { c with fpctl := BitVec.ofNat 64 (rm (c.fpctl ||| a) * 256 + fl) } d c.fpctl) ∧
    CoreRuns (.csrc p d ra 3) s f p (wrote { c with fpctl := BitVec.ofNat 64 (rm (c.fpctl &&& ~~~ a) * 256 + fl) } d c.fpctl)

/-- Table 9-7: FENCE waits for the store buffer to drain, whose stores must find their tags and homes (R408, R480); WAIT stops issue until an interrupt; DC.INVALL empties the data cache, DC.INV the
line of its address, mapped or not; SYNC.I drains and empties the instruction cache and the line buffer; SYNC.C drains, puts every pending
CSR into effect, applies the polder's live fields of that point and discards the line buffer. All but FENCE and DC.INV in K mode.
The model's own choices in it: log 10. -/
def Obligations.SystemResults : Prop :=
  ∀ (s f : State) (p : Nat), Fetched s p f →
    let h := drainAll f p
    (mayDrain f p 8 = none → CoreRuns (.fence p) s h p (past (core h p))) ∧
    ((core f p).user = false →
      CoreRuns (.wait p) s f p { past (core f p) with waiting := true } ∧
      CoreRuns (.dcInvall p) s f p { past (core f p) with dcache := [] } ∧
      (mayDrain f p 8 = none → CoreRuns (.syncI p) s h p { past (core h p) with icache := [], lineBuf := [] } ∧
      exec (.syncC p) s = .next (settle (retire (applySync (modCore h p fun c =>
        { c.pendCsr.foldl (fun c e => applyCsr c e.1 e.2) c with pendCsr := [], lineBuf := [] }) p) p)))) ∧
    ∀ (ra : Reg) (g : State) (pa : Nat), (gpr (core f p) ra).toNat < sramBase →
      (translate f (dReq f p (gpr (core f p) ra).toNat 0 0 (core f p).user) = (.ok pa, g) →
        CoreRuns (.dcInv p ra) s g p { past (core g p) with dcache := (core g p).dcache.filter fun l => l.line != pa / 64 }) ∧
      (∀ lvl, translate f (dReq f p (gpr (core f p) ra).toNat 0 0 (core f p).user) = (.absent pa lvl, g) →
        CoreRuns (.dcInv p ra) s g p (past (core g p)))

/-- R320, R305, R382: TRAP and a word that names no instruction enter the handlers of causes 4 and 0: the frame of Table 11-9 below g31, the
old mode in the privilege shadow and in ESTATUS, EPC at the instruction, EINST the word for cause 0, the code of TRAP in ECAUSE, K mode at
ML 7, pc at 0x1000 + 16 × cause.
The model's own choices in it: log 10. -/
def Obligations.TrapEntry : Prop :=
  ∀ (s f g : State) (p : Nat) (code : Reg) (w : Word32) (loc : Loc), Fetched s p f →
    (EntryOk f p 4 loc g →
      let u := coreWrite g p loc (frameOf (core f p))
      CoreRuns (.trap p code) s u p (entered (core f p) (core u p) 4 code.toNat (core f p).pc 0 0)) ∧
    (EntryOk f p 0 loc g → namesInstr w = false →
      let u := coreWrite g p loc (frameOf (core f p))
      CoreRuns (.reservedOpcode p w) s u p (entered (core f p) (core u p) 0 0 (core f p).pc 0 w.toNat))

/-- R386, R389: RFE outside Breach returns to EPC with ML and the mode of ESTATUS, takes the five registers from the frame at g31, and pops
g31 and the privilege shadow; in Breach it returns by the frame at BSTK.
The model's own choices in it: log 10. -/
def Obligations.ReturnResults : Prop :=
  ∀ (s f : State) (p : Nat), Fetched s p f → (core f p).user = false →
    (∀ (g : State) (d : List Byte), (core f p).breach = false →
      ¬ ((core f p).shadow.getLast? = some true ∧ (core f p).estatus.getLsbD 0 = false) →
      readFrame (leaveLine f p) p (gpr (core f p) 31).toNat = (some d, g) →
      let c := core g p
      CoreRuns (.rfe p) s g p
        { setGpr c 31 (gpr c 31 + 32) with
          epc := BitVec.ofNat 64 (leAt d 0 8 / 4 * 4), estatus := BitVec.ofNat 64 (leAt d 8 8) &&& 0x701,
          ecause := BitVec.ofNat 64 (leAt d 16 4) &&& 0x1FFF, einst := BitVec.ofNat 64 (leAt d 20 4),
          eaddr := BitVec.ofNat 64 (leAt d 24 8 % 2 ^ 48), pc := c.epc.toNat, ml := bits c.estatus.toNat 8 3,
          user := c.estatus.getLsbD 0, shadow := c.shadow.dropLast, instret := c.instret + 1 }) ∧
    ((core f p).breach = true → sramBase ≤ (core f p).bstk.toNat →
      let loc := Loc.sram ((core f p).bstk.toNat - sramBase)
      let g := if (core f p).sb.any fun x => overlaps (sbKey x) x.data.length (locKey loc) 64 then drainOver f p loc 64 else f
      let c := core g p
      let d := mgetN c.localSram ((core f p).bstk.toNat - sramBase) 64
      ¬ (c.bpriv = true ∧ bit (leAt d 8 8) 0 = false) →
      CoreRuns (.rfe p) s g p
        { setGpr c 31 (BitVec.ofNat 64 (leAt d 48 8)) with
          pc := leAt d 0 8 / 4 * 4, user := bit (leAt d 8 8) 0, breach := bit (leAt d 8 8) 4,
          ml := if bit (leAt d 8 8) 4 then 7 else bits (leAt d 8 8) 8 3,
          bstk := BitVec.ofNat 64 (((core f p).bstk.toNat + 64) % 2 ^ 48), instret := c.instret + 1 })

/-- R321: a K-mode instruction executed in U mode is a protection fault: the core freezes with VCODE MODE and the instruction has no
effect of its own. -/
def Obligations.PrivilegeFreezes : Prop :=
  ∀ (s f : State) (p : Nat), Fetched s p f → (core f p).user = true → (core f p).breach = false →
    ∀ e ∈ ([(.syncC p, wR 0x2D 0 0 0 0), (.syncI p, wR 0x2D 0 0 0 1), (.wait p, wR 0x2D 0 0 0 3), (.rfe p, wR 0x2D 0 0 0 4),
        (.dcInvall p, wR 0x2D 0 0 0 9)] : List (Instr × Word32)),
      exec e.1 s = .next (settle (freezeCore f p 1 false 0xFFFFFFFF 0 e.2))

/-! ### The vector extension and the matrix instructions -/

/-- R338, R339: elements written to a register at one SEW read back at that SEW, and no other element of any register changes. -/
def Obligations.VectorRegisterFile : Prop :=
  ∀ (po : Polder) (L k : Nat) (r q : Reg) (l : List (Nat × Nat)) (i : Nat), 0 < L → L ≤ 24576 → k < 4 →
    (∀ e ∈ l, e.1 < 8 * (64 / (8 <<< k)) * L) → (l.map (·.1)).Nodup → i < 8 * (64 / (8 <<< k)) * L →
    vGet (l.foldl (fun po e => vPut L k r.toNat po e.1 e.2) po) L k q.toNat i =
      if q = r then (match l.find? fun e => e.1 == i with | some e => e.2 % 2 ^ (8 <<< k) | none => vGet po L k q.toNat i)
      else vGet po L k q.toNat i

/-- R341: SETVL sets VTYPE[15:0] and VL and leaves the count that remains; an undefined imm16 traps. -/
def Obligations.SetvlResults : Prop :=
  ∀ (s f : State) (p : Nat) (d ra : Reg) (imm : BitVec 16), Fetched s p f →
    let c := core f p
    let n := (gpr c ra).toNat
    let ok := bits imm.toNat 4 9 = 0 ∧ bits imm.toNat 13 3 ≠ 7 ∧ bits imm.toNat 0 3 < 4
    let vlmax := 1024 * nMembers f p * (polder f p).sec.vslots * 64 / (8 * 2 ^ bits imm.toNat 0 3)
    (ok → CoreRuns (.setvl p d ra imm) s f p
      (wrote { c with vtype := imm.setWidth 64, vl := min n vlmax } d (BitVec.ofNat 64 (n - min n vlmax)))) ∧
    (¬ ok → exec (.setvl p d ra imm) s = .next (settle (raiseExc f p 0 0 0 false (wI 0x38 d ra imm))))

/-- R351: the floating-point vector instructions, at a SEW of 16, 32 or 64 whose format is switched on, write op(a, b, d) to each active
element of vd and OR the flags into FPCTL.
The model's own choices in it: log 10. -/
def Obligations.VectorFloatResults : Prop :=
  ∀ (s f g : State) (p fm : Nat) (o : VOp), Issues s p f g → (o.vm = false → o.mreg = 0) →
    let x := vctx f p
    let rm := fld x.c.fpctl 8 3
    x.fp = some fm → fmtOn x.po fm = true →
    let ends := fun (i : Instr) (op : Nat → Nat → Nat → FRes) =>
      let rs := (x.active o).map fun e => (e, op (x.get o.va e) (x.opB o e) (x.get o.vd e))
      exec i s = .next (settle (retire (raiseFlags (putElems g p x o.vd (rs.map fun r => (r.1, r.2.v))) p (flagsOf rs)) p))
    (∀ e ∈ ([
      (.vfadd p o, fun a b _ => fAdd fm rm a b), (.vfsub p o, fun a b _ => fSub fm rm a b), (.vfmul p o, fun a b _ => fMul fm rm a b),
      (.vfdiv p o, fun a b _ => fDiv fm rm a b), (.vfma p o, fun a b d => fMulAdd fm rm a b d),
      (.vfnma p o, fun a b d => fMulAdd fm rm (a ^^^ fSign fm) b d),
      (.vfmin p o, fun a b _ => ⟨fMaxMin false fm a b, fSnanFlag fm a b⟩), (.vfmax p o, fun a b _ => ⟨fMaxMin true fm a b, fSnanFlag fm a b⟩),
      (.vfsgnj p o, fun a b _ => ⟨a % fSign fm + b / fSign fm % 2 * fSign fm, 0⟩)] : List (Instr × (Nat → Nat → Nat → FRes))),
      ends e.1 e.2) ∧
    (o.s = false → o.vb = 0 → ∀ e ∈ ([
      (.vfsqrt p o, fun a _ _ => fSqrt fm rm a), (.vfneg p o, fun a _ _ => ⟨a ^^^ fSign fm, 0⟩), (.vfabs p o, fun a _ _ => ⟨a % fSign fm, 0⟩),
      (.vfkind p o, fun a _ _ => ⟨fKind fm a, 0⟩)] : List (Instr × (Nat → Nat → Nat → FRes))),
      ends e.1 e.2)

/-- R352: the integer vector instructions of Table 10-8 write op(a, b) modulo 2^SEW to each active element of vd, the saturating ones the
nearest value of the signed or unsigned range; VSEL chooses by m[MK] and VMV copies.
The model's own choices in it: log 10. -/
def Obligations.VectorIntegerResults : Prop :=
  ∀ (s f g : State) (p : Nat) (o : VOp), Issues s p f g → (o.vm = false → o.mreg = 0) →
    let x := vctx f p
    let n := x.sew
    let ends := fun (i : Instr) (l : List (Nat × Nat)) => exec i s = .next (settle (retire (putElems g p x o.vd l) p))
    (∀ e ∈ ([
      (.vadd p o, fun a b => (a + b) % 2 ^ n), (.vsub p o, fun a b => (a + 2 ^ n - b) % 2 ^ n), (.vmul p o, fun a b => a * b % 2 ^ n),
      (.vmulh p o, fun a b => toBits n (sext n a * sext n b / (2 ^ n : Nat))), (.vmulhu p o, fun a b => a * b / 2 ^ n),
      (.vand p o, fun a b => a &&& b), (.vor p o, fun a b => a ||| b), (.vxor p o, fun a b => a ^^^ b),
      (.vsll p o, fun a b => a * 2 ^ (b % n) % 2 ^ n), (.vsrl p o, fun a b => a / 2 ^ (b % n)),
      (.vsra p o, fun a b => toBits n (sext n a / (2 ^ (b % n) : Nat))),
      (.vmin p o, fun a b => if sext n b < sext n a then b else a), (.vmax p o, fun a b => if sext n a < sext n b then b else a),
      (.vminu p o, fun a b => min a b), (.vmaxu p o, fun a b => max a b),
      (.vsadd p o, fun a b => iSat true n (sext n a + sext n b)), (.vssub p o, fun a b => iSat true n (sext n a - sext n b)),
      (.vsaddu p o, fun a b => iSat false n ((a : Int) + b)), (.vssubu p o, fun a b => iSat false n ((a : Int) - b))]
        : List (Instr × (Nat → Nat → Nat))),
      ends e.1 ((x.active o).map fun i => (i, e.2 (x.get o.va i) (x.opB o i)))) ∧
    (o.vm = true → ends (.vsel p o) ((List.range x.c.vl).map fun i =>
      (i, if mGet x.po o.mreg.toNat i then x.opB o i else x.get o.va i))) ∧
    ((if o.s then o.va = 0 else o.vb = 0) → ends (.vmv p o) ((x.active o).map fun i => (i, if o.s then x.scalar o.vb else x.get o.va i)))

/-- R351, R352, R363: the comparisons write a bit for each active element to mask register vd, and the mask operations one for each element
below VL; a floating-point comparison ORs its flags into FPCTL.
The model's own choices in it: log 10. -/
def Obligations.VectorMaskResults : Prop :=
  ∀ (s f g : State) (p : Nat) (o : VOp), Issues s p f g → (o.vm = false → o.mreg = 0) → o.vd.toNat < 8 →
    let x := vctx f p
    let n := x.sew
    (∀ e ∈ ([
      (.vmseq p o, fun a b => a == b), (.vmslt p o, fun a b => decide (sext n a < sext n b)), (.vmsltu p o, fun a b => decide (a < b))]
        : List (Instr × (Nat → Nat → Bool))),
      exec e.1 s = .next (settle (retire (putMask g p o.vd.toNat ((x.active o).map fun i => (i, e.2 (x.get o.va i) (x.opB o i)))) p))) ∧
    (∀ fm, x.fp = some fm → fmtOn x.po fm = true → ∀ e ∈ ([(.vfeq p o, 0), (.vflt p o, 1), (.vfle p o, 2)] : List (Instr × Nat)),
      let rs := (x.active o).map fun i => (i, fCmp fm e.2 (x.get o.va i) (x.opB o i))
      exec e.1 s = .next (settle (retire (raiseFlags (putMask g p o.vd.toNat (rs.map fun r => (r.1, r.2.v == 1))) p (flagsOf rs)) p))) ∧
    (o.s = false → o.vm = false → o.va.toNat < 8 → o.vb.toNat < 8 → ∀ e ∈ ([
      (.vmand p o, fun a b => a && b), (.vmor p o, fun a b => a || b), (.vmxor p o, fun a b => a != b), (.vmandn p o, fun a b => a && !b)]
        : List (Instr × (Bool → Bool → Bool))),
      exec e.1 s = .next (settle (retire (putMask g p o.vd.toNat
        ((List.range x.c.vl).map fun i => (i, e.2 (mGet x.po o.va.toNat i) (mGet x.po o.vb.toNat i)))) p)))

/-- R363: the permutes move elements of va: by the indices of vb, up or down by gb with 0 from beyond VL, the active ones packed, the count of
set mask bits below each, and gb's one element from a general register.
The model's own choices in it: log 10. -/
def Obligations.VectorPermuteResults : Prop :=
  ∀ (s f g : State) (p : Nat) (o : VOp), Issues s p f g → o.s = false → (o.vm = false → o.mreg = 0) →
    let x := vctx f p
    let b := (gpr x.c o.vb).toNat
    let vl := x.c.vl
    let ends := fun (i : Instr) (l : List (Nat × Nat)) => exec i s = .next (settle (retire (putElems g p x o.vd l) p))
    (o.vd ≠ o.va → o.vd ≠ o.vb →
      ends (.vperm p o) ((x.active o).map fun i => (i, if x.get o.vb i < vl then x.get o.va (x.get o.vb i) else 0))) ∧
    (o.vd ≠ o.va → ends (.vslideup p o) (((x.active o).filter fun i => b ≤ i).map fun i => (i, x.get o.va (i - b)))) ∧
    (o.vd ≠ o.va → ends (.vslidedn p o) ((x.active o).map fun i => (i, if i + b < vl then x.get o.va (i + b) else 0))) ∧
    (o.vm = true → o.vd ≠ o.va → o.vb = 0 → ends (.vcompress p o) ((x.active o).zipIdx.map fun i => (i.2, x.get o.va i.1))) ∧
    (o.vm = true → o.va = 0 → o.vb = 0 → ends (.viota p o)
      ((List.range vl).map fun i => (i, ((List.range i).filter fun j => mGet x.po o.mreg.toNat j).length % 2 ^ x.sew))) ∧
    (o.vm = false → ends (.vmvS p o) (if b < vl then [(b, x.scalar o.va)] else []))

/-- R350, R363, R364: a reduction combines gb with the tree over the elements below VL, an inactive one standing for the operation's identity;
VPOPC counts the set mask bits below VL, VFIRST gives the first or all ones, VMV.X reads an element; each result is on its way to gd.
The model's own choices in it: log 10, 14. -/
def Obligations.VectorReductions : Prop :=
  ∀ (s f g : State) (p : Nat) (o : VOp), Issues s p f g → o.s = false → (o.vm = false → o.mreg = 0) →
    let x := vctx f p
    let n := x.sew
    let vl := x.c.vl
    let ends := fun (i : Instr) (v fl : Nat) => exec i s = .next (settle (redStart g p o.vd v fl))
    let red := fun (i : Instr) (ident : Nat) (op : Comb) =>
      (vl = 0 → ends i (gpr x.c o.vb).toNat 0) ∧
      (vl ≠ 0 →
        let t := vTree op 22 ((List.range vl).map fun e => if !o.vm || mGet x.po o.mreg.toNat e then x.get o.va e else ident)
        let r := op (x.scalar o.vb) t.v
        ends i r.v (t.fl ||| r.fl))
    (∀ e ∈ ([
      (.vredAdd p o, 0, fun a b => ⟨(a + b) % 2 ^ n, 0⟩), (.vredMin p o, 2 ^ (n - 1) - 1, fun a b => ⟨if sext n b < sext n a then b else a, 0⟩),
      (.vredMax p o, 2 ^ (n - 1), fun a b => ⟨if sext n a < sext n b then b else a, 0⟩), (.vredMinu p o, 2 ^ n - 1, fun a b => ⟨min a b, 0⟩),
      (.vredMaxu p o, 0, fun a b => ⟨max a b, 0⟩)] : List (Instr × Nat × Comb)), red e.1 e.2.1 e.2.2) ∧
    (∀ fm, x.fp = some fm → fmtOn x.po fm = true → ∀ e ∈ ([
      (.vredFadd p o, fSign fm, fun a b => fAdd fm (fld x.c.fpctl 8 3) a b),
      (.vredFmin p o, fNan fm, fun a b => ⟨fMaxMin false fm a b, fSnanFlag fm a b⟩),
      (.vredFmax p o, fNan fm, fun a b => ⟨fMaxMin true fm a b, fSnanFlag fm a b⟩)] : List (Instr × Nat × Comb)), red e.1 e.2.1 e.2.2) ∧
    (o.vm = true → o.va = 0 → o.vb = 0 →
      ends (.vpopc p o) ((List.range vl).filter fun i => mGet x.po o.mreg.toNat i).length 0 ∧
      ends (.vfirst p o) ((((List.range vl).filter fun i => mGet x.po o.mreg.toNat i).head?).getD (2 ^ 64 - 1)) 0) ∧
    (o.vm = false → ends (.vmvX p o) (if (gpr x.c o.vb).toNat < vl then x.get o.va (gpr x.c o.vb).toNat else 0) 0)

/-- R350: the result of a reduction and its flags reach the lead core, which completes the instruction.
The model's own choices in it: log 10. -/
def Obligations.ReductionReturns : Prop :=
  ∀ (s : State) (p : Nat) (w : RedWait), named s p = true → (polder s p).frzCore = none → (core s p).redWait = some w →
    CoreRuns (.reductionResultReturn p) s s p
      { wrote (core s p) w.gd w.value with redWait := none, fpctl := (core s p).fpctl ||| BitVec.ofNat 64 (w.fl % 32) }

/-- R365: a scan writes to element e the prefix over the elements of its segment up to e, segments beginning at the set bits of m[MK].
The model's own choices in it: log 10. -/
def Obligations.VectorScans : Prop :=
  ∀ (s f g : State) (p : Nat) (o : VOp), Issues s p f g → o.s = false → o.vb = 0 → (o.vm = false → o.mreg = 0) →
    let x := vctx f p
    let n := x.sew
    let scan := fun (i : Instr) (op : Comb) =>
      let rs := (List.range x.c.vl).map fun e =>
        let h := if o.vm then ((List.range (e + 1)).reverse.find? fun j => mGet x.po o.mreg.toNat j).getD 0 else 0
        (e, vPrefix op 21 none ((span h (e - h + 1)).map fun j => x.get o.va j))
      exec i s = .next (settle (retire (raiseFlags (putElems g p x o.vd (rs.map fun r => (r.1, r.2.v))) p (flagsOf rs)) p))
    (∀ e ∈ ([
      (.vscanAdd p o, fun a b => ⟨(a + b) % 2 ^ n, 0⟩), (.vscanMin p o, fun a b => ⟨if sext n b < sext n a then b else a, 0⟩),
      (.vscanMax p o, fun a b => ⟨if sext n a < sext n b then b else a, 0⟩), (.vscanMinu p o, fun a b => ⟨min a b, 0⟩),
      (.vscanMaxu p o, fun a b => ⟨max a b, 0⟩)] : List (Instr × Comb)), scan e.1 e.2) ∧
    (∀ fm, x.fp = some fm → fmtOn x.po fm = true → ∀ e ∈ ([
      (.vscanFadd p o, fun a b => fAdd fm (fld x.c.fpctl 8 3) a b), (.vscanFmin p o, fun a b => ⟨fMaxMin false fm a b, fSnanFlag fm a b⟩),
      (.vscanFmax p o, fun a b => ⟨fMaxMin true fm a b, fSnanFlag fm a b⟩)] : List (Instr × Comb)), scan e.1 e.2)

/-- R367, R369: the transcendental functions at SEW 32, and the first three at SEW 64, and the conversions from the source that vb names, each
active element on its own, flags into FPCTL. A transcendental gives the values that Table 10-11 states, +Inf with OF where VEXP overflows, and
else a value within the table's bound of the exactly rounded one (log 3).
The model's own choices in it: log 3, 10. -/
def Obligations.VectorFunctions : Prop :=
  ∀ (s f g : State) (p fm : Nat) (o : VOp) (src : CvtSrc), Issues s p f g → o.s = false → (o.vm = false → o.mreg = 0) →
    let x := vctx f p
    let rm := fld x.c.fpctl 8 3
    let ends := fun (i : Instr) (op : Nat → FRes) =>
      let rs := (x.active o).map fun e => (e, op e)
      exec i s = .next (settle (retire (raiseFlags (putElems g p x o.vd (rs.map fun r => (r.1, r.2.v))) p (flagsOf rs)) p))
    (o.vb = 0 → x.fp = some fm → fmtOn x.po fm = true → ∀ e ∈ ([
      (.vexp p o, 0), (.vlog p o, 1), (.vrsqrt p o, 2), (.vtanh p o, 3), (.verf p o, 4), (.vsigm p o, 5), (.vsilu p o, 6), (.vgelu p o, 7)]
        : List (Instr × Nat)),
      (x.k = 2 ∨ (x.k = 3 ∧ e.2 < 3)) → ends e.1 fun i => transc e.2 fm (x.get o.va i)) ∧
    (∀ (fn a m : Nat) (neg : Bool) (e : Int), transcSpecial fn fm a = none → fDec fm a = .fin neg m e →
      let r := (transcRef fn fm neg m e).v
      (r % fSign fm = fInf fm → transc fn fm a = ⟨r, if fn = 0 then 4 else 0⟩) ∧
      (r % fSign fm < fInf fm → transcNear fn fm r a (transc fn fm a).v = true ∧ (transc fn fm a).fl = 0)) ∧
    (cvtSrc o.vb.toNat = some src → fmtOn x.po src.fmt = true → x.c.vl ≤ vlMax f p (sewOf src.bits) →
      let v := fun i => vGet x.po x.L (sewOf src.bits) o.va.toNat i
      (x.fp = some fm → fmtOn x.po fm = true →
        ends (.vcvtF p o) (fun i => cvtFlt fm rm false src (v i)) ∧ ends (.vcvtFs p o) (fun i => cvtFlt fm rm true src (v i))) ∧
      (fmtOn x.po (intFmt true x.sew) = true →
        ends (.vcvtI p o) (fun i => cvtInt true x.sew rm src (v i)) ∧ ends (.vcvtIz p o) (fun i => cvtInt true x.sew 1 src (v i))) ∧
      (fmtOn x.po (intFmt false x.sew) = true →
        ends (.vcvtU p o) (fun i => cvtInt false x.sew rm src (v i)) ∧ ends (.vcvtUz p o) (fun i => cvtInt false x.sew 1 src (v i))))

/-- R370, R371: VQMX quantises blocks of 32 FP32 elements of va to the MX format gb names, elements to vd and scales to vd + 1; VDQMX gives the
FP32 value of each element and its block's scale.
The model's own choices in it: log 10. -/
def Obligations.VectorMxResults : Prop :=
  ∀ (s f g : State) (p : Nat) (o : VOp), Issues s p f g → o.s = false → (core f p).vtype.toNat % 8 = 2 →
    let x := vctx f p
    let b := (gpr x.c o.vb).toNat
    let fm := b % 16
    b < 32 → 4 ≤ fm → fm ≤ 9 → fmtOn x.po fm = true →
    (o.vm = false → o.mreg = 0 → o.vd.toNat % 2 = 0 → o.vd ≠ o.va → o.vd + 1 ≠ o.va →
      let bs := (List.range ((x.c.vl + 31) / 32)).map fun k =>
        let es := span (32 * k) (min 32 (x.c.vl - 32 * k))
        (k, es, mxQuantise fm (b / 16) (es.map fun e => x.get o.va e))
      exec (.vqmx p o) s = .next (settle (retire (raiseFlags (putElems (putElems g p x o.vd ((bs.map fun b => b.2.1.zip b.2.2.elems).flatten))
        p x (o.vd + 1) (bs.map fun b => (b.1, b.2.2.scale))) p (bs.foldl (fun fl b => fl ||| b.2.2.fl) 0)) p))) ∧
    ((o.vm = false → o.mreg = 0) → o.va.toNat < 31 →
      let rs := (x.active o).map fun e => (e, elemToFp32 fm (x.get (o.va + 1) (e / 32) % 256) (x.get o.va e % 2 ^ fBits fm))
      exec (.vdqmx p o) s = .next (settle (retire (raiseFlags (putElems g p x o.vd (rs.map fun r => (r.1, r.2.v))) p (flagsOf rs)) p)))

/-- R353–R359: a vector load or store whose encoding, addresses and alignment pass the issue checks, and whose elements are all placed, their homes
taking them and tags free, performs every active element in ascending order, in its unit, strided or indexed place, and completes; VLDM and VSTM
move the mask bits of eight elements in each byte.
The model's own choices in it: log 10, 13. -/
def Obligations.VectorMemoryResults : Prop :=
  ∀ (s f g u : State) (p : Nat) (o : VOp) (l : VPlan), Fetched s p f → (polder f p).vqueue = [] → o.s = false → (o.vm = false → o.mreg = 0) →
    let x := vctx f p
    let ga := (gpr x.c o.va).toNat
    (∀ a ∈ l, ∃ ls, a.2 = .ok ls) → (∀ a ∈ l, vHeld g p x a = none) → Reaches g p u →
    let ends := fun (i : Instr) (step : VRun → VEl → List (Loc × Nat) → VRun) =>
      exec i s = .next (settle (retire (dropWaiterAll (vPerform p step { s := u, seen := [] } l).s (isVecReq p)) p))
    (∀ e ∈ ([
      (.vld p o, VAddr.unit, 1, vLoadEl p x o.vd), (.vlds p o, .strided, 1, vLoadEl p x o.vd), (.vldx p o, .indexed, 1, vLoadEl p x o.vd),
      (.vst p o, .unit, 2, vStoreEl p x o.vd), (.vsts p o, .strided, 2, vStoreEl p x o.vd), (.vstx p o, .indexed, 2, vStoreEl p x o.vd)]
        : List (Instr × VAddr × Nat × (VRun → VEl → List (Loc × Nat) → VRun))),
      x.memBad o e.2.1 = false → x.addrBad o e.2.1 true = none → vPlanAll f p x e.2.2.1 ((x.active o).map (x.el o e.2.1)) = (l, g) →
      ends e.1 e.2.2.2) ∧
    (x.memBad o .unit = false → x.addrBad o .unit false = none → vPlanAll f p x 1 ((x.active o).map (x.el o .unit)) = (l, g) →
      ends (.vldff p o) (vLoadEl p x o.vd)) ∧
    (o.vm = false → o.vd.toNat < 8 → o.vb = 0 → x.mew ≤ x.sew → ga < 2 ^ 48 → ga + (x.c.vl + 7) / 8 ≤ 2 ^ 48 →
      (vPlanAll f p x 1 (maskEls x o) = (l, g) → ends (.vldm p o) (vLoadMaskEl p x o.vd.toNat)) ∧
      (vPlanAll f p x 2 (maskEls x o) = (l, g) → ends (.vstm p o) (vStoreMaskEl p x o.vd.toNat)))

/-- R360–R362, R372–R374: VLDG and VSTG move elements between vd and the grist of their positions; VPOPW and VPOPW.NB take a tile from every wort
queue once every position can pop, VPOPW.NB reporting 1, or 0 with nothing taken; VPUSHW puts a tile in every queue that has room, and with
VL 0 nothing; VWAIT completes. R346: behind instructions that the members hold, VWAIT waits, and VADD joins the queues, which completes it, or
waits while they hold 32.
The model's own choices in it: log 10, 13, 15, 17. -/
def Obligations.VectorUnitResults : Prop :=
  ∀ (s f g : State) (p : Nat) (o : VOp), Issues s p f g →
    let x := vctx f p
    let ga := (gpr x.c o.va).toNat
    (gristBad x o = false → gristWaits x o = false →
      exec (.vldg p o) s = .next (settle (retire (putElems g p x o.vd ((x.active o).map fun e =>
        let a := x.gristOf ga e
        (e, natLE (gristRead g (cdOfRank g p a.1) a.2.1 a.2.2 (x.sew / 8))))) p)) ∧
      exec (.vstg p o) s = .next (settle (retire ((x.active o).foldl (fun s e =>
        let a := x.gristOf ga e
        gristWrite s (cdOfRank s p a.1) a.2.1 a.2.2 (bytesLE (x.sew / 8) (x.get o.vd e))) g) p))) ∧
    (o.s = false → o.vm = true → o.va = 0 → (polder f p).run = none →
      (popReady f p x = true → popMismatch f p x = false →
        (o.vb = 0 → exec (.vpopw p o) s = .next (settle (retire (popTiles g p x o.vd o.mreg.toNat) p))) ∧
        exec (.vpopwNb p o) s = .next (settle (retire (putReg (popTiles g p x o.vd o.mreg.toNat) p o.vb 1) p))) ∧
      (popReady f p x = false → CoreRuns (.vpopwNb p o) s g p (wrote (core g p) o.vb 0))) ∧
    (o.s = false → o.vm = true → o.vd = 0 → o.vb = 0 → (polder f p).run = none → 2 ≤ x.k → x.c.vl ≠ 0 →
      (∀ q ∈ wortQueues f p, q.2.2.length + popNeeds x ≤ 64) → (∀ e ∈ (polder f p).groups, cfgDest e.2.cfg0 ≠ 0) →
      exec (.vpushw p o) s = .next (settle (retire (wortInt ((wortQueues g p).foldl (fun s q =>
        setWort s p q.1 q.2.1 (q.2.2 ++ pushEntries x o (1024 * q.1 + 64 * q.2.1))) g) p) p))) ∧
    (o.s = false → o.vm = true → o.vd = 0 → o.vb = 0 → (polder f p).run = none → 2 ≤ x.k → x.c.vl = 0 →
      CoreRuns (.vpushw p o) s g p (past (core g p))) ∧
    CoreRuns (.vwait p) s f p (past (core f p)) ∧
    (∀ (t h u : State), Fetched t p h → (polder h p).vqueue ≠ [] → Reaches h p u →
      exec (.vwait p) t = .next (settle h) ∧
      ((polder h p).vqueue.length < 32 → exec (.vadd p { o with vm := false, mreg := 0 }) t = .next (settle (vPush u p
        { maj := 0x3A, func := 0, op := { o with vm := false, mreg := 0 }, mode := .push }))) ∧
      (32 ≤ (polder h p).vqueue.length → exec (.vadd p o) t = .next (settle h)))

/-- R175–R180: with no invocation running, a valid operation word, operands that no CLOSING group has still to write (R179) and the broadcast done,
MLDS loads the banks of every position and opens its group where it is IDLE, MSTREAM streams rows of A through banks that hold what it names into
its group, and MMA8 does both.
The model's own choices in it: log 10, 15, 16. -/
def Obligations.MatrixInstructionResults : Prop :=
  ∀ (s f v : State) (p : Nat) (gm ra rb : Reg) (g : Group), Fetched s p f → Reaches f p v →
    let c := core f p
    let w := opWord (gpr c gm)
    let w1 := { w with rows := 1 }
    let a := gpr c ra
    let b := gpr c rb
    let po := polder f p
    let reads := fun (fmt depth rows : Nat) (x : Word) => opndWaits po fmt depth rows (opndElem x) (opndScale x) = false
    po.run = none →
    (opWordBad po w1 = false → runBad w.fmtB w.depth (w.n * w.cols) (opndElem b) (opndScale b) = false →
      (groupAt po w.grp).state ≠ 2 → reads w.fmtB w.depth (w.n * w.cols) b → groupLds po w1 = some g →
      exec (.mlds p gm rb) s = .next (settle (retire (setGroup (loadBanks v p w1 (opndElem b) (opndScale b)) p w.grp g) p))) ∧
    (opWordBad po w = false → runBad w.fmtA w.depth w.rows (opndElem a) (opndScale a) = false → (groupAt po w.grp).state ≠ 2 →
      reads w.fmtA w.depth w.rows a → groupFor po w = some g →
      (banksBad f p w = false → exec (.mstream p gm ra) s = .next (settle (streamInto v p w (opndElem a) (opndScale a) g))) ∧
      (w.rows ≤ 8 → w.depth ≤ ((pairing w.fmtA w.fmtB).map (·.2)).getD 0 →
        runBad w.fmtB w.depth (w.n * w.cols) (opndElem b) (opndScale b) = false → reads w.fmtB w.depth (w.n * w.cols) b →
        exec (.mma8 p gm ra rb) s = .next (settle (streamInto (loadBanks v p w (opndElem b) (opndScale b)) p w (opndElem a) (opndScale a) g))))

/-! ### The sequencer, and the events of the lead core and of the error scopes -/

/-- R93–R106, R252–R259 (chapter 8): a descriptor of the running invocation that may issue has its satisfied CLR waits' sluices cleared, is read
with its parameter words and broadcast, and issues (its queue's head is new). With every position that it uses Ready it performs its kind's work and
completes with its flags ORed into the invocation's, or stays in execution while tags, updates or windows of it are open; the end of the last of
those completes it. With a position that is not Ready it waits for that position's wake (R294), after which it performs.
The model's own choices in it: log 9, 10, 18, 20. -/
def Obligations.DescriptorResults : Prop :=
  ∀ (s : State) (p i : Nat) (inv : Invocation) (rc : Recipe), running s p = some (inv, rc) →
    let d := descAt s rc i
    let ends := fun (t : State) (r : DRes) =>
      let u := dropWaiterAll (modRun t p fun v => { v with flags := v.flags ||| BitVec.ofNat 5 r.fl }) (isDesc p i)
      if r.idle then completeDesc u p i else setDesc u p i .inExec
    (mayIssue s p rc inv i d = true → ∀ e ∈ ([
      (.matrix p i, kindIs 1 d, matrixBody), (.chain p i, kindIs 2 d, chainBody), (.vmap p i, kindIs 0x10 d, vmapBody),
      (.vnorm p i, kindIs 0x11 d, vnormBody), (.vmerge p i, kindMode 0x12 0 d, vmergeBody), (.vmergeRescale p i, kindMode 0x12 1 d, vmergeRescaleBody),
      (.vmergeNormalise p i, kindMode 0x12 2 d, vmergeNormaliseBody), (.vsample p i, kindMode 0x13 0 d, vsampleBody),
      (.vsampleIndices p i, kindMode 0x13 1 d, vsampleIndicesBody), (.vsampleCommit p i, kindMode 0x13 2 d, vsampleCommitBody),
      (.vaccept p i, kindIs 0x14 d, vacceptBody), (.vcompactAppend p i, kindMode 0x15 0 d, vcompactAppendBody),
      (.vcompactMove p i, kindMode 0x15 1 d, vcompactMoveBody), (.vcompactGather p i, kindMode 0x15 2 d, vcompactGatherBody),
      (.mcopy p i, kindIs 0x20 d, mcopyBody), (.mupdate p i, kindIs 0x21 d, mupdateBody), (.mfill p i, kindIs 0x22 d, mfillBody),
      (.mevent p i, kindIs 0x23 d, meventBody), (.callred p i, kindIs 0x30 d, callredBody), (.cbcast p i, kindIs 0x31 d, cbcastBody),
      (.cgather p i, kindIs 0x32 d, cgatherBody), (.chalo p i, kindIs 0x33 d, chaloBody)] : List (Instr × Bool × (DCx → DM DRes))),
      e.2.1 = true → ∀ (c : DCx) (t1 t : State) (r : DRes),
        openDesc descWords p i rc inv.req.pb (satisfy s p i rc inv d) = (.ok c, t1) →
        let b := beginIssue t1 p i inv c.d
        (posReady b p rc i = true → e.2.2 c b = (.ok r, t) → exec e.1 s = .next (settle (ends t r))) ∧
        (posReady b p rc i = false → exec e.1 s = .next (settle (setDesc (wakeUsed b p rc i) p i .waitWake)))) ∧
    (∀ (c : DCx) (t1 t : State) (r : DRes), descState inv i = some .waitWake → kindIs 0x22 d = true → queueFrozen (polder s p) (queueOf (dKind d)) = false →
      atFault s p i = false → posReady s p rc i = true → dOpen p i rc inv.req.pb s = (.ok c, t1) → mfillBody c t1 = (.ok r, t) →
      exec (.mfill p i) s = .next (settle (ends t r))) ∧
    (descState inv i = some .inExec → descPending s p i = false →
      exec (.descriptorComplete p i) s = .next (settle
        (modPolder s p fun po => { po with
          run := some { inv with descs := tins inv.descs i .complete }
          sluices := ((dSets d).filter (settersDone s rc { inv with descs := tins inv.descs i .complete })).foldl
            (fun t n => tset false t n true) po.sluices })))

/-- R48, R92, R271, R279, R285–R295: the armed invocation, or else the oldest pending start, begins where the sequencer may begin one; an invocation
whose descriptors have all completed ends, and QUIESCE once none runs; an admission answers in RCP_STATUS and on its ring; a wait longer than
WDOG_STALL posts SEQ_STALL; and a position wakes, is ready, or sleeps.
The model's own choices in it: log 2, 10, 23. -/
def Obligations.SequencerResults : Prop :=
  ∀ (s : State) (p : Nat),
    let po := polder s p
    (∀ (r : StartReq) (rc : Recipe) (po' : Polder), mayBegin s p = true → tfind po.slots r.slot = some rc →
      (po.armed = some r ∧ po' = { po with armed := none } ∨ po.armed = none ∧ ∃ l, po.pend = r :: l ∧ po' = { po with pend := l }) →
      exec (.invocationStart p) s = .next (settle (modPolder (applyIB (setPolder s p po') p) p fun q => { q with
        run := some { req := r, begun := false, dtStart := s.dt, descs := [], flags := 0, abort := false, err := none,
                      headSince := [(0, s.dt), (1, s.dt), (2, s.dt), (3, s.dt)], stalled := [], issueDt := [], words := [], reds := [], redDone := [] }
        sluices := tdrop q.sluices fun k => rc.internal.contains k }))) ∧
    (∀ (inv : Invocation) (rc : Recipe), running s p = some (inv, rc) →
      (inv.err = none → inv.abort = false → (∀ j, j < rc.descCount → descDone inv j = true) →
        exec (.invocationComplete p) s = .next (settle (redRetry (invEnd s p false)))) ∧
      (∀ e, inv.err = some e → (∀ x ∈ inv.descs, endWaits s p rc x = false) →
        let t := dropWaiters s p (isDescReq p)
        exec (.invocationComplete p) s = .next (settle (redRetry (postInvError (invEnd t p true) p e)))) ∧
      (inv.err ≠ none → (∃ x ∈ inv.descs, endWaits s p rc x = true) → exec (.invocationComplete p) s = .next (settle s))) ∧
    (po.run = none → po.quies ≠ [] → unbindWaits s = false →
      let t := po.pend.foldl (fun s r => postCancelled s p r) s
      let t := setMembers (applyAll (modPolder t p fun po => { po with pend := [], held := false, quies := [] }) p) p 1
      exec (.quiesceComplete p) s = .next (settle (po.quies.foldl (fun s h => match h with
        | some h => complete s h 0x24 { status := 0x30 }
        | none => s) t))) ∧
    (∀ (h : CmdHdr) (slot va : Nat) (t : State), po.adm = some { cmd := some h, slot := slot, va := va } →
      (∀ rc : Recipe, admitImage s p slot va = (.ok rc, t) →
        Completes (.admission p) s
          (setInt (modPolder t p fun q =>
            { q with slots := tins q.slots slot rc, adm := none, rcp := { RcpStatus.reset with code := 0x40 } }) p 4)
          h 0x20 { status := 0x40 }) ∧
      (∀ f : AdFail, admitImage s p slot va = (.error f, t) →
        Completes (.admission p) s (setInt (modPolder t p fun q => { q with adm := none, rcp := rcpOf f }) p 4) h 0x20 (adCpl f))) ∧
    (∀ (inv : Invocation) (rc : Recipe) (q i n : Nat), running s p = some (inv, rc) → queueHead s rc inv q = some i →
      (measuredWaits s p rc inv i).find? (fun n => !inv.stalled.contains (q * 8192 + n)) = some n →
      po.sec.wdogStall ≠ 0 → inv.err = none → inv.abort = false →
      let t := advanceTo s (max (tget 0 inv.headSince q) (tget 0 inv.headSince (16 + n)) + po.sec.wdogStall * dtUs + 1)
      exec (.seqStall p q) s = .next (settle (modRun
        (post t (mkRec t (lsDesc t p i 0 (leadOf t p)) 0x41 0 (leadOf t p) 0 (errBytes { extra := min n 0xFFF + q * 4096 }))) p fun v =>
          { v with stalled := insertNat v.stalled (q * 8192 + n) }))) ∧
    (∀ pos : Nat, named s p = true → pos < 16 →
      exec (.positionWake p pos) s = .next (settle
        (((members s p).zipIdx.filter fun m => usersOf s p m.2 pos ahead).foldl (fun t m => wakeAt t m.1 pos) s)) ∧
      (∀ cd : Nat, tget .off (cdAt (wakeAt s cd pos) cd).pos pos =
        match tget .off (cdAt s cd).pos pos with | .off => .wakingOff | .sleep => .wakingSleep | st => st) ∧
      exec (.positionWakeDone p pos) s = .next (settle
        (wakeGo (modPos s p pos (fun _ => true) fun st => if st = .wakingOff ∨ st = .wakingSleep then .ready else st) p)) ∧
      (po.groups = [] →
        let idle := fun (r : Nat) => !usersOf s p r pos fun inv i => (descState inv i).any inExec
        exec (.positionSleep p pos false) s = .next (settle (modPos s p pos idle fun st => if st = .ready then .sleep else st)) ∧
        (po.run = none → exec (.positionSleep p pos true) s = .next (settle
          (modPos s p pos (posClear s p · pos) fun st => if st = .ready ∨ st = .sleep then .off else st))) ∧
        (∀ (inv : Invocation) (rc : Recipe), running s p = some (inv, rc) →
          exec (.positionSleep p pos true) s = .next (settle (modPos s p pos
            (fun r => idle r && (!(usersOf s p r pos fun inv i => !issued inv i) && !rc.keepMask.getLsbD pos))
            fun st => if st = .ready ∨ st = .sleep then .off else st)))))

/-- R194, R216, R328, R380, R381, R390, R535, R538, R604: DT reaches TIMER_CMP; an interrupt, or a Breach request, is taken at an instruction
boundary; a core and a polder reset; an accumulation group that delivers no wort closes; a coalescing window ends; and a scope that handles
nothing takes its oldest pending error.
The model's own choices in it: log 2, 10. -/
def Obligations.CoreAndErrorEvents : Prop :=
  ∀ (s : State) (p : Nat), named s p = true →
    let c := core s p
    (c.timerCmp ≠ 0 → c.timerHit = false →
      exec (.timer p) s = .next (settle (modCore { s with dt := max s.dt c.timerCmp % 2 ^ 64 } p fun c =>
        { c with timerHit := true, intPend := setBitV c.intPend 2 }))) ∧
    (∀ (n : Nat) (w : Word32) (t : State), coreLive s p = true → pickInt c = some n → c.breachReq = false →
      peekWord (withdrawWait s p) p = (w, t) →
      exec (.interrupt p) s = .next (settle (enter t p { cause := 64 + n, epc := c.pc, word := w }))) ∧
    (∀ (w : Word32) (t : State), coreLive s p = true → c.breachReq = true → c.breach = false → peekWord (withdrawWait s p) p = (w, t) →
      exec (.breachRequestTaken p) s = .next (settle
        (breach (modCore t p fun c => { c with breachReq := false }) p 5 { cause := 0x7F, epc := c.pc, word := w }))) ∧
    exec (.coreReset p) s = .next (settle (modPolder
      (setCore (leaveLine (dropWaiters s p (isCoreReq p)) p) p
        { Core.reset with dtReset := s.dt, entrySram := c.entrySram, localSram := c.localSram, starts := c.starts, mCoxel := c.mCoxel }) p fun po =>
      { po with frzCore := none, vregs := [], masks := [], vqueue := [], banks := [], groups := po.groups.filter fun e => !e.2.byInstr })) ∧
    ((polder s p).resetting = false → s.power.rstReq = none → s.power.rstLow = false → s.phiro.busy = false →
      exec (.polderReset p) s = .next (settle (polderResetNow s p))) ∧
    ((polder s p).resetting = true →
      exec (.polderResetComplete p) s = .next (settle
        (setMembers (modPolder ((members s p).foldl ncReset s) p fun po => { po with resetting := false }) p 1))) ∧
    (∀ gi : Nat, gi < 16 →
      let g := groupAt (polder s p) gi
      g.state = 2 → (cfgDest g.cfg0 = 1 ∨ cfgYout g.cfg0 = false) →
        let t := (delivering s p g).foldl (fun s rp => deliverGrist s p g rp.1 rp.2) s
        exec (.accumulationGroupClose p gi) s = .next (settle
          (wortInt (setGroup (raiseFlags t p (closeFlags g (nMembers t p))) p gi Group.idle) p))) ∧
    (∀ w, s.errors.windows.find? (fun v => v.key == w.key) = some w →
      let t := advanceTo { s with errors := { s.errors with windows := s.errors.windows.erase w } } w.endDt
      (w.count = 0 → exec (.coalesceWindowEnd w.key) s = .next (settle t)) ∧
      (w.count ≠ 0 → exec (.coalesceWindowEnd w.key) s = .next (settle
        (post t { mkRec t w.ls w.key.code w.cls w.key.die w.key.unit w.body with dt := w.lastDt, count := w.count })))) ∧
    (∀ (k : Nat) (r : Record) (l : List Record), (scopeAt s k).cur = none → (scopeAt s k).pend = r :: l → (polder s k).run = none →
      let t := modScope s k fun sc => { sc with pend := l }
      (¬ (r.cls = 2 ∧ (scopeAt s k).fatal = true) → exec (.pendingErrorHandle k) s = .next (settle (contain (postError t r) r))) ∧
      (r.cls = 2 → (scopeAt s k).fatal = true → exec (.pendingErrorHandle k) s = .next (settle (postError t r)))) ∧
    (∀ (k : Nat) (r e : Record) (l : List Record) (v : Invocation), (scopeAt s k).cur = none → (scopeAt s k).pend = r :: l →
      (polder s k).run = some v → v.err = some e → { r with count := e.count } = e → r.cls = 1 →
      exec (.pendingErrorHandle k) s = .next (settle (modScope (modScope s k fun sc => { sc with pend := l }) (scopeOf r) fun sc => { sc with cur := some r })))


/-! ### Memory, near caches and walks -/

/-- R113, R118, R121, R402, R407, R408, R410–R416, R425–R428, R552, R597: a read at a sound home gives the bytes and a host's is answered; a write stores
its bytes; an update stores what the adder makes of each element, once for its tag; in an ordered window it waits for its source's turn; a frame
with 16 corrected errors is copied into the reserve; refresh doubles above 85 °C and returns at 82 °C; a scrub corrects what it can.
The model's own choices in it: log 3, 9, 10, 26. -/
def Obligations.MemoryResults : Prop :=
  ∀ s : State,
    (∀ r : MemReq,
      let left := dropWaiter s r.src (· == r.req)
      (Arrives s r false → frameHeld s r.pa = false → MemSound s r.src r.pa →
        ∃ t, t.mem = s.mem ∧ t.out = s.out ∧ exec (.memoryRead r) s = .next (settle (if r.held then answerTag t r (mgetN s.mem r.pa r.len)
          else match r.req with
            | .hostRead c => send t (.readResp c (mgetN s.mem r.pa r.len))
            | _ => t))) ∧
      (Arrives s r false → frameHeld s r.pa = true →
        exec (.memoryRead r) s = .next (settle { left with health := { left.health with heldAcc := left.health.heldAcc ++ [(s.dt, .read r)] } })) ∧
      (∀ d : List Byte, d.length = r.len →
        (Arrives s r true → frameHeld s r.pa = false → r.age + 8 < s.phiro.txnTimeout * dtUs → MemSound s r.src r.pa →
          ∃ t, t.mem = msetN s.mem r.pa d ∧ t.out = s.out ∧ exec (.memoryWrite r d) s = .next (settle t)) ∧
        (Arrives s r true → frameHeld s r.pa = false → s.phiro.txnTimeout * dtUs ≤ r.age + 8 →
          exec (.memoryWrite r d) s = .next (settle (lateTag left 1 r)) ∧ (lateTag left 1 r).mem = s.mem) ∧
        (∀ v, inAtom r.pa r.len = true → reqLive s r.req = true → stackShut s r.pa r.req = false → reqBroken s r.pa r.len true r.req = some v →
          exec (.memoryWrite r d) s = .next (settle (breakReq s r.src r.va r.inst r.req v))))) ∧
    (∀ (q : Requester) (u : MemUpdate) (age : Nat) (held : Bool),
      let sz := opSize u.fmt
      let n := u.elems.length
      let xs := u.elems.map fun w => w.toNat % 2 ^ (8 * sz)
      let left := dropWaiter s (reqSrc s q) (· == q)
      updOk u = true → Arrives s (updReq s q u age held) true → frameHeld s u.pa = false →
      (s.fabric.applied.contains (homeDie u.pa, u.tag) = false → age + 8 < s.phiro.txnTimeout * dtUs → MemSound s (reqSrc s q) u.pa →
        ∃ t, exec (.unorderedUpdate q ⟨u, age, held⟩) s = .next (settle t) ∧ t.fabric.applied = s.fabric.applied ++ [(homeDie u.pa, u.tag)] ∧
          t.mem = msetN s.mem u.pa
            (((elemsOf sz n (mgetN s.mem u.pa (sz * n))).zip xs).map fun e => bytesLE sz (adderOp u.op u.fmt e.1 e.2 u.cmp.toNat).v).flatten) ∧
      (s.fabric.applied.contains (homeDie u.pa, u.tag) = false → s.phiro.txnTimeout * dtUs ≤ age + 8 →
        exec (.unorderedUpdate q ⟨u, age, held⟩) s = .next (settle (lateTag left 2 (updReq s q u age held)))) ∧
      (s.fabric.applied.contains (homeDie u.pa, u.tag) = true → exec (.unorderedUpdate q ⟨u, age, held⟩) s = .next (settle left))) ∧
    (∀ (w : UpdWindow) (u : MemUpdate) (f g : Flight) (t' : State),
      let srcs := winSources s w.p w.i
      let t := putFlight t' f (some g)
      let turn := let v := winApply (winOpen t w) g; winClose (winDrain w srcs v.fabric.flight.length v) w srcs
      let early := putFlight (freeFlight (winOpen t w) g) g (some { g with tag := none, early := true })
      srcs.contains w.src = true → flightTag s f = (g, t') → flightInTime t g = true →
      (s.fabric.flight.find? (fun f => f.win == w && !f.early && f.upd.any fun x => { x with tag := u.tag } == u) = some f →
        (winRoom s w = false → exec (.orderedUpdate w u) s = .next (settle s)) ∧
        (winRoom s w = true → g.tag = none → exec (.orderedUpdate w u) s = .next (settle t')) ∧
        (winRoom s w = true → g.tag ≠ none → (∀ x, g.upd = some x → frameHeld t x.pa = false) →
          (winReady t srcs g = true → exec (.orderedUpdate w u) s = .next (settle turn)) ∧
          (winReady t srcs g = false → winBuffered t w.adder < 4096 → exec (.orderedUpdate w u) s = .next (settle early)) ∧
          (winReady t srcs g = false → 4096 ≤ winBuffered t w.adder → exec (.orderedUpdate w u) s = .next (settle t)))) ∧
      (s.fabric.flight.find? (fun f => f.win == w && !f.early && f.upd.isNone) = some f → winRoom s w = true →
        (winReady t srcs g = true → exec (.endMarker w w.src) s = .next (settle turn)) ∧
        (winReady t srcs g = false → exec (.endMarker w w.src) s = .next (settle early)))) ∧
    (∀ (f : Flight) (u : MemUpdate), f.upd = some u → f.ret = .none → updOk u = true → MemSound s f.win.src u.pa →
      let sz := opSize u.fmt
      let n := u.elems.length
      (winApply s f).mem = msetN s.mem u.pa (((elemsOf sz n (mgetN s.mem u.pa (sz * n))).zip (u.elems.map fun w => w.toNat % 2 ^ (8 * sz))).map
        fun e => bytesLE sz (adderOp u.op u.fmt e.1 e.2 u.cmp.toNat).v).flatten ∧
      (winApply s f).fabric.flight = s.fabric.flight.erase f ∧ (winApply s f).fabric.applied = s.fabric.applied ++ [(f.win.adder, u.tag)]) ∧
    (∀ pa : Nat,
      let f := pa / 4096
      let die := homeDie pa
      let used := tget 0 s.health.reserveUsed die
      let t := { s with health := { s.health with
        copying := insertNat s.health.copying f, retired := tins s.health.retired f used, reserveUsed := tset 0 s.health.reserveUsed die (used + 1),
        frameErr := tset 0 s.health.frameErr f 0 } }
      isFar pa = true → 16 ≤ tget 0 s.health.frameErr f → s.health.copying.contains f = false →
      (used + 257 ≤ reserveFrames → exec (.fmRetire pa) s = .next (settle
        (post { t with free := s.free + 1 } (mkRec { t with free := s.free + 1 } (lsDevice die) 0x13 0 die 0xB000
          (errBytes { addr := f * 4096, reason := 1, left := (Config.freeWord s.free).toNat % 256 }))))) ∧
      (reserveFrames < used + 257 → used + 1 < reserveFrames → exec (.fmRetire pa) s = .next (settle
        (post t (mkRec t (lsDevice die) 0x13 0 die 0xB000 (errBytes { addr := f * 4096, reason := 1, left := reserveFrames - used - 1 })))))) ∧
    (∀ pa : Nat, s.health.copying.contains (pa / 4096) = true →
      let t := { s with health := { s.health with
        copying := s.health.copying.filter (· ≠ pa / 4096)
        bad := s.health.bad.filter fun e => !(e.1 / 128 == pa / 4096 && e.2 == 1) } }
      exec (.fmRetireCopyDone pa) s = .next (settle (vqGoAll (heldRelease t))) ∧
      (s.health.heldAcc = [] → (∀ q, (polder s q).vqueue = []) → vqGoAll (heldRelease t) = t) ∧
      (∀ (n : Nat) (r : MemReq), s.health.heldAcc = [(n, .read r)] → frameHeld t r.pa = false →
        heldRelease t = readGo r { t with health := { t.health with heldAcc := [] } })) ∧
    (∀ (unit : Nat) (m : Int), unit < 56 →
      exec (.stackTempSample unit m) s = .next (settle
        (if 85000 < m then { s with health := { s.health with hot := tset false s.health.hot unit true } }
         else if m ≤ 82000 then { s with health := { s.health with hot := tset false s.health.hot unit false } } else s))) ∧
    (∀ pkg : Nat, pkg < 32 →
      exec (.packageSelfRefresh pkg) s = .next (settle { s with health := { s.health with selfRefresh := tset false s.health.selfRefresh pkg true } })) ∧
    (∀ pa : Nat, s.kiln.en = true → isNear pa = true ∨ isFar pa = true → s.power.trip = false → s.power.rstLow = false →
      ∃ t, exec (.scrub pa) s = .next (settle t) ∧ t.mem = s.mem ∧
        ∀ cw, badAt t (cw * 32) = if cw / 8 = pa / 256 ∧ badAt s (cw * 32) = 1 then 0 else badAt s (cw * 32))

/-- R419–R422, R439–R443: INV acts while STATE is 0b00 and discards every line; EN = 1 enables an invalidated cache, is nothing to an enabled one
and refused otherwise; EN = 0 writes back and invalidates; FLUSH leaves the lines that were dirty valid and clean. A request without a local walk
reaches the CTU, whose TLB answers it, or it joins a walk or takes a walker; a walk ends at a leaf that serves it, or opens a fault.
The model's own choices in it: log 6, 9, 10, 27. -/
def Obligations.NearCacheAndWalkResults : Prop :=
  ∀ s : State,
    (∀ cd : Nat, cd < 24 →
      let nc := ncOf s cd
      (nc.state = 2 →
        NcRuns (.ncFlush cd) s s cd { nc with flushBusy := true, flushSet := ((nc.lines.filter (·.dirty)).map (·.atom)).foldl insertNat nc.flushSet } ∧
        NcRuns (.ncEnable cd) s s cd nc ∧ NcRuns (.ncDisable cd) s s cd { nc with state := 3 }) ∧
      (nc.state ≠ 2 → NcRuns (.ncFlush cd) s s cd nc ∧ NcRuns (.ncDisable cd) s s cd nc) ∧
      (nc.state = 0 → NcRuns (.ncInv cd) s s cd { nc with state := 1 }) ∧
      (nc.state ≠ 0 → NcRuns (.ncInv cd) s s cd { nc with invIgn := true }) ∧
      (nc.state = 0 → nc.invOk = true → NcRuns (.ncEnable cd) s s cd { nc with state := 2, invOk := false }) ∧
      (nc.state ≠ 2 → ¬ (nc.state = 0 ∧ nc.invOk = true) → NcRuns (.ncEnable cd) s s cd { nc with enRefused := true }) ∧
      (nc.state = 1 →
        let t := nc.lines.foldl (fun s l => if l.dirty then { s with mem := putAtom s.mem l.atom l.stale } else s) s
        NcRuns (.ncInvDone cd) s t cd { nc with state := 0, invOk := true, lines := [] }) ∧
      (nc.state = 3 → (∀ l ∈ nc.lines, lineLost l = false) →
        NcRuns (.ncDisableDone cd) s (nc.lines.foldl wbHealth s) cd { nc with state := 0, flushBusy := false, flushSet := [], lines := [] }) ∧
      (nc.flushBusy = true → (∀ l ∈ nc.lines, nc.flushSet.contains l.atom = true → lineLost l = false) →
        let mine := fun (l : NcLine) => nc.flushSet.contains l.atom
        NcRuns (.ncFlushDone cd) s ((nc.lines.filter mine).foldl wbHealth s) cd
          { nc with flushBusy := false, flushSet := [], lines := nc.lines.map fun l => if mine l then { l with dirty := false, stale := [] } else l })) ∧
    (∀ q : XlatReq, reqValid s q = true →
      let t := { s with xlat := { s.xlat with local_ := s.xlat.local_.filter (· ≠ q) } }
      let miss := (tlbFind q s.xlat.central).isNone = true ∧ spaceOn s q = true ∧ s.xlat.waiting = []
      let alone := ∀ w ∈ s.xlat.walks, w.reqs.any (sameMiss q) = false
      let waits := { t with xlat := { t.xlat with waiting := [q] } }
      (spaceOn s q = false → exec (.ctuWalk q) s = .next (settle (refuseReq t q 2))) ∧
      (∀ (e : Tlb) (l : List Tlb), spaceOn s q = true → tlbFind q s.xlat.central = some (e, l) →
        let u := fillLeaf { t with xlat := { t.xlat with central := l } } q e.pte e.level true
        ((∃ pa, judge s q e.pte e.level = .ok pa) → exec (.ctuWalk q) s = .next (settle u)) ∧
        (judge s q e.pte e.level = .perm → exec (.ctuWalk q) s = .next (settle (refuseReq u q 2)))) ∧
      (miss → (∃ w ∈ s.xlat.walks, w.reqs.any (sameMiss q) = true) → (∀ w ∈ s.xlat.walks, q ∉ w.reqs) →
        exec (.ctuWalk q) s = .next (settle { t with xlat := { t.xlat with
          walks := s.xlat.walks.map fun w => if w.reqs.any (sameMiss q) then { w with reqs := w.reqs ++ [q] } else w } })) ∧
      (miss → alone → waitFull s = false → s.xlat.walks.length < min 32 (33 - s.xlat.walkersOut.length) →
        (∀ u, walkTag waits q (freeWalk s) = some u →
          let v := kilnRelease u fun x => x.type == 10 && x.index == freeWalk s
          exec (.ctuWalk q) s = .next (settle
            { v with xlat := { v.xlat with waiting := [], walks := v.xlat.walks ++ [{ id := freeWalk s, reqs := [q] }] } })) ∧
        (walkTag waits q (freeWalk s) = none →
          ∃ w : Waiter, w.req = .walker q.p ∧ w.first = true ∧ exec (.ctuWalk q) s = .next (settle (addWaiter waits 24 w)))) ∧
      (miss → alone → waitFull s = false → min 32 (33 - s.xlat.walkersOut.length) ≤ s.xlat.walks.length →
        exec (.ctuWalk q) s = .next (settle waits)) ∧
      (miss → alone → waitFull s = true → exec (.ctuWalk q) s = .next (settle s)) ∧
      (q.cd < 24 → (tlbFind q (nearCopy s q)).isNone = true → s.xlat.local_ = [] →
        (waitFull s = false → tget [] s.xlat.walkCache q.cd = [] →
          exec (.localWalk q) s = exec (.ctuWalk q) s ∧ ∃ u, exec (.localWalk q) s = .next (settle u)) ∧
        (∀ (w : WalkEntry) (e : Word) (g h : State) (pa : Nat), spaceOn h q = true → walkHit s q = (some w, h) →
          readPte h q q.cd (pteAddr w.pte + 8 * vaIndex q.va 2) = (some e, g) → pteV e = true → malformed g q.p e 2 = false → pteLeaf e = true →
          admits e 2 q.access q.user q.cls = true → judge (fillLeaf g q e 2 false) q e 2 = .ok pa →
          exec (.localWalk q) s = .next (settle (fillLeaf g q e 2 false))))) ∧
    (∀ (w : Walk) (q : XlatReq) (t : State) (x : Walked), s.xlat.walks.find? (fun x => x.id == w.id) = some w → w.reqs = [q] →
      let r := ((owner s 24).tags.filter fun t => t.work == .walk w.id).foldl (fun s t => releaseTag s 24 t.num) s
      let u := { r with xlat := { r.xlat with walks := r.xlat.walks.filter fun x => x.id ≠ w.id } }
      let ends := fun (v : State) => exec (.walkComplete w.id) s = .next (settle (vqGo v q.p))
      walkRoot u q = (x, t) → t.xlat.waiting = [] →
      (∀ e lvl, x.fin = .leaf e lvl →
        let v := fillWalked t q e lvl x.l1
        ((∃ pa, judge v q e lvl = .ok pa) → ends v) ∧ (judge v q e lvl = .perm → (refuseReq v q 2).xlat.waiting = [] → ends (refuseReq v q 2))) ∧
      (∀ pa lvl, x.fin = .absent pa lvl →
        (∀ c, q.req = .hostRead c → ends (send t (.nak c nakAccess))) ∧
        (∀ p i, q.req = .descriptor p i → ends (holdReq (openFault t q (xreqLs t q) pa lvl).2 q))))

/-! ### The fabric -/

/-- R462–R466, R469, R472–R475, R480–R485: of a direction of a link, the next flit is delivered and its acknowledgement frees the other direction's
replay buffer, a bad one or one past a gap asks for replay, and what comes before that replay, or once more, or beyond the buffer is dropped; the
first eight replay requests of 2 µs are served from the flit that the receiver lacks and the ninth remaps the worst lane to a spare, or soon after a
retrain takes the link down; a hub with a lost bundle leaves once nothing runs; the hub acknowledges an issue broadcast; a reduction opens a slot and
its last contribution closes it; a freed tag is granted; a response in time frees its tag, and a transaction without one ends at its deadline.
The model's own choices in it: log 2, 3, 9, 10, 30. -/
def Obligations.FabricResults : Prop :=
  ∀ s : State,
    (∀ k : Nat, k < 236 → s.power.rstLow = false →
      let l := linkAt s k
      let up := l.state = 2 ∨ l.state = 3
      (up → ∀ (back : Bool) (f : Flit) (lanes : List Nat),
        let d := l.dir back
        let n := (f.seq + 4096 - d.acked) % 4096
        let l1 := { l with errs := (l.errs.filter fun e => s.dt < e.2 + 2 * dtUs) ++ lanes.map fun x => (x, s.dt) }
        let d1 := if (d.txNext + 4096 - d.acked) % 4096 ≤ n then { d with txNext := (f.seq + 1) % 4096 } else d
        let o := (l.dir !back).ack f.ack
        let asks := fun (d : LinkDir) => modLink s k fun _ => { l1.withDir back { d with asked := true } with state := 3 }
        (flitCrcOk f = true → 256 ≤ n → exec (.flitRx k back f lanes) s = .next (settle s)) ∧
        (d.asked = true → (flitCrcOk f = false ∨ n < 256) → exec (.flitRx k back f lanes) s = .next (settle (modLink s k fun _ => l1))) ∧
        (d.asked = false → flitCrcOk f = false → exec (.flitRx k back f lanes) s = .next (settle (asks d))) ∧
        (d.asked = false → flitCrcOk f = true → n < 256 →
          (f.seq = d.rxNext → exec (.flitRx k back f lanes) s = .next (settle (send (modLink s k fun _ =>
            { (l1.withDir back { d1 with rxNext := (d.rxNext + 1) % 4096 }).withDir (!back) o with state := if o.asked then 3 else 2 })
            (.flit k back f.payload)))) ∧
          (f.seq ≠ d.rxNext → n < (d.rxNext + 4096 - d.acked) % 4096 →
            exec (.flitRx k back f lanes) s = .next (settle (modLink s k fun _ => l1.withDir back d1))) ∧
          (f.seq ≠ d.rxNext → (d.rxNext + 4096 - d.acked) % 4096 ≤ n → exec (.flitRx k back f lanes) s = .next (settle (asks d1))))) ∧
      (up → ∀ (back : Bool) (first : Nat),
        let d := l.dir back
        let w := l.window.filter fun t => s.dt < t + 2 * dtUs
        (d.asked = true → first = d.rxNext → w.length < 8 → exec (.replayRequest ⟨k, back⟩ first) s = .next (settle (modLink s k fun l =>
          { l.withDir back { d with asked := false } with
            replays := min (l.replays + 1) (max l.replays 0xFFFF), window := w ++ [s.dt], state := 3 }))) ∧
        (d.asked = true → first = d.rxNext → 8 ≤ w.length →
          (l.retrainEnd = none → exec (.replayRequest ⟨k, back⟩ first) s = .next (settle (modLink s k fun l => { l with window := w ++ [s.dt], state := 4 }))) ∧
          (∀ t, l.retrainEnd = some t → s.dt ≤ t + 2 * dtUs →
            exec (.replayRequest ⟨k, back⟩ first) s = .next (settle (declareDown (modLink s k fun l => { l with window := w ++ [s.dt] }) k)))) ∧
        (d.asked = false ∨ first ≠ d.rxNext → exec (.replayRequest ⟨k, back⟩ first) s = .next (settle s))) ∧
      ((∀ e ∈ s.fabric.owners, ∀ t ∈ e.2.tags, onPath s k t = false) →
        let t := modLink s k fun l =>
          { l with state := 5, downCnt := min (l.downCnt + 1) (max l.downCnt 0xFF), window := [], errs := [], newLane := none
                   fwd := { l.fwd with txNext := l.fwd.rxNext, acked := l.fwd.rxNext, asked := false }
                   back := { l.back with txNext := l.back.rxNext, acked := l.back.rxNext, asked := false } }
        declareDown s k = bundleEnd (post t (mkRec t (lsDevice (linkDies k).1) 0x22 0 (linkDies k).1 (0x8000 + k)
          (fabBytes { link := k, replays := l.window.length }))) k) ∧
      (l.state = 4 →
        exec (.laneRemap k) s = .next (settle (modLink s k fun l =>
          { l with state := 1, newLane := if l.lanes.length < 4 then (worstLane s l).map fun x => (x, 64 + l.lanes.length) else none }))) ∧
      (let ready := fun (l : Link) =>
        { l with state := 2, retrainEnd := some s.dt, window := [], errs := [], newLane := none
                 fwd := { l.fwd with asked := false }, back := { l.back with asked := false } }
       l.state = 1 →
        (l.newLane = none → exec (.retrainDone k true) s = .next (settle (modLink s k ready))) ∧
        exec (.retrainDone k false) s = .next (settle (declareDown s k)) ∧
        (∀ x sp : Nat, l.newLane = some (x, sp) → sp < 67 →
          let t := modLink s k fun l =>
            { ready l with lanes := l.lanes ++ [x], lastLane := x
                           spareUsed := ((span 64 (l.lanes.length + 1)).filter fun y => !(l.lanes ++ [x]).contains y).length }
          exec (.retrainDone k true) s = .next (settle (post t (mkRec t (lsDevice (linkDies k).1) 0x20 0 (linkDies k).1 (0x8000 + k)
            (fabBytes { link := k, lane := x, spare := sp, replays := l.window.length }))))))) ∧
    (∀ hub : Nat, hub < 2 → s.fabric.hubPend.contains hub = true → (∀ p, p < 24 → (polder s p).run = none) →
      s.fabric.hub0 = true → s.fabric.hub1 = true →
      let t := { s with fabric := { s.fabric with
        hubPend := s.fabric.hubPend.filter (· ≠ hub), hub0 := decide (hub = 1), hub1 := decide (hub = 0) } }
      exec (.hubOut hub) s = .next (settle
        (post t (mkRec t (lsDevice (29 + hub)) 0x24 0 (29 + hub) (0x9000 + hub) (fabBytes { dest := 29 + hub }))))) ∧
    (∀ (p : Nat) (t : TagEntry), named s p = true → s.power.rstLow = false → (owner s (leadOf s p)).tags.find? (fun t => t.kind == 5) = some t →
      (s.dt ≤ t.deadline → exec (.issueBroadcast p) s = .next (settle (releaseTag s t.src t.num))) ∧
      (t.deadline < s.dt → exec (.issueBroadcast p) s = .next (settle s))) ∧
    (∀ (k : RedKey) (src n : Nat) (d : List Byte) (u : State), redOk s k src d = true → bundleLost s src k.hub = false →
      let q := Requester.descriptor k.p k.i
      let ls := lsDesc s k.p k.i 0 src
      tagFor s src q = true → takeTag s src { kind := 6, dest := 29 + k.hub, addr := 0, ls := ls, req := q, work := .red k } = some (n, u) →
      let t := dropWaiter u src (· == q)
      (s.fabric.slots.any (·.key == k) = true →
        let put := fun (r : Reduction) => if r.key = k ∧ tfind r.parts src = none then { r with parts := tins r.parts src d } else r
        exec (.reductionContribution k src d) s = .next (settle { t with fabric := { t.fabric with slots := s.fabric.slots.map put } })) ∧
      (s.fabric.slots.any (·.key == k) = false → mayOpen s k = true →
        exec (.reductionContribution k src d) s = .next (settle (kilnRelease { t with fabric := { t.fabric with
          slots := s.fabric.slots ++ [{ key := k, parts := [(src, d)] }] } } fun x => x.type == 14 && x.die == 29 + k.hub))) ∧
      (s.fabric.slots.any (·.key == k) = false → mayOpen s k = false →
        exec (.reductionContribution k src d) s = .next (settle { t with fabric := { t.fabric with
          redWait := s.fabric.redWait ++ [(k, src, d)] } }))) ∧
    (∀ (k : RedKey) (r : Reduction), s.fabric.slots.find? (·.key == k) = some r → s.fabric.redWait = [] →
      (∀ c ∈ members s k.p, (tfind r.parts c).isSome = true ∧ bundleLost s c k.hub = false) →
      let q := Requester.descriptor k.p k.i
      tagFor s (29 + k.hub) q = true →
      let rs := reduceAll k.op k.fmt ((members s k.p).map fun c => let d := tget [] r.parts c; elemsOf (opSize k.fmt) (d.length / opSize k.fmt) d)
      let u := (members s k.p).foldl (fun s _ => tagPulse s (29 + k.hub)) (dropWaiter s (29 + k.hub) (· == q))
      let t := modRun u k.p fun v => { v with flags := v.flags ||| BitVec.ofNat 5 (flagsAll rs), redDone := v.redDone ++ [k] }
      exec (.reductionResult k) s = .next (settle
        (redAnswered { t with fabric := { t.fabric with slots := s.fabric.slots.filter fun x => x.key ≠ k } } k))) ∧
    (∀ (o : Nat) (x : Waiter), nextWaiter (owner s o).waiters = some x →
      let w := owner s o
      (tagsInUse w + (w.waiters.filter (·.granted)).length < tagCount s o →
        exec (.tagGrant o) s = .next (settle (modOwner s o fun ow =>
          Owner.stall { ow with waiters := ow.waiters.map fun y => if y = x then { y with granted := true } else y } s.dt))) ∧
      (tagCount s o ≤ tagsInUse w + (w.waiters.filter (·.granted)).length → exec (.tagGrant o) s = .next (settle s))) ∧
    (∀ (o num : Nat) (t : TagEntry), tagAt s o num = some t →
      let u := releaseTag s t.src t.num
      (s.dt ≤ t.deadline → answerable s t = true →
        (t.work = .none → exec (.response o num t.gen) s = .next (settle u)) ∧
        (∀ c d, t.req = .hostRead c → t.work = .data d → connUp u c = true →
          exec (.response o num t.gen) s = .next (settle (send u (.readResp c d))))) ∧
      (∀ g, g ≠ t.gen ∨ t.deadline < s.dt ∨ answerable s t = false → exec (.response o num g) s = .next (settle s)) ∧
      exec (.txTimeout o num) s = .next (settle (advanceTo (txEnd (advanceTo s t.deadline) t 0xFFFF 1) (t.deadline + 1))))

/-! ### The host port and the binding -/

/-- R487–R498, R507, R612: what the port does with a frame, a training attempt, a connection's requests, SENDs, RDMA, acknowledgements, CNPs and PFC,
each while its link is up and for the bound host, or for any peer while the device is not bound; a foreign peer is refused and counted. Of the
lanes a mode uses the lowest, none swapped, and corrects their receive polarity. A connection answers its messages in their order: one whose
predecessors are answered is answered at once, one behind a message that waits waits with it, and a 65th RDMA READ draws NAK Invalid Request in
its turn. IP packets carry ECT(0), and those of a connection its DSCP and priority (R491).
The model's own choices in it: log 2, 9, 10, 29. -/
def Obligations.PortResults : Prop :=
  ∀ s : State, s.power.rstLow = false →
    let o := s.port
    let put := fun (f : Port → Port) => { s with port := f s.port }
    let bound_ := o.bindState = 2
    (o.link ≠ 2 → s.power.input = .on → s.reeve.recovery = false →
      ∀ (inv : Byte) (m lanes : Nat),
      (portModes s).getD (o.tryMode % (portModes s).length) 0 = m → (m, lanes) ∈ [(1, 8), (2, 8), (3, 4), (4, 4), (5, 2)] →
      (s.power.bootStep = 5 → exec (.portTrainAttempt ⟨true, inv⟩) s = .next (settle
        { s with port := { o with link := 2, mode := m, tryMode := 0, rxPol := inv &&& BitVec.ofNat 8 (2 ^ lanes - 1) }
                 power := { s.power with bootStep := 6 } })) ∧
      (5 < s.power.bootStep → exec (.portTrainAttempt ⟨true, inv⟩) s = .next (settle
        { s with port := { o with link := 2, mode := m, tryMode := 0, rxPol := inv &&& BitVec.ofNat 8 (2 ^ lanes - 1) } })) ∧
      (5 < s.power.bootStep → exec (.portTrainAttempt ⟨false, inv⟩) s = .next (settle
        { s with dt := max s.dt (s.dt + 500 * dtMs) % 2 ^ 64, port := { o with link := 1, tryMode := (o.tryMode + 1) % (portModes s).length } }))) ∧
    (∀ e ∈ [(1, 8), (2, 8), (3, 4), (4, 4), (5, 2)], o.link = 2 → o.mode = e.1 → ∀ l : Nat,
      portLane s l = { idle := decide (e.2 ≤ l), data := l, txInverted := false, rxInverted := o.rxPol.getLsbD l }) ∧
    (∀ (t : State) (x : Out), send t x = { t with out := t.out ++ [marked t x] } ∧
      ∀ c, x ∈ [.ack c, .cnp c, .cm 0 c] → marked t x = { msg := x, ecn := 2, dscp := (conn t c).dscp, prio := (conn t c).prio }) ∧
    (o.link = 2 →
      exec .portLinkDown s = .next (settle (put fun o => { o with link := 0, mode := 0, tryMode := 0, rxPol := 0 })) ∧
      (∀ f : Frame, (s.phiro.eth.mtu + 22 < f.len ∨ 2 ≤ f.tags ∨ f.fcsOk = false ∨ f.kind = .other ∨ f.kind = .pause8023x) →
        exec (.frameRx f) s = .next (settle (put fun o => { o with discard := satInc o.discard 0xFFFF }))) ∧
      (∀ (f : Frame) (c : Nat), f.len ≤ s.phiro.eth.mtu + 22 → f.tags < 2 → f.fcsOk = true → connUp s c = true →
        (∀ t, (conn s c).lastCnpTx = some t → t + 50 * dtUs ≤ s.dt) → (bound_ → o.host = some f.from_) → f.kind = .roce c true →
        exec (.frameRx f) s = .next (settle (send (modConn s c fun k => { k with lastCnpTx := some s.dt }) (.cnp c)))) ∧
      (∀ (a : HostAddr) (ip : Nat), ip4 s = some ip → exec (.arp ip a) s = .next (settle (send s .arp))) ∧
      (∀ (a : HostAddr) (ip : Nat), ip4 s ≠ some ip → exec (.arp ip a) s = .next (settle (put fun o => { o with discard := satInc o.discard 0xFFFF }))) ∧
      (∀ (a : HostAddr) (ip : Nat), ip6 s = some ip ∨ ip = linkLocal → exec (.neighbourDiscovery ip a) s = .next (settle (send s .ndp))) ∧
      (∀ (a : HostAddr) (ip : Nat), ip6 s ≠ some ip → ip ≠ linkLocal →
        exec (.neighbourDiscovery ip a) s = .next (settle (put fun o => { o with discard := satInc o.discard 0xFFFF }))) ∧
      (∀ (a : HostAddr) (d : List Byte),
        exec (.icmpEcho a d) s = .next (settle (if bound_ ∧ o.host = some a then send s (.echo d) else put fun o => { o with discard := satInc o.discard 0xFFFF }))) ∧
      (∀ q : ConnReq, (bound_ → o.host = some q.from_) →
        (reqRefused s q = true → exec (.cmReq q) s = .next (settle (send s (.cm 1 q.index)))) ∧
        (reqRefused s q = false → bound_ →
          exec (.cmReq q) s = .next (settle (send (modConn s q.index fun _ =>
            { open_ := true, up := false, peer := q.from_, pathMtu := q.pathMtu, dscp := q.dscp, prio := q.prio, retry := q.retry,
              ackTimeout := q.ackTimeout, rate := 1, lastCnpTx := none, lastCnpRx := 0, ops := [] }) (.cm 0 q.index))))) ∧
      (∀ (c : Nat) (a : HostAddr), (bound_ → o.host = some a) → (conn s c).open_ = true → (conn s c).peer = a →
        exec (.cmRtu c a) s = .next (settle (modConn s c fun k => { k with up := true })) ∧
        exec (.cmDreq c a) s = .next (settle (connOut (send s (.cm 2 c)) c))) ∧
      (∀ (c : Nat) (a : HostAddr), bound_ → o.host ≠ some a →
        exec (.cmRtu c a) s = .next (settle (put fun o => { o with refused := satInc o.refused 0xFFFF }))) ∧
      (∀ c : Nat, connUp s c = true →
        let with_ := fun (x : RdmaOp) => modConn s c fun k => { k with ops := k.ops ++ [x] }
        let done_ := fun (t : State) => modConn t c fun k => { k with ops := k.ops.tail }
        let answered := fun (i : Instr) (t : State) => (conn s c).ops = [] → exec i s = .next (settle (done_ t))
        let bad := connOut (send (with_ .bad) (.nak c 1)) c
        (∀ d : List Byte, (bound_ → d = []) → d.length ≤ 4096 → answered (.send c d) (send (with_ (.send none)) (.ack c))) ∧
        (∀ d : List Byte, bound_ → d ≠ [] → answered (.send c d) bad) ∧
        (∀ (f : Frame), f.len ≤ s.phiro.eth.mtu + 22 → f.tags < 2 → f.fcsOk = true → (bound_ → o.host = some f.from_) → f.kind = .roceOpcode c false →
          answered (.frameRx f) bad) ∧
        (bound_ → ∀ w : Word32, answered (.sendWithImmediate c [] w) (doorbell (send (with_ (.send (some w))) (.ack c)) w.toNat)) ∧
        (bound_ → ∀ (key : Word32) (va : Nat) (d x : List Byte) (im : Option Word32) (t : State),
          rdmaWriteTo (with_ (.write key va d im)) c key va d = (.ok x, t) →
          (im = none → answered (.rdmaWrite c key va d) (send t (.ack c))) ∧
          ∀ w : Word32, im = some w → answered (.rdmaWriteWithImmediate c key va d w) (doorbell (send t (.ack c)) w.toNat)) ∧
        (bound_ → ∀ (key : Word32) (va n : Nat) (d : List Byte) (t : State), rdmaReadFrom (with_ (.read key va n [])) c key va n [] = (.ok d, t) →
          answered (.rdmaRead c key va n) (send t (.readResp c d))) ∧
        (bound_ → ∀ (key : Word32) (va n : Nat), key.toNat / 256 ≠ o.keychk → n ≤ 2 ^ 31 →
          answered (.rdmaRead c key va n) (connOut (send (with_ (.read key va n [])) (.nak c 2)) c)) ∧
        (∀ (x y : RdmaOp) (l : List RdmaOp) (t : State), (conn s c).ops = x :: l → opGo (with_ (.send none)) c x = (some y, t) →
          exec (.send c []) s = .next (settle (modConn t c fun k => { k with ops := y :: k.ops.tail }))) ∧
        (bound_ → ∀ (x y : RdmaOp) (l : List RdmaOp) (t : State) (key : Word32) (va n : Nat), (conn s c).ops = x :: l → 64 ≤ readsOut s c →
          opGo (with_ .bad) c x = (some y, t) →
          exec (.rdmaRead c key va n) s = .next (settle (modConn t c fun k => { k with ops := y :: k.ops.tail }))) ∧
        exec (.cnp c) s = .next (settle (modConn (put fun o => { o with cnpRx := satInc o.cnpRx 0xFFFF }) c fun k =>
          { k with rate := max (k.rate * (3 / 4)) (1 / 100), lastCnpRx := s.dt }))) ∧
      (∀ prios pause : Byte, s.phiro.eth.pfcEn = true → exec (.pfcFrame prios pause) s = .next (settle (put fun o =>
        { o with pfcPaused := (o.pfcPaused &&& ~~~(prios &&& s.phiro.eth.pfcPrio)) ||| (pause &&& (prios &&& s.phiro.eth.pfcPrio)) }))) ∧
      (∀ prio n : Nat, prio < 8 → n ≤ 8 * 2 ^ 20 → s.phiro.eth.pfcEn = true → s.phiro.eth.pfcPrio.getLsbD prio = true → o.pfcAsk.getLsbD prio = false →
        (6 * 2 ^ 20 < n → exec (.pfcWeir prio n) s = .next (settle (send
          (put fun o => { o with pfcBytes := tset 0 o.pfcBytes prio n, pfcAsk := setBitV o.pfcAsk prio }) (.pfc prio true)))) ∧
        (n ≤ 6 * 2 ^ 20 → exec (.pfcWeir prio n) s = .next (settle (put fun o => { o with pfcBytes := tset 0 o.pfcBytes prio n })))) ∧
      (∀ (num : Nat) (t : TagEntry) (x : Nat × Nat × List Byte), (owner s 24).tags.find? (fun t => t.num == num && t.host.isSome) = some t →
        t.host = some x → connUp s x.1 = true →
        (s.dt ≤ t.deadline → exec (.hostAck num) s = .next (settle (releaseTag s 24 num))) ∧
        (t.deadline < s.dt → exec (.hostAck num) s = .next (settle s)))) ∧
    (∀ c : Nat,
      ((conn s c).open_ = true → exec (.connectionRetryExhausted c) s = .next (settle (connOut s c))) ∧
      (connUp s c = true → (conn s c).rate < 1 →
        let t := advanceTo s ((conn s c).lastCnpRx + 20 * dtUs)
        exec (.rateIncrease c) s = .next (settle (modConn t c fun k => { k with rate := min (k.rate + 1 / 100) 1, lastCnpRx := t.dt }))))

/-- R500–R502, R566, R571–R580: the steps of R500 in their order on connection 0 of a device that is not bound, each answered, and the same over the
sideband; BIND binds the peer and draws KEYCHK; 10 s without a BIND close the connection; and what Reeve answers on the sideband.
The model's own choices in it: log 2, 3, 10, 24, 28, 29. -/
def Obligations.BindingResults : Prop :=
  ∀ s : State,
    (∀ a : HostAddr, portUp s = true → s.port.bindState ≠ 2 → connUp s 0 = true → (conn s 0).peer = a →
      let n := s.port.bindStep
      let step := fun (t : State) (k msg : Nat) (d : List Byte) =>
        send { t with port := { t.port with bindStep := k, bindState := 1 } } (.spdm false msg d)
      (n = 0 → exec (.getVersion (.port a)) s = .next (settle (step s 1 0x04 []))) ∧
      (n ≠ 0 → exec (.getVersion (.port a)) s = .next (settle (send s (.spdmError false 4)))) ∧
      (n = 1 → exec (.getCapabilities (.port a)) s = .next (settle (step s 2 0x61 []))) ∧
      (n = 2 → exec (.negotiateAlgorithms (.port a) true true) s = .next (settle (step s 3 0x63 []))) ∧
      (n = 3 → exec (.getDigests (.port a)) s = .next (settle (step s 4 0x01 (sha256 Config.certChain)))) ∧
      (n = 4 ∨ n = 5 → ∀ off len : Nat, exec (.getCertificate (.port a) 0 off len) s = .next (settle
        (if Config.certChain.length ≤ off then send s (.spdmError false 1)
         else step s 5 0x02 ((Config.certChain.drop off).take len)))) ∧
      (n = 5 → ∀ b : List Byte, exec (.challenge (.port a) b) s = .next (settle (step { s with free := s.free + 1 } 6 0x03
        (sha256 Config.certChain ++ sigBytes (Config.identitySign s.free (Config.challengeDigest b)))))) ∧
      (n = 6 →
        let b := slice (Config.freeBytes s.free) 0 32
        exec (.bindReq a) s = .next (settle (step { s with free := s.free + 1, port := { s.port with bindNonce := b } } 7 0x7E b))) ∧
      (n = 7 → ∀ (sig : Option (Nat × Nat)) (mac ip : Nat),
        ((∀ k, s.reeve.owner = some k →
            a.mac = mac ∧ a.ip = ip ∧ ∃ g, sig = some g ∧ ecVerify k (Config.bindDigest s.port.bindNonce mac ip) g = true) →
          let key := (Config.freeWord s.free).toNat % 2 ^ 24
          exec (.bind a sig mac ip) s = .next (settle (send
            { s with free := s.free + 1, power := { s.power with bootStep := 7 }
                     port := { s.port with bindState := 2, bindStep := 0, bindPeer := none, bindNonce := [], host := some a, keychk := key
                                           bindCount := (s.port.bindCount + 1) % 2 ^ 32 } }
            (.spdm false 0x7E (bytesLE 3 key))))) ∧
        (∀ k, s.reeve.owner = some k → sig = none →
          exec (.bind a sig mac ip) s = .next (settle (connOut (send s (.spdmError false 1)) 0))))) ∧
    (s.port.bindState ≠ 2 → (conn s 0).open_ = true →
      exec .bindTimeout s = .next (settle (connOut (advanceTo s (s.port.bindDt + 10 * dtS)) 0))) ∧
    (s.power.input = .on → s.reeve.recovery = false → s.reeve.frozen = false →
      (exec (.getVersion .sideband) s = .next (settle (send { s with reeve := { s.reeve with sbStep := 1, session := none } } (.spdm true 0x04 [])))) ∧
      (∀ (i : Nat) (nonce : List Byte), exec (.getMeasurements i nonce) s = .next (settle (match measureBlock s nonce i with
        | some b => send s (.spdm true 0x60 b)
        | none => send s (.spdmError true 1)))) ∧
      (∀ auth : Bool, 3 ≤ s.reeve.sbStep → exec (.keyExchange auth) s = .next (settle
        (send { s with reeve := { s.reeve with session := some (auth && s.reeve.owner.isSome) } } (.spdm true 0x64 [])))) ∧
      (∀ e : Byte, e ≠ 0 → e ≠ 0xFF → exec (.setEndpointId e) s = .next (settle
        (send { s with reeve := { s.reeve with eid := e.toNat } } (.mctp 1 [0, 0, e])))) ∧
      (exec (.mctpDiscovery 2) s = .next (settle (send s (.mctp 2 (0 :: bytesLE 1 s.reeve.eid))))) ∧
      (exec (.mctpDiscovery 3) s = .next (settle (send s (.mctp 3 (0 :: Config.mctpUuid))))) ∧
      (∀ q, 2 ≤ q → q ≤ 5 → exec (.pldmBase q) s = .next (settle (send s (.pldm q [0])))) ∧
      (∀ id ∈ sensorIds, exec (.getSensorReading id) s = .next (settle (send s (.pldm 0x11 (0 :: sensorRecord s id))))) ∧
      (s.reeve.session = some true → exec (.forceUnbind true) s = .next (settle (forcedUnbind (send s (.pldm 0x39 [0]))))) ∧
      (∀ b : List Byte, s.reeve.update = none → exec (.requestUpdate b) s = .next (settle
        (if fwCheck s b = 0x90 then send { s with reeve := { s.reeve with
          upd := 1, updPath := 2
          update := some (none, { image := b, svn := leAt b 0x10 4, sigOk := true, seq := (otherSlot s.reeve).seq, active := false }) } }
          (.pldm 0x10 [0])
         else send s (.pldm 0x10 (bytesLE 1 (fwCheck s b)))))) ∧
      (s.reeve.upd = 2 → s.reeve.nvBad.contains (if s.reeve.runSlot then 2 else 3) = false →
        let v := s.reeve
        let f := { (if v.runSlot then v.slotA else v.slotB) with seq := ((if v.runSlot then v.slotB else v.slotA).seq + 1) % 2 ^ 32, active := true }
        exec .activateFirmware s = .next (settle (send
          { s with reeve := { v with slotA := if v.runSlot then f else v.slotA, slotB := if v.runSlot then v.slotB else f, upd := 3 } } (.pldm 0x1A [0])))) ∧
      (∀ hb off first n : Nat, 0 < n → n ≤ 4096 →
        let a := max first (s.reeve.logNext - 81920)
        let k := min n (s.reeve.logNext - a)
        exec (.logRead .sideband hb off first n) s = .next (settle (send s
          (.mctp 0x7F (bytesLE 1 0x90 ++ bytesLE 4 k ++ bytesLE 8 (a + k) ++ logBytes s.reeve a k))))))


/-! ### Spares, the kiln pass, power, resets and boot -/

/-- R541–R554: a unit that passes its step enters the sweep, one that fails it once and then passes counts as transient, and a failing walker leaves
service with its record; a stopped step frees its unit; a late sweep posts KILN_LATE; rows, dies and ways reach their thresholds; pending swaps
take effect at their moment, and their copies end.
The model's own choices in it: log 2, 3, 10, 30. -/
def Obligations.SpareResults : Prop :=
  ∀ s : State,
    (∀ (u : KilnUnit) (step got again : Nat), s.kiln.en = true → kilnTests u = true → testable s u = true → s.power.rstLow = false →
      let e := Config.kilnExpected step % 2 ^ 32
      let t := { s with kiln := { s.kiln with
        testing := s.kiln.testing.filter (·.die ≠ u.die) ++ [u], tested := s.kiln.tested.filter (· ≠ u) ++ [u] } }
      (got % 2 ^ 32 = e → exec (.kilnStep u step got again) s = .next (settle (sweepEnd (rotate t u)))) ∧
      (got % 2 ^ 32 ≠ e → again % 2 ^ 32 = e → exec (.kilnStep u step got again) s = .next (settle
        (sweepEnd (rotate { t with kiln := { t.kiln with transient := satInc t.kiln.transient 0xFF } } u)))) ∧
      (got % 2 ^ 32 ≠ e → again % 2 ^ 32 ≠ e → u.type = 10 → (insertNat s.xlat.walkersOut u.index).length < 33 →
        let v := { t with kiln := { t.kiln with fails := satInc t.kiln.fails 0xFF } }
        let w := post v (mkRec v (lsDevice u.die) 0x63 0 u.die (0xA000 + u.index) (errBytes { reason := 0, step := step, got := again, exp := e }))
        exec (.kilnStep u step got again) s = .next (settle (sweepEnd { w with xlat := { w.xlat with walkersOut := insertNat s.xlat.walkersOut u.index } })))) ∧
    (∀ u : KilnUnit, exec (.kilnPreempt u) s = .next (settle { s with kiln := { s.kiln with testing := s.kiln.testing.filter (· ≠ u) } })) ∧
    (s.kiln.en = true → s.kiln.late = false →
      let t := { advanceTo s (s.kiln.sweepDt + (if s.kiln.hours = 0 then 24 else s.kiln.hours) * 3600 * dtS + 1) with kiln := { s.kiln with late := true } }
      exec .kilnLate s = .next (settle (post t (mkRec t (lsDevice 31) 0x64 0 31 0 (errBytes { addr := 0 }))))) ∧
    (∀ cd row : Nat, cd < 24 →
      let key := cd * 2 ^ 32 + row
      let die := cd * 16 + Config.dramDie row % 9
      (4 ≤ ((tget [] s.health.rowHits key).filter fun t => s.dt < t + 86400 * dtS).length →
        let t := modCd { s with free := s.free + 1, health := { s.health with
          rowHits := tset [] s.health.rowHits key [], dieRepairs := tset 0 s.health.dieRepairs die (tget 0 s.health.dieRepairs die + 1) } } cd fun c =>
            { c with rowCopy := insertNat c.rowCopy row }
        exec (.rowRepair cd row) s = .next (settle (post t (mkRec t (lsDevice cd) 0x60 0 cd (0x7000 + row % 4096)
          (errBytes { old := row % 65536, reason := 1, left := (Config.freeWord s.free).toNat % 256 }))))) ∧
      (((tget [] s.health.rowHits key).filter fun t => s.dt < t + 86400 * dtS).length < 4 → exec (.rowRepair cd row) s = .next (settle s)) ∧
      ((cdAt s cd).rowCopy.contains row = true →
        let t := modCd s cd fun c => { c with rowCopy := c.rowCopy.filter (· ≠ row) }
        exec (.rowCopyComplete cd row) s = .next (settle (vqGoAll (heldRelease { t with health := { s.health with
          bad := s.health.bad.filter fun e => !(e.2 == 1 && e.1 / 2 ^ 30 == cd && Config.dramRow (e.1 * 32) == row) } }))))) ∧
    (∀ cd die : Nat, cd < 24 → die < 9 → s.reeve.nvBad.contains 4 = false → (spareMap s cd).dieOut ≠ die → 64 ≤ tget 0 s.health.dieRepairs (cd * 16 + die) →
      (spareMap s cd).badDie = [] → (∀ w ∈ (cdAt s cd).swaps, w.type = 6 → w.rotation = true) →
      let t := { s with health := { s.health with dieRepairs := tset 0 s.health.dieRepairs (cd * 16 + die) 0 } }
      exec (.dieSwap cd die) s = .next (settle (modCd (modSpare t cd fun m => { m with badDie := [die] }) cd fun c =>
        { c with swaps := c.swaps ++ [{ type := 6, index := die, rotation := false, reason := 1 }] }))) ∧
    (∀ cd way : Nat, cd < 24 → way < 16 → s.reeve.nvBad.contains 4 = false →
      let m := spareMap s cd
      let key := cd * 32 + way
      m.badWay = [] → way ≠ m.wayOut → s.health.wayDue.contains key = false →
      16 ≤ ((tget [] s.health.wayHits key).filter fun t => s.dt < t + 86400 * dtS).length →
      let t := { s with health := { s.health with wayHits := tset [] s.health.wayHits key [], wayDue := s.health.wayDue.filter (· ≠ key) } }
      let t := dropWay (modSpare t cd fun m => { m with badWay := [way] }) cd way
      let t := modSpare t cd fun _ => { m with badWay := [way], wayOut := way }
      exec (.waySwap cd way) s = .next (settle (post t (mkRec t (lsDevice cd) 0x60 0 cd (0x4000 + way)
        (errBytes { old := way, new := m.wayOut, reason := 1, left := 0 }))))) ∧
    (∀ (cd : Nat) (w : Swap), cd < 24 → (cdAt s cd).swaps = [w] →
      (swapNow s cd w = true → exec (.spareSwap cd) s = .next (settle (takeSwap (modCd s cd fun c => { c with swaps := [] }) cd w))) ∧
      (swapNow s cd w = false → exec (.spareSwap cd) s = .next (settle (modCd s cd fun c => { c with swaps := [w] })))) ∧
    (∀ cd : Nat, (cdAt s cd).copying ≠ [] →
      exec (.spareCopyDone cd) s = .next (settle (modCd s cd fun c =>
        { c with copying := [], pos := tmap .off c.pos fun st => if st = .wakingSleep then .ready else st })))

/-- R68–R70, R584–R588, R590, R594–R597, R603, R607, R613, R622, R624: samples of sensors and of COOL_ID, the governor and the clamp; the 56 V input,
its loss and its return; RST_N; warm and cold resets begin for their pending cause; a boot runs its steps; and the test access port.
The model's own choices in it: log 2, 3, 10, 30. -/
def Obligations.PowerResults : Prop :=
  ∀ s : State,
    let w := s.power
    (w.input = .on →
      (∀ (id : Nat) (v : Int), id ∈ sensorIds → id < 0x20 →
        let old := sensorAt s id
        let st := if 105000 ≤ v then 2 else if 95000 ≤ v then 1 else if (old.state = 1 ∨ old.state = 2) ∧ 92000 < v then 1 else 0
        let t := { s with power := { w with sensors := tset Sensor.unread w.sensors id { value := v, state := st, dt := s.dt } } }
        v < 115000 →
        (st = old.state ∨ st = 0 → exec (.sensorSample id (some v)) s = .next (settle t)) ∧
        (st ≠ old.state → st ≠ 0 → exec (.sensorSample id (some v)) s = .next (settle (post t (mkRec t (lsDevice 31) 0x51 0 31 0
          (powerBytes id v w.step (max w.pstep (nextTstep t)) 0)))))) ∧
      (∀ id ∈ sensorIds,
        let x : Sensor := { value := ((Config.freeWord s.free).truncate 32).toInt, state := 3, dt := s.dt }
        exec (.sensorSample id none) s = .next (settle
          { s with free := s.free + 1, power := { w with sensors := tset Sensor.unread w.sensors id x } })) ∧
      (∀ code : BitVec 3, s.reeve.frozen = false → s.phiro.loaded = true →
        let f := s.phiro
        (coolProfile code = f.profile → exec (.coolIdSample code) s = .next (settle
          { s with phiro := { f with coolId := code, missRun := 0, hitRun := min (f.hitRun + 1) 2, forced := f.forced && decide (f.hitRun = 0) } })) ∧
        (coolProfile code ≠ f.profile →
          let t := { s with phiro := { f with coolId := code, missRun := min (f.missRun + 1) 2, hitRun := 0, forced := f.forced || decide (0 < f.missRun) } }
          (f.missRun = 0 ∨ f.forced = true → exec (.coolIdSample code) s = .next (settle t)) ∧
          (0 < f.missRun → f.forced = false → exec (.coolIdSample code) s = .next (settle (post t (mkRec t (lsDevice 31) 0x50 0 31 0
            (errBytes { extra := code.toNat + f.profile <<< 4 }))))))) ∧
      (∀ p : Nat, s.reeve.frozen = false →
        let cap := 1000 * capW s
        let ts := nextTstep s
        let common := fun (ps : Nat) (od : Tbl Nat) => { s with power := { w with
          inW := min (p / 1000) 65535, overDt := od, pstep := ps, tstep := ts, step := max ps ts, clamp := false } }
        (98 * cap < 100 * p → exec (.governorEvaluation p) s = .next (settle (common (min (w.step + 1) 7) (tins w.overDt w.step s.dt)))) ∧
        (100 * p ≤ 98 * cap → 90 * cap ≤ 100 * p ∨ w.pstep = 0 → exec (.governorEvaluation p) s = .next (settle (common w.pstep w.overDt))) ∧
        (100 * p < 90 * cap → 0 < w.pstep → (∀ t, tfind w.overDt (w.pstep - 1) = some t → t + 100 * dtMs ≤ s.dt) →
          exec (.governorEvaluation p) s = .next (settle (common (w.pstep - 1) w.overDt)))) ∧
      (∀ p : Nat,
        (100 * p ≤ 110 * 1000 * capW s → exec (.powerClamp p) s = .next (settle s)) ∧
        (110 * 1000 * capW s < 100 * p →
          let t := { s with power := { w with step := max w.step 5, clamp := true } }
          exec (.powerClamp p) s = .next (settle (post t (mkRec t (lsDevice 31) 0x53 0 31 0 (powerBytes 0x42 p w.step (max w.step 5) 0)))))) ∧
      exec .inputUndervoltage s = .next (settle (inputLost s .shed)) ∧ exec .inputOvervoltage s = .next (settle (inputLost s .shed)) ∧
      exec .removal s = .next (settle (inputLost s .removed)) ∧
      exec .rstNAssert s = .next (settle { s with power := { w with rstLow := true } }) ∧
      (∀ c : Nat, w.rstLow = false → w.rstReq = some c →
        (c = 1 ∨ c = 2 ∨ c = 3 ∨ c = 5 → exec (.coldReset c) s = .next (settle (coldState s c))) ∧
        (c = 4 ∨ (c = 6 ∧ w.rstAsk = none) → exec (.warmReset c) s = .next (settle (warmState s c))) ∧
        (∀ r t : Nat, c = 6 → w.rstAsk = some (r, t) →
          exec (.warmReset c) s = .next (settle (warmState (if cplAcked s r then s else advanceTo s (t + dtMs)) c)))) ∧
      (∀ k : Nat,
        let ir := if k < 2 ∨ (2 ≤ k ∧ k ≤ 4 ∧ w.rstLow = true) then k else 5
        exec (.tapInstruction k) s = .next (settle (send { s with free := s.free + 1, power := { w with tapIr := ir } }
          (.tap (if ir = 0 then 0x12432B35 else if ir = 5 then 0 else Config.tapData s.free))))) ∧
      (∀ r : BootResult, w.rstLow = false → w.rstReq = none → w.bootStep < 5 →
        let t := boot1 (countInsert (advanceTo s (s.dt + r.ms * dtMs))) r
        let t := boot2 { t with phiro := { t.phiro with coolId := r.cool } }
        (t.reeve.recovery = true ∨ tripHolds t = true → exec (.boot r) s = .next (settle t)) ∧
        (t.reeve.recovery = false → tripHolds t = false →
          let t := { t with power := { t.power with trip := false, thermtripN := true } }
          exec (.boot r) s = .next (settle (boot6 (boot5 (boot4 (boot3 t r) r)) r.mode r.inverted))))) ∧
    (w.input = .shed → w.rstReq = none →
      exec .inputRestored s = .next (settle { s with power := { w with input := .on, rstReq := some 2 } })) ∧
    (w.input = .absent ∨ w.input = .removed → exec .prsntNDebounced s = .next (settle { s with power := { w with input := .softStart } })) ∧
    (w.input = .softStart → w.rstReq = none →
      exec .powerGood s = .next (settle { s with power := { w with input := .on, powerLost := true, rstReq := some 1 } })) ∧
    (∀ ns : Nat, w.rstLow = true →
      let t := { s with dt := max s.dt (s.dt + 4 * ns) % 2 ^ 64
                        power := { w with rstLow := false, tapIr := if 2 ≤ w.tapIr ∧ w.tapIr ≤ 4 then 5 else w.tapIr } }
      (ns < 10000 → exec (.rstNRelease ns) s = .next (settle t)) ∧
      (10000 ≤ ns → w.rstReq = none → exec (.rstNRelease ns) s = .next (settle
        { t with power := { t.power with rstReq := some (if ns < 1000000000 then 4 else 3) } })))
end

