-- ==== Sys2Proof/Laws/Errors.lean ====
section
/-! SUPPORT. What an error leaves alone: posting records, containing an error and ending an invocation change no ring. -/

namespace Sys2Proof.Machine

theorem foldl_rings {α : Type} (f : State → α → State) (hf : ∀ s x, (f s x).port.rings = s.port.rings) (l : List α) (s : State) :
    (l.foldl f s).port.rings = s.port.rings := by
  induction l generalizing s with
  | nil => rfl
  | cons x l ih => exact (ih _).trans (hf s x)

theorem setInt_rings (s : State) (p n : Nat) : (setInt s p n).port.rings = s.port.rings := by unfold setInt; split <;> rfl

theorem postPlain_rings (s : State) (r : Record) : (postPlain s r).2.port.rings = s.port.rings := by
  simp only [postPlain]
  split
  · split
    · exact setInt_rings _ _ _
    · rfl
  · rfl

theorem nvSpare_rings (s : State) (area : Nat) : (nvSpare s area).2.port.rings = s.port.rings := by
  simp only [nvSpare, leftByte]
  split <;> rfl

theorem postR_rings (s : State) (r : Record) : (postR s r).2.port.rings = s.port.rings := by
  unfold postR
  split
  · exact postPlain_rings s r
  · split
    · exact postPlain_rings s r
    · simp only [postPlain_rings, nvSpare_rings]

theorem post_rings (s : State) (r : Record) : (post s r).port.rings = s.port.rings := postR_rings s r

theorem postError_rings (s : State) (r : Record) : (postError s r).port.rings = s.port.rings := postR_rings s r

theorem postDone_rings (s : State) (p : Nat) (r : StartReq) (f : DoneFlags) (a b : Nat) : (postDone s p r f a b).port.rings = s.port.rings :=
  postR_rings s _

theorem wortInt_rings (s : State) (p : Nat) : (wortInt s p).port.rings = s.port.rings := by
  unfold wortInt
  split
  · exact setInt_rings _ _ _
  · rfl

theorem invOut_rings (s : State) (p : Nat) (v : Invocation) (rc : Option Recipe) (e h : Bool) :
    (invOut s p v rc e h).port.rings = s.port.rings := postDone_rings s p _ _ _ _

theorem invTell_rings (s : State) (p : Nat) : (invTell s p).port.rings = s.port.rings := (wortInt_rings _ p).trans (setInt_rings _ p 0)

theorem clearKeep_rings (s : State) (p k : Nat) : (clearKeep s p k).port.rings = s.port.rings := by
  simp only [clearKeep, modPolder, setPolder]
  rw [foldl_rings]
  exact fun _ _ => rfl

theorem discardOpen_rings (s : State) (p : Nat) : (discardOpen s p).port.rings = s.port.rings := by
  simp only [discardOpen]
  rw [foldl_rings]
  exact fun _ _ => rfl

theorem discardWork_rings (s : State) (p : Nat) : (discardWork s p).port.rings = s.port.rings := discardOpen_rings _ p

theorem invEnd_rings (s : State) (p : Nat) (e : Bool) : (invEnd s p e).port.rings = s.port.rings := by
  cases h : (polder s p).run with
  | none => simp only [invEnd, h]
  | some inv =>
    simp only [invEnd, h, invTell_rings]
    cases e
    · simp only [Bool.false_eq_true, if_false, clearKeep_rings, invOut_rings]
    · simp only [if_true, discardWork_rings, clearKeep_rings, invOut_rings]

theorem invStop_rings (s : State) (p : Nat) : (invStop s p).port.rings = s.port.rings := by
  cases h : (polder s p).run with
  | none => simp only [invStop, h]
  | some inv =>
    simp only [invStop, h, invTell_rings, discardOpen_rings, invOut_rings]

theorem stopPolder_rings (s : State) (p : Nat) : (stopPolder s p).port.rings = s.port.rings := by
  simp only [stopPolder, modScope, setInt_rings, modPolder, setPolder]
  rw [foldl_rings (fun s r => postCancelled s p r) fun s r => postR_rings s _, invStop_rings]

theorem stopNamed_rings (s : State) (p : Nat) : (if named s p then stopPolder s p else s).port.rings = s.port.rings := by
  split
  · exact stopPolder_rings s p
  · rfl

theorem contain_rings (s : State) (r : Record) : (contain s r).port.rings = s.port.rings := by
  unfold contain
  split
  · exact stopPolder_rings _ _
  · split
    · exact foldl_rings (fun s p => if named s p then stopPolder s p else s) stopNamed_rings _ s
    · rfl

theorem beginError_rings (s : State) (r : Record) (i : Bool) : (beginError s r i).port.rings = s.port.rings := by
  simp only [beginError, contain_rings]
  split
  · rfl
  · exact postError_rings s r

theorem preempt_rings (s : State) (k : Nat) : (preempt s k).port.rings = s.port.rings := by
  unfold preempt
  repeat' split
  all_goals first | rfl | exact postError_rings _ _

theorem escalate_rings (s : State) (k : Nat) : (escalate s k).port.rings = s.port.rings := by
  simp only [escalate, beginError_rings, modScope]
  rw [foldl_rings _ fun s r => postError_rings s _, preempt_rings]

/-- Detecting an error leaves every ring as it is. -/
theorem detect_rings (s : State) (r : Record) (i : Bool) : (detect s r i).port.rings = s.port.rings := by
  unfold detect
  extract_lets r' k sc
  clear_value r' k sc
  split
  · exact post_rings _ _
  · split
    · exact postR_rings _ _
    · split
      · rw [beginError_rings]
        exact foldl_rings preempt preempt_rings _ s
      · split
        · exact beginError_rings _ _ _
        · split
          · rw [beginError_rings, preempt_rings]
          · split
            · rfl
            · exact escalate_rings _ _

end Sys2Proof.Machine
end

