-- ==== Sys2Proof/Laws/Tbl.lean ====
section
/-! SUPPORT. Sparse tables and byte memories: a read after a write, writes elsewhere, and the canonical form that every memory operation
keeps. -/

namespace Sys2Proof.Machine

variable {α : Type}

/-! ### Reads after writes -/

theorem tfind_tins_same (t : Tbl α) (k : Nat) (v : α) : tfind (tins t k v) k = some v := by
  induction t with
  | nil => simp [tins, tfind]
  | cons e t ih =>
    obtain ⟨k', v'⟩ := e
    simp only [tins]
    split
    · simp [tfind]
    · split
      · simp [tfind]
      · rename_i h1 h2
        simp [tfind, h2, ih]

theorem tfind_tins_ne (t : Tbl α) (k j : Nat) (v : α) (h : j ≠ k) : tfind (tins t k v) j = tfind t j := by
  induction t with
  | nil => simp [tins, tfind, h]
  | cons e t ih =>
    obtain ⟨k', v'⟩ := e
    simp only [tins]
    split
    · simp [tfind, h]
    · split
      · rename_i h1 h2
        subst h2
        simp [tfind, h]
      · simp [tfind, ih]

theorem tfind_filter (t : Tbl α) (q : Nat → Bool) (k : Nat) :
    tfind (t.filter fun e => q e.1) k = if q k then tfind t k else none := by
  induction t with
  | nil => simp [tfind]
  | cons e t ih =>
    obtain ⟨k', v'⟩ := e
    by_cases hk : k = k'
    · subst hk
      cases hq : q k <;> simp [hq, tfind, ih]
    · cases hq : q k' <;> simp [hq, tfind, ih, hk]

theorem tfind_tdel (t : Tbl α) (k j : Nat) : tfind (tdel t k) j = if j = k then none else tfind t j := by
  have h := tfind_filter t (fun x => decide (x ≠ k)) j
  simp only [tdel]
  rw [h]
  by_cases hj : j = k <;> simp [hj]

@[simp] theorem tget_nil (d : α) (k : Nat) : tget d ([] : Tbl α) k = d := rfl

variable [DecidableEq α]

@[simp] theorem tget_tset_same (d : α) (t : Tbl α) (k : Nat) (v : α) : tget d (tset d t k v) k = v := by
  unfold tset
  split
  · rename_i h
    simp [tget, tfind_tdel, h]
  · simp [tget, tfind_tins_same]

theorem tget_tset_ne (d : α) (t : Tbl α) (k j : Nat) (v : α) (h : j ≠ k) : tget d (tset d t k v) j = tget d t j := by
  unfold tset
  split
  · simp [tget, tfind_tdel, h]
  · simp [tget, tfind_tins_ne t k j v h]

theorem tget_tset (d : α) (t : Tbl α) (k j : Nat) (v : α) : tget d (tset d t k v) j = if j = k then v else tget d t j := by
  by_cases h : j = k
  · simp [h]
  · simp [h, tget_tset_ne d t k j v h]

omit [DecidableEq α] in
theorem tget_tdrop (d : α) (t : Tbl α) (q : Nat → Bool) (k : Nat) : tget d (tdrop t q) k = if q k then d else tget d t k := by
  have h := tfind_filter t (fun x => !q x) k
  simp only [tget, tdrop, h]
  cases q k <;> simp

/-! ### Byte memories -/

@[simp] theorem mget_mset_same (m : Memory) (a : Nat) (b : Byte) : mget (mset m a b) a = b := tget_tset_same 0 m a b

theorem mget_mset_ne (m : Memory) (a x : Nat) (b : Byte) (h : x ≠ a) : mget (mset m a b) x = mget m x := tget_tset_ne 0 m a x b h

/-- A write of bytes leaves every byte outside them alone. -/
theorem mget_msetN_out (m : Memory) (a x : Nat) (bs : List Byte) (h : x < a ∨ a + bs.length ≤ x) : mget (msetN m a bs) x = mget m x := by
  induction bs generalizing m a with
  | nil => rfl
  | cons b bs ih =>
    simp only [msetN, List.length_cons] at *
    rw [ih (mset m a b) (a + 1) (by omega), mget_mset_ne m a x b (by omega)]

/-- A byte that was written reads back. -/
theorem mget_msetN_in (m : Memory) (a k : Nat) (bs : List Byte) (h : k < bs.length) : mget (msetN m a bs) (a + k) = bs.getD k 0 := by
  induction bs generalizing m a k with
  | nil => simp at h
  | cons b bs ih =>
    simp only [msetN]
    cases k with
    | zero =>
      rw [mget_msetN_out _ _ _ _ (by omega)]
      simp
    | succ k =>
      have := ih (mset m a b) (a + 1) k (by simpa using h)
      rw [show a + (k + 1) = a + 1 + k by omega, this]
      simp

/-- A run that was written reads back whole. -/
theorem mgetN_msetN (m : Memory) (a : Nat) (bs : List Byte) : mgetN (msetN m a bs) a bs.length = bs := by
  induction bs generalizing m a with
  | nil => rfl
  | cons b bs ih =>
    simp only [msetN, List.length_cons, mgetN]
    rw [ih, mget_msetN_out _ _ _ _ (by omega)]
    simp

theorem mget_mzero (m : Memory) (a n x : Nat) : mget (mzero m a n) x = if a ≤ x ∧ x < a + n then 0 else mget m x := by
  simp [mget, mzero, tget_tdrop]

/-! ### The canonical form -/

omit [DecidableEq α] in
theorem risingFrom_filter (t : Tbl α) (q : Nat × α → Bool) (lo : Option Nat) (h : risingFrom lo t = true) :
    risingFrom lo (t.filter q) = true := by
  induction t generalizing lo with
  | nil => rfl
  | cons e t ih =>
    obtain ⟨k, v⟩ := e
    simp only [risingFrom, Bool.and_eq_true] at h
    have weaken : ∀ (t : Tbl α) (lo : Option Nat) (k : Nat), (match lo with | none => true | some l => decide (l < k)) = true →
        risingFrom (some k) t = true → risingFrom lo t = true := by
      intro t lo k h1 h2
      cases t with
      | nil => rfl
      | cons e t =>
        obtain ⟨k2, v2⟩ := e
        simp only [risingFrom, Bool.and_eq_true, decide_eq_true_eq] at *
        refine ⟨?_, h2.2⟩
        cases lo with
        | none => rfl
        | some l => simp only [decide_eq_true_eq] at *; omega
    by_cases hq : q (k, v) = true
    · simp only [List.filter_cons, hq, if_true, risingFrom, Bool.and_eq_true]
      exact ⟨h.1, ih _ h.2⟩
    · simp only [List.filter_cons, hq]
      exact weaken _ lo k h.1 (ih _ h.2)

omit [DecidableEq α] in
theorem risingFrom_tins (t : Tbl α) (k : Nat) (v : α) (lo : Option Nat) (hl : (match lo with | none => true | some l => decide (l < k)) = true)
    (h : risingFrom lo t = true) : risingFrom lo (tins t k v) = true := by
  induction t generalizing lo with
  | nil => cases lo <;> simp_all [tins, risingFrom]
  | cons e t ih =>
    obtain ⟨k', v'⟩ := e
    simp only [risingFrom, Bool.and_eq_true] at h
    simp only [tins]
    split
    · rename_i h1
      simp only [risingFrom, Bool.and_eq_true, decide_eq_true_eq]
      exact ⟨hl, h1, h.2⟩
    · split
      · rename_i h1 h2
        subst h2
        simp only [risingFrom, Bool.and_eq_true]
        exact ⟨hl, h.2⟩
      · rename_i h1 h2
        simp only [risingFrom, Bool.and_eq_true]
        exact ⟨h.1, ih (some k') (by simp; omega) h.2⟩

theorem twf_tset (d : α) (t : Tbl α) (k : Nat) (v : α) (h : twf d t = true) : twf d (tset d t k v) = true := by
  simp only [twf, Bool.and_eq_true] at *
  unfold tset
  split
  · refine ⟨risingFrom_filter t _ none h.1, ?_⟩
    simp only [tdel, List.all_eq_true, List.mem_filter] at *
    exact fun e he => h.2 e he.1
  · rename_i hv
    refine ⟨risingFrom_tins t k v none rfl h.1, ?_⟩
    have : ∀ (t : Tbl α), (t.all fun e => decide (e.2 ≠ d)) = true → ((tins t k v).all fun e => decide (e.2 ≠ d)) = true := by
      intro t
      induction t with
      | nil => simp [tins, hv]
      | cons e t ih =>
        obtain ⟨k', v'⟩ := e
        intro ht
        simp only [tins]
        split
        · simpa [hv] using ht
        · split
          · simp only [List.all_cons, Bool.and_eq_true] at *
            exact ⟨by simp [hv], ht.2⟩
          · simp only [List.all_cons, Bool.and_eq_true] at *
            exact ⟨ht.1, ih ht.2⟩
    exact this t h.2

theorem twf_tdrop (d : α) (t : Tbl α) (q : Nat → Bool) (h : twf d t = true) : twf d (tdrop t q) = true := by
  simp only [twf, Bool.and_eq_true] at *
  refine ⟨risingFrom_filter t _ none h.1, ?_⟩
  simp only [tdrop, List.all_eq_true, List.mem_filter] at *
  exact fun e he => h.2 e he.1

/-- Every memory operation keeps the canonical form. -/
theorem mset_wf (m : Memory) (a : Nat) (b : Byte) (h : Memory.wf m = true) : Memory.wf (mset m a b) = true := twf_tset 0 m a b h

theorem msetN_wf (m : Memory) (a : Nat) (bs : List Byte) (h : Memory.wf m = true) : Memory.wf (msetN m a bs) = true := by
  induction bs generalizing m a with
  | nil => exact h
  | cons b bs ih => exact ih _ _ (mset_wf m a b h)

theorem mzero_wf (m : Memory) (a n : Nat) (h : Memory.wf m = true) : Memory.wf (mzero m a n) = true := twf_tdrop 0 m _ h

/-- The memories after reset have the form. -/
theorem reset_mem_wf : Memory.wf State.reset.mem = true ∧ Memory.wf State.reset.grist = true := ⟨rfl, rfl⟩

end Sys2Proof.Machine
end

