-- ==== Sys2Proof/Laws/Settle.lean ====
section
/-! SUPPORT. What settling changes, what it leaves alone, and that it settles. -/

namespace Sys2Proof.Machine

/-! ### Keeping the work -/

theorem SameWork.refl (s : State) : SameWork s s := by constructor <;> intros <;> rfl

theorem SameWork.trans {s t u : State} (h : SameWork s t) (k : SameWork t u) : SameWork s u where
  pending := k.pending.trans h.pending
  dt := k.dt.trans h.dt
  phiro := k.phiro.trans h.phiro
  cds := k.cds.trans h.cds
  polders := k.polders.trans h.polders
  cores := k.cores.trans h.cores
  mem := k.mem.trans h.mem
  grist := k.grist.trans h.grist
  health := k.health.trans h.health
  xlat := k.xlat.trans h.xlat
  kiln := k.kiln.trans h.kiln
  reeve := k.reeve.trans h.reeve
  fabric := k.fabric.trans h.fabric
  owners := fun o ho => (k.owners o ho).trans (h.owners o ho)
  port := by
    have h1 := h.port
    have k1 := k.port
    simp only [Port.mk.injEq] at h1 k1 ⊢
    simp_all
  rings := fun r => (k.rings r).trans (h.rings r)
  evq := k.evq.trans h.evq
  errors := k.errors.trans h.errors
  scopes := fun i => (k.scopes i).trans (h.scopes i)
  power := k.power.trans h.power

/-- A host write takes a tag of NW and sends a frame, or waits, nothing else. -/
theorem sameWork_hostWrite (s : State) (h off : Nat) (d : List Byte) (l : LS) (r : Requester) : SameWork s (hostWrite s h off d l r) := by
  unfold hostWrite takeTag
  dsimp only
  split <;> (rename_i he; split at he) <;> cases he
  · constructor <;> intros <;> first | rfl | (rename_i o ho; exact tget_tset_ne _ _ _ _ _ ho)
  · constructor <;> intros <;> rfl

/-- Frames sent, tags of NW taken and writes struck from the waiting ones keep the work. -/
theorem sameWork_takeTag (s t : State) (q : TagReq) (n : Nat) (h : takeTag s 24 q = some (n, t)) : SameWork s t := by
  unfold takeTag at h
  split at h
  · cases h
  · cases h
    constructor <;> intros <;> first | rfl | (rename_i o ho; exact tget_tset_ne _ _ _ _ _ ho)

theorem sameWork_resendHeld (l : List TagEntry) (s : State) : SameWork s (resendHeld l s) := by
  induction l generalizing s with
  | nil => exact .refl s
  | cons e l ih =>
    unfold resendHeld
    split
    · exact ih s
    · split
      · split
        · rename_i hc he
          have h1 := sameWork_takeTag _ _ _ _ he
          refine h1.trans (.trans ?_ (ih _))
          constructor <;> intros <;> rfl
        · exact .refl s
      · exact ih s

theorem sameWork_cplMod (s : State) (r n : Nat) (l : List (LS × List Byte)) : SameWork s (modRing s r fun k => { k with held := l, cplProd := n }) := by
  constructor <;> intros <;> first | rfl | skip
  rename_i i
  simp only [ring, modRing, tget_tset]
  split
  · rename_i hi
    simp [hi]
  · rfl

theorem sameWork_cplDeliver (s : State) (r : Nat) : SameWork s (cplDeliver s r) := by
  unfold cplDeliver
  dsimp only
  split
  · exact .refl s
  · split
    · exact ((sameWork_hostWrite ..).trans (sameWork_hostWrite ..)).trans (sameWork_cplMod ..)
    · exact .refl s

theorem sameWork_foldl (f : State → Nat → State) (hf : ∀ s r, SameWork s (f s r)) (l : List Nat) (s : State) : SameWork s (l.foldl f s) := by
  induction l generalizing s with
  | nil => exact .refl s
  | cons r l ih => exact (hf s r).trans (ih _)

theorem sameWork_evqMod (s : State) (l : List Record) (n : Nat) :
    SameWork s { s with port := { s.port with evq := { s.port.evq with held := l, prod := n } } } := by
  constructor <;> intros <;> rfl

theorem sameWork_evqDeliver (n : Nat) (s : State) : SameWork s (evqDeliver n s) := by
  induction n generalizing s with
  | zero => exact .refl s
  | succ n ih =>
    unfold evqDeliver
    split
    · exact .refl s
    · split
      · exact (((sameWork_hostWrite ..).trans (sameWork_hostWrite ..)).trans (sameWork_evqMod ..)).trans (ih _)
      · exact .refl s

theorem scopeSettle_reset (w : List Record) : scopeSettle w Scope.reset = Scope.reset := rfl

/-- Settling a scope ends at most the handling of its current error. -/
theorem scopeSettle_cur (w : List Record) (sc : Scope) : { scopeSettle w sc with cur := none } = { sc with cur := none } := by
  unfold scopeSettle
  split
  · split <;> rfl
  · rfl

theorem tget_settle_fold (w : List Record) (l : List Nat) (hl : l.Nodup) (t : Tbl Scope) (k : Nat) :
    tget Scope.reset (l.foldl (fun t k => tmod Scope.reset t k (scopeSettle w)) t) k =
      if k ∈ l then scopeSettle w (tget Scope.reset t k) else tget Scope.reset t k := by
  induction l generalizing t with
  | nil => simp
  | cons j l ih =>
    have hj := List.nodup_cons.mp hl
    rw [List.foldl_cons, ih hj.2, tmod, tget_tset]
    by_cases hk : k = j
    · subst hk
      simp [hj.1]
    · simp [hk]

theorem scopeAt_settle (s : State) (w : List Record) (k : Nat) :
    tget Scope.reset (settleScopes w s.errors.scopes) k = if k < 25 then scopeSettle w (scopeAt s k) else scopeAt s k := by
  rw [settleScopes, scopeNums, tget_settle_fold w _ List.nodup_range]
  simp [scopeAt]

theorem sameWork_settleEnd (s : State) : SameWork s (settleEnd s) where
  pending := rfl
  dt := rfl
  phiro := rfl
  cds := rfl
  polders := rfl
  cores := rfl
  mem := rfl
  grist := rfl
  health := rfl
  xlat := rfl
  kiln := rfl
  reeve := rfl
  fabric := rfl
  owners := fun _ _ => rfl
  port := rfl
  rings := fun _ => rfl
  evq := rfl
  errors := by simp only [settleEnd]
  scopes := fun k => by
    simp only [scopeAt, settleEnd]
    rw [scopeAt_settle]
    split
    · exact scopeSettle_cur _ _
    · rfl
  power := by simp only [settleEnd]

/-- What settling leaves alone. -/
theorem settle_sameWork (s : State) : SameWork s (settle s) :=
  ((sameWork_resendHeld ..).trans (sameWork_foldl _ sameWork_cplDeliver ..)).trans ((sameWork_evqDeliver ..).trans (sameWork_settleEnd _))

/-! ### What settling settles -/

theorem scopeSettle_current (w : List Record) (sc : Scope) (r : Record) (h : (scopeSettle w sc).cur = some r) :
    r.seq = noSeq ∨ ∃ x ∈ w, x.seq = r.seq := by
  unfold scopeSettle at h
  split at h
  · rename_i c hc
    split at h
    · rename_i hw
      rw [hc] at h
      cases h
      simpa using hw
    · cases h
  · rename_i hc
    rw [hc] at h
    cases h

theorem evqAdmit_full (q : Evq) (h : (evqAdmit q).wait ≠ []) : evqMax ≤ (evqAdmit q).held.length := by
  simp only [evqAdmit, ne_eq, List.drop_eq_nil_iff, Nat.not_le, List.length_append, List.length_take] at *
  omega

theorem settleEnd_settled (s : State) : (settleEnd s).Settled := by
  refine ⟨fun h => evqAdmit_full _ h, rfl, ?_⟩
  intro k r hk h
  simp only [scopeAt, settleEnd] at h ⊢
  rw [scopeAt_settle, if_pos hk] at h
  exact scopeSettle_current _ _ _ h

theorem settle_settled (s : State) : (settle s).Settled := settleEnd_settled _

/-- Every command has an effect, and the state it leaves is settled. -/
theorem exec_settled (c : Instr) (s : State) : ∃ t, exec c s = .next (settle t) := by
  cases c <;> exact ⟨_, rfl⟩

end Sys2Proof.Machine
end

