-- ==== Sys2Proof/Laws/Commands.lean ====
section
/-! SUPPORT. What a ring does around a command's own effect (R509, R511, R532, R631): a command whose header passes acts, and completion
takes HEAD past it. -/

namespace Sys2Proof.Machine

/-- A command whose header passes acts. -/
theorem hostCmd_ready {s : State} {h : CmdHdr} {sc : CmdScope} {opc : Nat} (k : CmdReady s h sc opc) (f : State → State) :
    hostCmd sc opc h f s = f s := by
  obtain ⟨h1, h2, h3, h4⟩ := k
  have h3' : ((scopeAt s 24).fatal && !servedFatal opc) = false := by
    cases hf : (scopeAt s 24).fatal
    · rfl
    · simp [h3 hf]
  have h4' : (decide (h.pol < 24) && !named s h.pol) = false := by
    by_cases hp : h.pol < 24
    · simp [h4 hp]
    · simp [hp]
  simp [hostCmd, h1, h2, h3', h4']

/-- A command that answers at once completes with its answer. -/
theorem quickCmd_ready {s : State} {h : CmdHdr} {sc : CmdScope} {opc : Nat} (k : CmdReady s h sc opc) (f : State → Cpl × State) :
    quickCmd sc opc h f s = complete (f s).2 h opc (f s).1 := hostCmd_ready k _

/-- A management command whose header passes acts, while Reeve serves. -/
theorem mgmt_ready {s : State} {h : CmdHdr} {opc : Nat} (k : MgmtReady s h opc) (f : State → State) : mgmt opc h f s = f s := by
  obtain ⟨h1, h2, h3, h4⟩ := k
  simp [mgmt, h2, h3, hostCmd_ready h1, h4]

/-- A command that writes bytes into a host buffer. -/
theorem bufCmd_can {s : State} {h : CmdHdr} {opc hb off : Nat} {d : List Byte} {c : Cpl} (hv : (hbuf s hb).valid = true)
    (hl : off + d.length ≤ (hbuf s hb).len) (hd : d ≠ []) (hc : bufCan s hb = true) :
    bufCmd s h opc hb off d c = complete (hostWrite s hb off d (lsCmd s h) (.ring h.ring)) h opc c := by
  simp [bufCmd, hv, Nat.not_lt.mpr hl, hd, hc]

/-- The ring of a command past it. -/
theorem ring_complete (s : State) (h : CmdHdr) (opc : Nat) (x : Cpl) :
    ring (complete s h opc x) h.ring = { ring s h.ring with
      busy := none, head := ((ring s h.ring).head + 1) % 2 ^ 16, held := (ring s h.ring).held ++ [(lsCmd s h, cplBytes s h opc x)] } := by
  simp [complete, modRing, ring]

/-- Every other ring stays as it is. -/
theorem ring_complete_ne (s : State) (h : CmdHdr) (opc r : Nat) (x : Cpl) (hr : r ≠ h.ring) : ring (complete s h opc x) r = ring s r := by
  simp [complete, modRing, ring, tget_tset, hr]

end Sys2Proof.Machine
end

