-- ==== Sys2Proof/Laws/State.lean ====
section
/-! SUPPORT. What each update of the state leaves of every field: true by rfl, so that no proof unfolds a record update. -/

namespace Sys2Proof.Machine

/-! ### setPolder -/

@[simp] theorem setPolder_pending (s : State) (p : Nat) (v : Polder) : (setPolder s p v).pending = s.pending := rfl
@[simp] theorem setPolder_free (s : State) (p : Nat) (v : Polder) : (setPolder s p v).free = s.free := rfl
@[simp] theorem setPolder_out (s : State) (p : Nat) (v : Polder) : (setPolder s p v).out = s.out := rfl
@[simp] theorem setPolder_dt (s : State) (p : Nat) (v : Polder) : (setPolder s p v).dt = s.dt := rfl
@[simp] theorem setPolder_phiro (s : State) (p : Nat) (v : Polder) : (setPolder s p v).phiro = s.phiro := rfl
@[simp] theorem setPolder_cds (s : State) (p : Nat) (v : Polder) : (setPolder s p v).cds = s.cds := rfl
@[simp] theorem setPolder_cores (s : State) (p : Nat) (v : Polder) : (setPolder s p v).cores = s.cores := rfl
@[simp] theorem setPolder_mem (s : State) (p : Nat) (v : Polder) : (setPolder s p v).mem = s.mem := rfl
@[simp] theorem setPolder_grist (s : State) (p : Nat) (v : Polder) : (setPolder s p v).grist = s.grist := rfl
@[simp] theorem setPolder_health (s : State) (p : Nat) (v : Polder) : (setPolder s p v).health = s.health := rfl
@[simp] theorem setPolder_xlat (s : State) (p : Nat) (v : Polder) : (setPolder s p v).xlat = s.xlat := rfl
@[simp] theorem setPolder_fabric (s : State) (p : Nat) (v : Polder) : (setPolder s p v).fabric = s.fabric := rfl
@[simp] theorem setPolder_port (s : State) (p : Nat) (v : Polder) : (setPolder s p v).port = s.port := rfl
@[simp] theorem setPolder_errors (s : State) (p : Nat) (v : Polder) : (setPolder s p v).errors = s.errors := rfl
@[simp] theorem setPolder_kiln (s : State) (p : Nat) (v : Polder) : (setPolder s p v).kiln = s.kiln := rfl
@[simp] theorem setPolder_reeve (s : State) (p : Nat) (v : Polder) : (setPolder s p v).reeve = s.reeve := rfl
@[simp] theorem setPolder_power (s : State) (p : Nat) (v : Polder) : (setPolder s p v).power = s.power := rfl

/-! ### modPolder -/

@[simp] theorem modPolder_pending (s : State) (p : Nat) (f : Polder → Polder) : (modPolder s p f).pending = s.pending := rfl
@[simp] theorem modPolder_free (s : State) (p : Nat) (f : Polder → Polder) : (modPolder s p f).free = s.free := rfl
@[simp] theorem modPolder_out (s : State) (p : Nat) (f : Polder → Polder) : (modPolder s p f).out = s.out := rfl
@[simp] theorem modPolder_dt (s : State) (p : Nat) (f : Polder → Polder) : (modPolder s p f).dt = s.dt := rfl
@[simp] theorem modPolder_phiro (s : State) (p : Nat) (f : Polder → Polder) : (modPolder s p f).phiro = s.phiro := rfl
@[simp] theorem modPolder_cds (s : State) (p : Nat) (f : Polder → Polder) : (modPolder s p f).cds = s.cds := rfl
@[simp] theorem modPolder_cores (s : State) (p : Nat) (f : Polder → Polder) : (modPolder s p f).cores = s.cores := rfl
@[simp] theorem modPolder_mem (s : State) (p : Nat) (f : Polder → Polder) : (modPolder s p f).mem = s.mem := rfl
@[simp] theorem modPolder_grist (s : State) (p : Nat) (f : Polder → Polder) : (modPolder s p f).grist = s.grist := rfl
@[simp] theorem modPolder_health (s : State) (p : Nat) (f : Polder → Polder) : (modPolder s p f).health = s.health := rfl
@[simp] theorem modPolder_xlat (s : State) (p : Nat) (f : Polder → Polder) : (modPolder s p f).xlat = s.xlat := rfl
@[simp] theorem modPolder_fabric (s : State) (p : Nat) (f : Polder → Polder) : (modPolder s p f).fabric = s.fabric := rfl
@[simp] theorem modPolder_port (s : State) (p : Nat) (f : Polder → Polder) : (modPolder s p f).port = s.port := rfl
@[simp] theorem modPolder_errors (s : State) (p : Nat) (f : Polder → Polder) : (modPolder s p f).errors = s.errors := rfl
@[simp] theorem modPolder_kiln (s : State) (p : Nat) (f : Polder → Polder) : (modPolder s p f).kiln = s.kiln := rfl
@[simp] theorem modPolder_reeve (s : State) (p : Nat) (f : Polder → Polder) : (modPolder s p f).reeve = s.reeve := rfl
@[simp] theorem modPolder_power (s : State) (p : Nat) (f : Polder → Polder) : (modPolder s p f).power = s.power := rfl

/-! ### setCoreAt -/

@[simp] theorem setCoreAt_pending (s : State) (n : Nat) (v : Core) : (setCoreAt s n v).pending = s.pending := rfl
@[simp] theorem setCoreAt_free (s : State) (n : Nat) (v : Core) : (setCoreAt s n v).free = s.free := rfl
@[simp] theorem setCoreAt_out (s : State) (n : Nat) (v : Core) : (setCoreAt s n v).out = s.out := rfl
@[simp] theorem setCoreAt_dt (s : State) (n : Nat) (v : Core) : (setCoreAt s n v).dt = s.dt := rfl
@[simp] theorem setCoreAt_phiro (s : State) (n : Nat) (v : Core) : (setCoreAt s n v).phiro = s.phiro := rfl
@[simp] theorem setCoreAt_cds (s : State) (n : Nat) (v : Core) : (setCoreAt s n v).cds = s.cds := rfl
@[simp] theorem setCoreAt_polders (s : State) (n : Nat) (v : Core) : (setCoreAt s n v).polders = s.polders := rfl
@[simp] theorem setCoreAt_mem (s : State) (n : Nat) (v : Core) : (setCoreAt s n v).mem = s.mem := rfl
@[simp] theorem setCoreAt_grist (s : State) (n : Nat) (v : Core) : (setCoreAt s n v).grist = s.grist := rfl
@[simp] theorem setCoreAt_health (s : State) (n : Nat) (v : Core) : (setCoreAt s n v).health = s.health := rfl
@[simp] theorem setCoreAt_xlat (s : State) (n : Nat) (v : Core) : (setCoreAt s n v).xlat = s.xlat := rfl
@[simp] theorem setCoreAt_fabric (s : State) (n : Nat) (v : Core) : (setCoreAt s n v).fabric = s.fabric := rfl
@[simp] theorem setCoreAt_port (s : State) (n : Nat) (v : Core) : (setCoreAt s n v).port = s.port := rfl
@[simp] theorem setCoreAt_errors (s : State) (n : Nat) (v : Core) : (setCoreAt s n v).errors = s.errors := rfl
@[simp] theorem setCoreAt_kiln (s : State) (n : Nat) (v : Core) : (setCoreAt s n v).kiln = s.kiln := rfl
@[simp] theorem setCoreAt_reeve (s : State) (n : Nat) (v : Core) : (setCoreAt s n v).reeve = s.reeve := rfl
@[simp] theorem setCoreAt_power (s : State) (n : Nat) (v : Core) : (setCoreAt s n v).power = s.power := rfl

/-! ### setCore -/

@[simp] theorem setCore_pending (s : State) (p : Nat) (v : Core) : (setCore s p v).pending = s.pending := rfl
@[simp] theorem setCore_free (s : State) (p : Nat) (v : Core) : (setCore s p v).free = s.free := rfl
@[simp] theorem setCore_out (s : State) (p : Nat) (v : Core) : (setCore s p v).out = s.out := rfl
@[simp] theorem setCore_dt (s : State) (p : Nat) (v : Core) : (setCore s p v).dt = s.dt := rfl
@[simp] theorem setCore_phiro (s : State) (p : Nat) (v : Core) : (setCore s p v).phiro = s.phiro := rfl
@[simp] theorem setCore_cds (s : State) (p : Nat) (v : Core) : (setCore s p v).cds = s.cds := rfl
@[simp] theorem setCore_polders (s : State) (p : Nat) (v : Core) : (setCore s p v).polders = s.polders := rfl
@[simp] theorem setCore_mem (s : State) (p : Nat) (v : Core) : (setCore s p v).mem = s.mem := rfl
@[simp] theorem setCore_grist (s : State) (p : Nat) (v : Core) : (setCore s p v).grist = s.grist := rfl
@[simp] theorem setCore_health (s : State) (p : Nat) (v : Core) : (setCore s p v).health = s.health := rfl
@[simp] theorem setCore_xlat (s : State) (p : Nat) (v : Core) : (setCore s p v).xlat = s.xlat := rfl
@[simp] theorem setCore_fabric (s : State) (p : Nat) (v : Core) : (setCore s p v).fabric = s.fabric := rfl
@[simp] theorem setCore_port (s : State) (p : Nat) (v : Core) : (setCore s p v).port = s.port := rfl
@[simp] theorem setCore_errors (s : State) (p : Nat) (v : Core) : (setCore s p v).errors = s.errors := rfl
@[simp] theorem setCore_kiln (s : State) (p : Nat) (v : Core) : (setCore s p v).kiln = s.kiln := rfl
@[simp] theorem setCore_reeve (s : State) (p : Nat) (v : Core) : (setCore s p v).reeve = s.reeve := rfl
@[simp] theorem setCore_power (s : State) (p : Nat) (v : Core) : (setCore s p v).power = s.power := rfl

/-! ### modCore -/

@[simp] theorem modCore_pending (s : State) (p : Nat) (f : Core → Core) : (modCore s p f).pending = s.pending := rfl
@[simp] theorem modCore_free (s : State) (p : Nat) (f : Core → Core) : (modCore s p f).free = s.free := rfl
@[simp] theorem modCore_out (s : State) (p : Nat) (f : Core → Core) : (modCore s p f).out = s.out := rfl
@[simp] theorem modCore_dt (s : State) (p : Nat) (f : Core → Core) : (modCore s p f).dt = s.dt := rfl
@[simp] theorem modCore_phiro (s : State) (p : Nat) (f : Core → Core) : (modCore s p f).phiro = s.phiro := rfl
@[simp] theorem modCore_cds (s : State) (p : Nat) (f : Core → Core) : (modCore s p f).cds = s.cds := rfl
@[simp] theorem modCore_polders (s : State) (p : Nat) (f : Core → Core) : (modCore s p f).polders = s.polders := rfl
@[simp] theorem modCore_mem (s : State) (p : Nat) (f : Core → Core) : (modCore s p f).mem = s.mem := rfl
@[simp] theorem modCore_grist (s : State) (p : Nat) (f : Core → Core) : (modCore s p f).grist = s.grist := rfl
@[simp] theorem modCore_health (s : State) (p : Nat) (f : Core → Core) : (modCore s p f).health = s.health := rfl
@[simp] theorem modCore_xlat (s : State) (p : Nat) (f : Core → Core) : (modCore s p f).xlat = s.xlat := rfl
@[simp] theorem modCore_fabric (s : State) (p : Nat) (f : Core → Core) : (modCore s p f).fabric = s.fabric := rfl
@[simp] theorem modCore_port (s : State) (p : Nat) (f : Core → Core) : (modCore s p f).port = s.port := rfl
@[simp] theorem modCore_errors (s : State) (p : Nat) (f : Core → Core) : (modCore s p f).errors = s.errors := rfl
@[simp] theorem modCore_kiln (s : State) (p : Nat) (f : Core → Core) : (modCore s p f).kiln = s.kiln := rfl
@[simp] theorem modCore_reeve (s : State) (p : Nat) (f : Core → Core) : (modCore s p f).reeve = s.reeve := rfl
@[simp] theorem modCore_power (s : State) (p : Nat) (f : Core → Core) : (modCore s p f).power = s.power := rfl

/-! ### modCd -/

@[simp] theorem modCd_pending (s : State) (n : Nat) (f : Cd → Cd) : (modCd s n f).pending = s.pending := rfl
@[simp] theorem modCd_free (s : State) (n : Nat) (f : Cd → Cd) : (modCd s n f).free = s.free := rfl
@[simp] theorem modCd_out (s : State) (n : Nat) (f : Cd → Cd) : (modCd s n f).out = s.out := rfl
@[simp] theorem modCd_dt (s : State) (n : Nat) (f : Cd → Cd) : (modCd s n f).dt = s.dt := rfl
@[simp] theorem modCd_phiro (s : State) (n : Nat) (f : Cd → Cd) : (modCd s n f).phiro = s.phiro := rfl
@[simp] theorem modCd_polders (s : State) (n : Nat) (f : Cd → Cd) : (modCd s n f).polders = s.polders := rfl
@[simp] theorem modCd_cores (s : State) (n : Nat) (f : Cd → Cd) : (modCd s n f).cores = s.cores := rfl
@[simp] theorem modCd_mem (s : State) (n : Nat) (f : Cd → Cd) : (modCd s n f).mem = s.mem := rfl
@[simp] theorem modCd_grist (s : State) (n : Nat) (f : Cd → Cd) : (modCd s n f).grist = s.grist := rfl
@[simp] theorem modCd_health (s : State) (n : Nat) (f : Cd → Cd) : (modCd s n f).health = s.health := rfl
@[simp] theorem modCd_xlat (s : State) (n : Nat) (f : Cd → Cd) : (modCd s n f).xlat = s.xlat := rfl
@[simp] theorem modCd_fabric (s : State) (n : Nat) (f : Cd → Cd) : (modCd s n f).fabric = s.fabric := rfl
@[simp] theorem modCd_port (s : State) (n : Nat) (f : Cd → Cd) : (modCd s n f).port = s.port := rfl
@[simp] theorem modCd_errors (s : State) (n : Nat) (f : Cd → Cd) : (modCd s n f).errors = s.errors := rfl
@[simp] theorem modCd_kiln (s : State) (n : Nat) (f : Cd → Cd) : (modCd s n f).kiln = s.kiln := rfl
@[simp] theorem modCd_reeve (s : State) (n : Nat) (f : Cd → Cd) : (modCd s n f).reeve = s.reeve := rfl
@[simp] theorem modCd_power (s : State) (n : Nat) (f : Cd → Cd) : (modCd s n f).power = s.power := rfl

/-! ### modNc -/

@[simp] theorem modNc_pending (s : State) (n : Nat) (f : Nc → Nc) : (modNc s n f).pending = s.pending := rfl
@[simp] theorem modNc_free (s : State) (n : Nat) (f : Nc → Nc) : (modNc s n f).free = s.free := rfl
@[simp] theorem modNc_out (s : State) (n : Nat) (f : Nc → Nc) : (modNc s n f).out = s.out := rfl
@[simp] theorem modNc_dt (s : State) (n : Nat) (f : Nc → Nc) : (modNc s n f).dt = s.dt := rfl
@[simp] theorem modNc_phiro (s : State) (n : Nat) (f : Nc → Nc) : (modNc s n f).phiro = s.phiro := rfl
@[simp] theorem modNc_polders (s : State) (n : Nat) (f : Nc → Nc) : (modNc s n f).polders = s.polders := rfl
@[simp] theorem modNc_cores (s : State) (n : Nat) (f : Nc → Nc) : (modNc s n f).cores = s.cores := rfl
@[simp] theorem modNc_mem (s : State) (n : Nat) (f : Nc → Nc) : (modNc s n f).mem = s.mem := rfl
@[simp] theorem modNc_grist (s : State) (n : Nat) (f : Nc → Nc) : (modNc s n f).grist = s.grist := rfl
@[simp] theorem modNc_health (s : State) (n : Nat) (f : Nc → Nc) : (modNc s n f).health = s.health := rfl
@[simp] theorem modNc_xlat (s : State) (n : Nat) (f : Nc → Nc) : (modNc s n f).xlat = s.xlat := rfl
@[simp] theorem modNc_fabric (s : State) (n : Nat) (f : Nc → Nc) : (modNc s n f).fabric = s.fabric := rfl
@[simp] theorem modNc_port (s : State) (n : Nat) (f : Nc → Nc) : (modNc s n f).port = s.port := rfl
@[simp] theorem modNc_errors (s : State) (n : Nat) (f : Nc → Nc) : (modNc s n f).errors = s.errors := rfl
@[simp] theorem modNc_kiln (s : State) (n : Nat) (f : Nc → Nc) : (modNc s n f).kiln = s.kiln := rfl
@[simp] theorem modNc_reeve (s : State) (n : Nat) (f : Nc → Nc) : (modNc s n f).reeve = s.reeve := rfl
@[simp] theorem modNc_power (s : State) (n : Nat) (f : Nc → Nc) : (modNc s n f).power = s.power := rfl

/-! ### modRing -/

@[simp] theorem modRing_pending (s : State) (r : Nat) (f : Ring → Ring) : (modRing s r f).pending = s.pending := rfl
@[simp] theorem modRing_free (s : State) (r : Nat) (f : Ring → Ring) : (modRing s r f).free = s.free := rfl
@[simp] theorem modRing_out (s : State) (r : Nat) (f : Ring → Ring) : (modRing s r f).out = s.out := rfl
@[simp] theorem modRing_dt (s : State) (r : Nat) (f : Ring → Ring) : (modRing s r f).dt = s.dt := rfl
@[simp] theorem modRing_phiro (s : State) (r : Nat) (f : Ring → Ring) : (modRing s r f).phiro = s.phiro := rfl
@[simp] theorem modRing_cds (s : State) (r : Nat) (f : Ring → Ring) : (modRing s r f).cds = s.cds := rfl
@[simp] theorem modRing_polders (s : State) (r : Nat) (f : Ring → Ring) : (modRing s r f).polders = s.polders := rfl
@[simp] theorem modRing_cores (s : State) (r : Nat) (f : Ring → Ring) : (modRing s r f).cores = s.cores := rfl
@[simp] theorem modRing_mem (s : State) (r : Nat) (f : Ring → Ring) : (modRing s r f).mem = s.mem := rfl
@[simp] theorem modRing_grist (s : State) (r : Nat) (f : Ring → Ring) : (modRing s r f).grist = s.grist := rfl
@[simp] theorem modRing_health (s : State) (r : Nat) (f : Ring → Ring) : (modRing s r f).health = s.health := rfl
@[simp] theorem modRing_xlat (s : State) (r : Nat) (f : Ring → Ring) : (modRing s r f).xlat = s.xlat := rfl
@[simp] theorem modRing_fabric (s : State) (r : Nat) (f : Ring → Ring) : (modRing s r f).fabric = s.fabric := rfl
@[simp] theorem modRing_errors (s : State) (r : Nat) (f : Ring → Ring) : (modRing s r f).errors = s.errors := rfl
@[simp] theorem modRing_kiln (s : State) (r : Nat) (f : Ring → Ring) : (modRing s r f).kiln = s.kiln := rfl
@[simp] theorem modRing_reeve (s : State) (r : Nat) (f : Ring → Ring) : (modRing s r f).reeve = s.reeve := rfl
@[simp] theorem modRing_power (s : State) (r : Nat) (f : Ring → Ring) : (modRing s r f).power = s.power := rfl

/-! ### modConn -/

@[simp] theorem modConn_pending (s : State) (c : Nat) (f : Conn → Conn) : (modConn s c f).pending = s.pending := rfl
@[simp] theorem modConn_free (s : State) (c : Nat) (f : Conn → Conn) : (modConn s c f).free = s.free := rfl
@[simp] theorem modConn_out (s : State) (c : Nat) (f : Conn → Conn) : (modConn s c f).out = s.out := rfl
@[simp] theorem modConn_dt (s : State) (c : Nat) (f : Conn → Conn) : (modConn s c f).dt = s.dt := rfl
@[simp] theorem modConn_phiro (s : State) (c : Nat) (f : Conn → Conn) : (modConn s c f).phiro = s.phiro := rfl
@[simp] theorem modConn_cds (s : State) (c : Nat) (f : Conn → Conn) : (modConn s c f).cds = s.cds := rfl
@[simp] theorem modConn_polders (s : State) (c : Nat) (f : Conn → Conn) : (modConn s c f).polders = s.polders := rfl
@[simp] theorem modConn_cores (s : State) (c : Nat) (f : Conn → Conn) : (modConn s c f).cores = s.cores := rfl
@[simp] theorem modConn_mem (s : State) (c : Nat) (f : Conn → Conn) : (modConn s c f).mem = s.mem := rfl
@[simp] theorem modConn_grist (s : State) (c : Nat) (f : Conn → Conn) : (modConn s c f).grist = s.grist := rfl
@[simp] theorem modConn_health (s : State) (c : Nat) (f : Conn → Conn) : (modConn s c f).health = s.health := rfl
@[simp] theorem modConn_xlat (s : State) (c : Nat) (f : Conn → Conn) : (modConn s c f).xlat = s.xlat := rfl
@[simp] theorem modConn_fabric (s : State) (c : Nat) (f : Conn → Conn) : (modConn s c f).fabric = s.fabric := rfl
@[simp] theorem modConn_errors (s : State) (c : Nat) (f : Conn → Conn) : (modConn s c f).errors = s.errors := rfl
@[simp] theorem modConn_kiln (s : State) (c : Nat) (f : Conn → Conn) : (modConn s c f).kiln = s.kiln := rfl
@[simp] theorem modConn_reeve (s : State) (c : Nat) (f : Conn → Conn) : (modConn s c f).reeve = s.reeve := rfl
@[simp] theorem modConn_power (s : State) (c : Nat) (f : Conn → Conn) : (modConn s c f).power = s.power := rfl

/-! ### modOwner -/

@[simp] theorem modOwner_pending (s : State) (o : Nat) (f : Owner → Owner) : (modOwner s o f).pending = s.pending := rfl
@[simp] theorem modOwner_free (s : State) (o : Nat) (f : Owner → Owner) : (modOwner s o f).free = s.free := rfl
@[simp] theorem modOwner_out (s : State) (o : Nat) (f : Owner → Owner) : (modOwner s o f).out = s.out := rfl
@[simp] theorem modOwner_dt (s : State) (o : Nat) (f : Owner → Owner) : (modOwner s o f).dt = s.dt := rfl
@[simp] theorem modOwner_phiro (s : State) (o : Nat) (f : Owner → Owner) : (modOwner s o f).phiro = s.phiro := rfl
@[simp] theorem modOwner_cds (s : State) (o : Nat) (f : Owner → Owner) : (modOwner s o f).cds = s.cds := rfl
@[simp] theorem modOwner_polders (s : State) (o : Nat) (f : Owner → Owner) : (modOwner s o f).polders = s.polders := rfl
@[simp] theorem modOwner_cores (s : State) (o : Nat) (f : Owner → Owner) : (modOwner s o f).cores = s.cores := rfl
@[simp] theorem modOwner_mem (s : State) (o : Nat) (f : Owner → Owner) : (modOwner s o f).mem = s.mem := rfl
@[simp] theorem modOwner_grist (s : State) (o : Nat) (f : Owner → Owner) : (modOwner s o f).grist = s.grist := rfl
@[simp] theorem modOwner_health (s : State) (o : Nat) (f : Owner → Owner) : (modOwner s o f).health = s.health := rfl
@[simp] theorem modOwner_xlat (s : State) (o : Nat) (f : Owner → Owner) : (modOwner s o f).xlat = s.xlat := rfl
@[simp] theorem modOwner_port (s : State) (o : Nat) (f : Owner → Owner) : (modOwner s o f).port = s.port := rfl
@[simp] theorem modOwner_errors (s : State) (o : Nat) (f : Owner → Owner) : (modOwner s o f).errors = s.errors := rfl
@[simp] theorem modOwner_kiln (s : State) (o : Nat) (f : Owner → Owner) : (modOwner s o f).kiln = s.kiln := rfl
@[simp] theorem modOwner_reeve (s : State) (o : Nat) (f : Owner → Owner) : (modOwner s o f).reeve = s.reeve := rfl
@[simp] theorem modOwner_power (s : State) (o : Nat) (f : Owner → Owner) : (modOwner s o f).power = s.power := rfl

/-! ### modLink -/

@[simp] theorem modLink_pending (s : State) (k : Nat) (f : Link → Link) : (modLink s k f).pending = s.pending := rfl
@[simp] theorem modLink_free (s : State) (k : Nat) (f : Link → Link) : (modLink s k f).free = s.free := rfl
@[simp] theorem modLink_out (s : State) (k : Nat) (f : Link → Link) : (modLink s k f).out = s.out := rfl
@[simp] theorem modLink_dt (s : State) (k : Nat) (f : Link → Link) : (modLink s k f).dt = s.dt := rfl
@[simp] theorem modLink_phiro (s : State) (k : Nat) (f : Link → Link) : (modLink s k f).phiro = s.phiro := rfl
@[simp] theorem modLink_cds (s : State) (k : Nat) (f : Link → Link) : (modLink s k f).cds = s.cds := rfl
@[simp] theorem modLink_polders (s : State) (k : Nat) (f : Link → Link) : (modLink s k f).polders = s.polders := rfl
@[simp] theorem modLink_cores (s : State) (k : Nat) (f : Link → Link) : (modLink s k f).cores = s.cores := rfl
@[simp] theorem modLink_mem (s : State) (k : Nat) (f : Link → Link) : (modLink s k f).mem = s.mem := rfl
@[simp] theorem modLink_grist (s : State) (k : Nat) (f : Link → Link) : (modLink s k f).grist = s.grist := rfl
@[simp] theorem modLink_health (s : State) (k : Nat) (f : Link → Link) : (modLink s k f).health = s.health := rfl
@[simp] theorem modLink_xlat (s : State) (k : Nat) (f : Link → Link) : (modLink s k f).xlat = s.xlat := rfl
@[simp] theorem modLink_port (s : State) (k : Nat) (f : Link → Link) : (modLink s k f).port = s.port := rfl
@[simp] theorem modLink_errors (s : State) (k : Nat) (f : Link → Link) : (modLink s k f).errors = s.errors := rfl
@[simp] theorem modLink_kiln (s : State) (k : Nat) (f : Link → Link) : (modLink s k f).kiln = s.kiln := rfl
@[simp] theorem modLink_reeve (s : State) (k : Nat) (f : Link → Link) : (modLink s k f).reeve = s.reeve := rfl
@[simp] theorem modLink_power (s : State) (k : Nat) (f : Link → Link) : (modLink s k f).power = s.power := rfl

/-! ### modScope -/

@[simp] theorem modScope_pending (s : State) (k : Nat) (f : Scope → Scope) : (modScope s k f).pending = s.pending := rfl
@[simp] theorem modScope_free (s : State) (k : Nat) (f : Scope → Scope) : (modScope s k f).free = s.free := rfl
@[simp] theorem modScope_out (s : State) (k : Nat) (f : Scope → Scope) : (modScope s k f).out = s.out := rfl
@[simp] theorem modScope_dt (s : State) (k : Nat) (f : Scope → Scope) : (modScope s k f).dt = s.dt := rfl
@[simp] theorem modScope_phiro (s : State) (k : Nat) (f : Scope → Scope) : (modScope s k f).phiro = s.phiro := rfl
@[simp] theorem modScope_cds (s : State) (k : Nat) (f : Scope → Scope) : (modScope s k f).cds = s.cds := rfl
@[simp] theorem modScope_polders (s : State) (k : Nat) (f : Scope → Scope) : (modScope s k f).polders = s.polders := rfl
@[simp] theorem modScope_cores (s : State) (k : Nat) (f : Scope → Scope) : (modScope s k f).cores = s.cores := rfl
@[simp] theorem modScope_mem (s : State) (k : Nat) (f : Scope → Scope) : (modScope s k f).mem = s.mem := rfl
@[simp] theorem modScope_grist (s : State) (k : Nat) (f : Scope → Scope) : (modScope s k f).grist = s.grist := rfl
@[simp] theorem modScope_health (s : State) (k : Nat) (f : Scope → Scope) : (modScope s k f).health = s.health := rfl
@[simp] theorem modScope_xlat (s : State) (k : Nat) (f : Scope → Scope) : (modScope s k f).xlat = s.xlat := rfl
@[simp] theorem modScope_fabric (s : State) (k : Nat) (f : Scope → Scope) : (modScope s k f).fabric = s.fabric := rfl
@[simp] theorem modScope_port (s : State) (k : Nat) (f : Scope → Scope) : (modScope s k f).port = s.port := rfl
@[simp] theorem modScope_kiln (s : State) (k : Nat) (f : Scope → Scope) : (modScope s k f).kiln = s.kiln := rfl
@[simp] theorem modScope_reeve (s : State) (k : Nat) (f : Scope → Scope) : (modScope s k f).reeve = s.reeve := rfl
@[simp] theorem modScope_power (s : State) (k : Nat) (f : Scope → Scope) : (modScope s k f).power = s.power := rfl

/-! ### modSpare -/

@[simp] theorem modSpare_pending (s : State) (n : Nat) (f : SpareMap → SpareMap) : (modSpare s n f).pending = s.pending := rfl
@[simp] theorem modSpare_free (s : State) (n : Nat) (f : SpareMap → SpareMap) : (modSpare s n f).free = s.free := rfl
@[simp] theorem modSpare_out (s : State) (n : Nat) (f : SpareMap → SpareMap) : (modSpare s n f).out = s.out := rfl
@[simp] theorem modSpare_dt (s : State) (n : Nat) (f : SpareMap → SpareMap) : (modSpare s n f).dt = s.dt := rfl
@[simp] theorem modSpare_phiro (s : State) (n : Nat) (f : SpareMap → SpareMap) : (modSpare s n f).phiro = s.phiro := rfl
@[simp] theorem modSpare_cds (s : State) (n : Nat) (f : SpareMap → SpareMap) : (modSpare s n f).cds = s.cds := rfl
@[simp] theorem modSpare_polders (s : State) (n : Nat) (f : SpareMap → SpareMap) : (modSpare s n f).polders = s.polders := rfl
@[simp] theorem modSpare_cores (s : State) (n : Nat) (f : SpareMap → SpareMap) : (modSpare s n f).cores = s.cores := rfl
@[simp] theorem modSpare_mem (s : State) (n : Nat) (f : SpareMap → SpareMap) : (modSpare s n f).mem = s.mem := rfl
@[simp] theorem modSpare_grist (s : State) (n : Nat) (f : SpareMap → SpareMap) : (modSpare s n f).grist = s.grist := rfl
@[simp] theorem modSpare_health (s : State) (n : Nat) (f : SpareMap → SpareMap) : (modSpare s n f).health = s.health := rfl
@[simp] theorem modSpare_xlat (s : State) (n : Nat) (f : SpareMap → SpareMap) : (modSpare s n f).xlat = s.xlat := rfl
@[simp] theorem modSpare_fabric (s : State) (n : Nat) (f : SpareMap → SpareMap) : (modSpare s n f).fabric = s.fabric := rfl
@[simp] theorem modSpare_port (s : State) (n : Nat) (f : SpareMap → SpareMap) : (modSpare s n f).port = s.port := rfl
@[simp] theorem modSpare_errors (s : State) (n : Nat) (f : SpareMap → SpareMap) : (modSpare s n f).errors = s.errors := rfl
@[simp] theorem modSpare_kiln (s : State) (n : Nat) (f : SpareMap → SpareMap) : (modSpare s n f).kiln = s.kiln := rfl
@[simp] theorem modSpare_power (s : State) (n : Nat) (f : SpareMap → SpareMap) : (modSpare s n f).power = s.power := rfl

/-! ### modPort -/

@[simp] theorem modPort_pending (s : State) (f : Port → Port) : (modPort s f).pending = s.pending := rfl
@[simp] theorem modPort_free (s : State) (f : Port → Port) : (modPort s f).free = s.free := rfl
@[simp] theorem modPort_out (s : State) (f : Port → Port) : (modPort s f).out = s.out := rfl
@[simp] theorem modPort_dt (s : State) (f : Port → Port) : (modPort s f).dt = s.dt := rfl
@[simp] theorem modPort_phiro (s : State) (f : Port → Port) : (modPort s f).phiro = s.phiro := rfl
@[simp] theorem modPort_cds (s : State) (f : Port → Port) : (modPort s f).cds = s.cds := rfl
@[simp] theorem modPort_polders (s : State) (f : Port → Port) : (modPort s f).polders = s.polders := rfl
@[simp] theorem modPort_cores (s : State) (f : Port → Port) : (modPort s f).cores = s.cores := rfl
@[simp] theorem modPort_mem (s : State) (f : Port → Port) : (modPort s f).mem = s.mem := rfl
@[simp] theorem modPort_grist (s : State) (f : Port → Port) : (modPort s f).grist = s.grist := rfl
@[simp] theorem modPort_health (s : State) (f : Port → Port) : (modPort s f).health = s.health := rfl
@[simp] theorem modPort_xlat (s : State) (f : Port → Port) : (modPort s f).xlat = s.xlat := rfl
@[simp] theorem modPort_fabric (s : State) (f : Port → Port) : (modPort s f).fabric = s.fabric := rfl
@[simp] theorem modPort_errors (s : State) (f : Port → Port) : (modPort s f).errors = s.errors := rfl
@[simp] theorem modPort_kiln (s : State) (f : Port → Port) : (modPort s f).kiln = s.kiln := rfl
@[simp] theorem modPort_reeve (s : State) (f : Port → Port) : (modPort s f).reeve = s.reeve := rfl
@[simp] theorem modPort_power (s : State) (f : Port → Port) : (modPort s f).power = s.power := rfl

/-! ### modPower -/

@[simp] theorem modPower_pending (s : State) (f : Power → Power) : (modPower s f).pending = s.pending := rfl
@[simp] theorem modPower_free (s : State) (f : Power → Power) : (modPower s f).free = s.free := rfl
@[simp] theorem modPower_out (s : State) (f : Power → Power) : (modPower s f).out = s.out := rfl
@[simp] theorem modPower_dt (s : State) (f : Power → Power) : (modPower s f).dt = s.dt := rfl
@[simp] theorem modPower_phiro (s : State) (f : Power → Power) : (modPower s f).phiro = s.phiro := rfl
@[simp] theorem modPower_cds (s : State) (f : Power → Power) : (modPower s f).cds = s.cds := rfl
@[simp] theorem modPower_polders (s : State) (f : Power → Power) : (modPower s f).polders = s.polders := rfl
@[simp] theorem modPower_cores (s : State) (f : Power → Power) : (modPower s f).cores = s.cores := rfl
@[simp] theorem modPower_mem (s : State) (f : Power → Power) : (modPower s f).mem = s.mem := rfl
@[simp] theorem modPower_grist (s : State) (f : Power → Power) : (modPower s f).grist = s.grist := rfl
@[simp] theorem modPower_health (s : State) (f : Power → Power) : (modPower s f).health = s.health := rfl
@[simp] theorem modPower_xlat (s : State) (f : Power → Power) : (modPower s f).xlat = s.xlat := rfl
@[simp] theorem modPower_fabric (s : State) (f : Power → Power) : (modPower s f).fabric = s.fabric := rfl
@[simp] theorem modPower_port (s : State) (f : Power → Power) : (modPower s f).port = s.port := rfl
@[simp] theorem modPower_errors (s : State) (f : Power → Power) : (modPower s f).errors = s.errors := rfl
@[simp] theorem modPower_kiln (s : State) (f : Power → Power) : (modPower s f).kiln = s.kiln := rfl
@[simp] theorem modPower_reeve (s : State) (f : Power → Power) : (modPower s f).reeve = s.reeve := rfl

/-! ### modReeve -/

@[simp] theorem modReeve_pending (s : State) (f : Reeve → Reeve) : (modReeve s f).pending = s.pending := rfl
@[simp] theorem modReeve_free (s : State) (f : Reeve → Reeve) : (modReeve s f).free = s.free := rfl
@[simp] theorem modReeve_out (s : State) (f : Reeve → Reeve) : (modReeve s f).out = s.out := rfl
@[simp] theorem modReeve_dt (s : State) (f : Reeve → Reeve) : (modReeve s f).dt = s.dt := rfl
@[simp] theorem modReeve_phiro (s : State) (f : Reeve → Reeve) : (modReeve s f).phiro = s.phiro := rfl
@[simp] theorem modReeve_cds (s : State) (f : Reeve → Reeve) : (modReeve s f).cds = s.cds := rfl
@[simp] theorem modReeve_polders (s : State) (f : Reeve → Reeve) : (modReeve s f).polders = s.polders := rfl
@[simp] theorem modReeve_cores (s : State) (f : Reeve → Reeve) : (modReeve s f).cores = s.cores := rfl
@[simp] theorem modReeve_mem (s : State) (f : Reeve → Reeve) : (modReeve s f).mem = s.mem := rfl
@[simp] theorem modReeve_grist (s : State) (f : Reeve → Reeve) : (modReeve s f).grist = s.grist := rfl
@[simp] theorem modReeve_health (s : State) (f : Reeve → Reeve) : (modReeve s f).health = s.health := rfl
@[simp] theorem modReeve_xlat (s : State) (f : Reeve → Reeve) : (modReeve s f).xlat = s.xlat := rfl
@[simp] theorem modReeve_fabric (s : State) (f : Reeve → Reeve) : (modReeve s f).fabric = s.fabric := rfl
@[simp] theorem modReeve_port (s : State) (f : Reeve → Reeve) : (modReeve s f).port = s.port := rfl
@[simp] theorem modReeve_errors (s : State) (f : Reeve → Reeve) : (modReeve s f).errors = s.errors := rfl
@[simp] theorem modReeve_kiln (s : State) (f : Reeve → Reeve) : (modReeve s f).kiln = s.kiln := rfl
@[simp] theorem modReeve_power (s : State) (f : Reeve → Reeve) : (modReeve s f).power = s.power := rfl

/-! ### advanceTo -/

@[simp] theorem advanceTo_pending (s : State) (t : Nat) : (advanceTo s t).pending = s.pending := rfl
@[simp] theorem advanceTo_free (s : State) (t : Nat) : (advanceTo s t).free = s.free := rfl
@[simp] theorem advanceTo_out (s : State) (t : Nat) : (advanceTo s t).out = s.out := rfl
@[simp] theorem advanceTo_phiro (s : State) (t : Nat) : (advanceTo s t).phiro = s.phiro := rfl
@[simp] theorem advanceTo_cds (s : State) (t : Nat) : (advanceTo s t).cds = s.cds := rfl
@[simp] theorem advanceTo_polders (s : State) (t : Nat) : (advanceTo s t).polders = s.polders := rfl
@[simp] theorem advanceTo_cores (s : State) (t : Nat) : (advanceTo s t).cores = s.cores := rfl
@[simp] theorem advanceTo_mem (s : State) (t : Nat) : (advanceTo s t).mem = s.mem := rfl
@[simp] theorem advanceTo_grist (s : State) (t : Nat) : (advanceTo s t).grist = s.grist := rfl
@[simp] theorem advanceTo_health (s : State) (t : Nat) : (advanceTo s t).health = s.health := rfl
@[simp] theorem advanceTo_xlat (s : State) (t : Nat) : (advanceTo s t).xlat = s.xlat := rfl
@[simp] theorem advanceTo_fabric (s : State) (t : Nat) : (advanceTo s t).fabric = s.fabric := rfl
@[simp] theorem advanceTo_port (s : State) (t : Nat) : (advanceTo s t).port = s.port := rfl
@[simp] theorem advanceTo_errors (s : State) (t : Nat) : (advanceTo s t).errors = s.errors := rfl
@[simp] theorem advanceTo_kiln (s : State) (t : Nat) : (advanceTo s t).kiln = s.kiln := rfl
@[simp] theorem advanceTo_reeve (s : State) (t : Nat) : (advanceTo s t).reeve = s.reeve := rfl
@[simp] theorem advanceTo_power (s : State) (t : Nat) : (advanceTo s t).power = s.power := rfl

/-! ### send -/

@[simp] theorem send_pending (s : State) (o : Out) : (send s o).pending = s.pending := rfl
@[simp] theorem send_free (s : State) (o : Out) : (send s o).free = s.free := rfl
@[simp] theorem send_dt (s : State) (o : Out) : (send s o).dt = s.dt := rfl
@[simp] theorem send_phiro (s : State) (o : Out) : (send s o).phiro = s.phiro := rfl
@[simp] theorem send_cds (s : State) (o : Out) : (send s o).cds = s.cds := rfl
@[simp] theorem send_polders (s : State) (o : Out) : (send s o).polders = s.polders := rfl
@[simp] theorem send_cores (s : State) (o : Out) : (send s o).cores = s.cores := rfl
@[simp] theorem send_mem (s : State) (o : Out) : (send s o).mem = s.mem := rfl
@[simp] theorem send_grist (s : State) (o : Out) : (send s o).grist = s.grist := rfl
@[simp] theorem send_health (s : State) (o : Out) : (send s o).health = s.health := rfl
@[simp] theorem send_xlat (s : State) (o : Out) : (send s o).xlat = s.xlat := rfl
@[simp] theorem send_fabric (s : State) (o : Out) : (send s o).fabric = s.fabric := rfl
@[simp] theorem send_port (s : State) (o : Out) : (send s o).port = s.port := rfl
@[simp] theorem send_errors (s : State) (o : Out) : (send s o).errors = s.errors := rfl
@[simp] theorem send_kiln (s : State) (o : Out) : (send s o).kiln = s.kiln := rfl
@[simp] theorem send_reeve (s : State) (o : Out) : (send s o).reeve = s.reeve := rfl
@[simp] theorem send_power (s : State) (o : Out) : (send s o).power = s.power := rfl

/-! ### putReg -/

@[simp] theorem putReg_pending (s : State) (p : Nat) (r : Reg) (v : Word) : (putReg s p r v).pending = s.pending := rfl
@[simp] theorem putReg_free (s : State) (p : Nat) (r : Reg) (v : Word) : (putReg s p r v).free = s.free := rfl
@[simp] theorem putReg_out (s : State) (p : Nat) (r : Reg) (v : Word) : (putReg s p r v).out = s.out := rfl
@[simp] theorem putReg_dt (s : State) (p : Nat) (r : Reg) (v : Word) : (putReg s p r v).dt = s.dt := rfl
@[simp] theorem putReg_phiro (s : State) (p : Nat) (r : Reg) (v : Word) : (putReg s p r v).phiro = s.phiro := rfl
@[simp] theorem putReg_cds (s : State) (p : Nat) (r : Reg) (v : Word) : (putReg s p r v).cds = s.cds := rfl
@[simp] theorem putReg_polders (s : State) (p : Nat) (r : Reg) (v : Word) : (putReg s p r v).polders = s.polders := rfl
@[simp] theorem putReg_mem (s : State) (p : Nat) (r : Reg) (v : Word) : (putReg s p r v).mem = s.mem := rfl
@[simp] theorem putReg_grist (s : State) (p : Nat) (r : Reg) (v : Word) : (putReg s p r v).grist = s.grist := rfl
@[simp] theorem putReg_health (s : State) (p : Nat) (r : Reg) (v : Word) : (putReg s p r v).health = s.health := rfl
@[simp] theorem putReg_xlat (s : State) (p : Nat) (r : Reg) (v : Word) : (putReg s p r v).xlat = s.xlat := rfl
@[simp] theorem putReg_fabric (s : State) (p : Nat) (r : Reg) (v : Word) : (putReg s p r v).fabric = s.fabric := rfl
@[simp] theorem putReg_port (s : State) (p : Nat) (r : Reg) (v : Word) : (putReg s p r v).port = s.port := rfl
@[simp] theorem putReg_errors (s : State) (p : Nat) (r : Reg) (v : Word) : (putReg s p r v).errors = s.errors := rfl
@[simp] theorem putReg_kiln (s : State) (p : Nat) (r : Reg) (v : Word) : (putReg s p r v).kiln = s.kiln := rfl
@[simp] theorem putReg_reeve (s : State) (p : Nat) (r : Reg) (v : Word) : (putReg s p r v).reeve = s.reeve := rfl
@[simp] theorem putReg_power (s : State) (p : Nat) (r : Reg) (v : Word) : (putReg s p r v).power = s.power := rfl

/-! ### raiseFlags -/

@[simp] theorem raiseFlags_pending (s : State) (p fl : Nat) : (raiseFlags s p fl).pending = s.pending := rfl
@[simp] theorem raiseFlags_free (s : State) (p fl : Nat) : (raiseFlags s p fl).free = s.free := rfl
@[simp] theorem raiseFlags_out (s : State) (p fl : Nat) : (raiseFlags s p fl).out = s.out := rfl
@[simp] theorem raiseFlags_dt (s : State) (p fl : Nat) : (raiseFlags s p fl).dt = s.dt := rfl
@[simp] theorem raiseFlags_phiro (s : State) (p fl : Nat) : (raiseFlags s p fl).phiro = s.phiro := rfl
@[simp] theorem raiseFlags_cds (s : State) (p fl : Nat) : (raiseFlags s p fl).cds = s.cds := rfl
@[simp] theorem raiseFlags_polders (s : State) (p fl : Nat) : (raiseFlags s p fl).polders = s.polders := rfl
@[simp] theorem raiseFlags_mem (s : State) (p fl : Nat) : (raiseFlags s p fl).mem = s.mem := rfl
@[simp] theorem raiseFlags_grist (s : State) (p fl : Nat) : (raiseFlags s p fl).grist = s.grist := rfl
@[simp] theorem raiseFlags_health (s : State) (p fl : Nat) : (raiseFlags s p fl).health = s.health := rfl
@[simp] theorem raiseFlags_xlat (s : State) (p fl : Nat) : (raiseFlags s p fl).xlat = s.xlat := rfl
@[simp] theorem raiseFlags_fabric (s : State) (p fl : Nat) : (raiseFlags s p fl).fabric = s.fabric := rfl
@[simp] theorem raiseFlags_port (s : State) (p fl : Nat) : (raiseFlags s p fl).port = s.port := rfl
@[simp] theorem raiseFlags_errors (s : State) (p fl : Nat) : (raiseFlags s p fl).errors = s.errors := rfl
@[simp] theorem raiseFlags_kiln (s : State) (p fl : Nat) : (raiseFlags s p fl).kiln = s.kiln := rfl
@[simp] theorem raiseFlags_reeve (s : State) (p fl : Nat) : (raiseFlags s p fl).reeve = s.reeve := rfl
@[simp] theorem raiseFlags_power (s : State) (p fl : Nat) : (raiseFlags s p fl).power = s.power := rfl

/-! ### retire -/

@[simp] theorem retire_pending (s : State) (p : Nat) : (retire s p).pending = s.pending := rfl
@[simp] theorem retire_free (s : State) (p : Nat) : (retire s p).free = s.free := rfl
@[simp] theorem retire_out (s : State) (p : Nat) : (retire s p).out = s.out := rfl
@[simp] theorem retire_dt (s : State) (p : Nat) : (retire s p).dt = s.dt := rfl
@[simp] theorem retire_phiro (s : State) (p : Nat) : (retire s p).phiro = s.phiro := rfl
@[simp] theorem retire_cds (s : State) (p : Nat) : (retire s p).cds = s.cds := rfl
@[simp] theorem retire_polders (s : State) (p : Nat) : (retire s p).polders = s.polders := rfl
@[simp] theorem retire_mem (s : State) (p : Nat) : (retire s p).mem = s.mem := rfl
@[simp] theorem retire_grist (s : State) (p : Nat) : (retire s p).grist = s.grist := rfl
@[simp] theorem retire_health (s : State) (p : Nat) : (retire s p).health = s.health := rfl
@[simp] theorem retire_xlat (s : State) (p : Nat) : (retire s p).xlat = s.xlat := rfl
@[simp] theorem retire_port (s : State) (p : Nat) : (retire s p).port = s.port := rfl
@[simp] theorem retire_errors (s : State) (p : Nat) : (retire s p).errors = s.errors := rfl
@[simp] theorem retire_kiln (s : State) (p : Nat) : (retire s p).kiln = s.kiln := rfl
@[simp] theorem retire_reeve (s : State) (p : Nat) : (retire s p).reeve = s.reeve := rfl
@[simp] theorem retire_power (s : State) (p : Nat) : (retire s p).power = s.power := rfl

/-! ### retireTo -/

@[simp] theorem retireTo_pending (s : State) (p target : Nat) : (retireTo s p target).pending = s.pending := rfl
@[simp] theorem retireTo_free (s : State) (p target : Nat) : (retireTo s p target).free = s.free := rfl
@[simp] theorem retireTo_out (s : State) (p target : Nat) : (retireTo s p target).out = s.out := rfl
@[simp] theorem retireTo_dt (s : State) (p target : Nat) : (retireTo s p target).dt = s.dt := rfl
@[simp] theorem retireTo_phiro (s : State) (p target : Nat) : (retireTo s p target).phiro = s.phiro := rfl
@[simp] theorem retireTo_cds (s : State) (p target : Nat) : (retireTo s p target).cds = s.cds := rfl
@[simp] theorem retireTo_polders (s : State) (p target : Nat) : (retireTo s p target).polders = s.polders := rfl
@[simp] theorem retireTo_mem (s : State) (p target : Nat) : (retireTo s p target).mem = s.mem := rfl
@[simp] theorem retireTo_grist (s : State) (p target : Nat) : (retireTo s p target).grist = s.grist := rfl
@[simp] theorem retireTo_health (s : State) (p target : Nat) : (retireTo s p target).health = s.health := rfl
@[simp] theorem retireTo_xlat (s : State) (p target : Nat) : (retireTo s p target).xlat = s.xlat := rfl
@[simp] theorem retireTo_port (s : State) (p target : Nat) : (retireTo s p target).port = s.port := rfl
@[simp] theorem retireTo_errors (s : State) (p target : Nat) : (retireTo s p target).errors = s.errors := rfl
@[simp] theorem retireTo_kiln (s : State) (p target : Nat) : (retireTo s p target).kiln = s.kiln := rfl
@[simp] theorem retireTo_reeve (s : State) (p target : Nat) : (retireTo s p target).reeve = s.reeve := rfl
@[simp] theorem retireTo_power (s : State) (p target : Nat) : (retireTo s p target).power = s.power := rfl

/-! ### dropWaiter -/

@[simp] theorem dropWaiter_pending (s : State) (o : Nat) (q : Requester → Bool) : (dropWaiter s o q).pending = s.pending := rfl
@[simp] theorem dropWaiter_free (s : State) (o : Nat) (q : Requester → Bool) : (dropWaiter s o q).free = s.free := rfl
@[simp] theorem dropWaiter_out (s : State) (o : Nat) (q : Requester → Bool) : (dropWaiter s o q).out = s.out := rfl
@[simp] theorem dropWaiter_dt (s : State) (o : Nat) (q : Requester → Bool) : (dropWaiter s o q).dt = s.dt := rfl
@[simp] theorem dropWaiter_phiro (s : State) (o : Nat) (q : Requester → Bool) : (dropWaiter s o q).phiro = s.phiro := rfl
@[simp] theorem dropWaiter_cds (s : State) (o : Nat) (q : Requester → Bool) : (dropWaiter s o q).cds = s.cds := rfl
@[simp] theorem dropWaiter_polders (s : State) (o : Nat) (q : Requester → Bool) : (dropWaiter s o q).polders = s.polders := rfl
@[simp] theorem dropWaiter_cores (s : State) (o : Nat) (q : Requester → Bool) : (dropWaiter s o q).cores = s.cores := rfl
@[simp] theorem dropWaiter_mem (s : State) (o : Nat) (q : Requester → Bool) : (dropWaiter s o q).mem = s.mem := rfl
@[simp] theorem dropWaiter_grist (s : State) (o : Nat) (q : Requester → Bool) : (dropWaiter s o q).grist = s.grist := rfl
@[simp] theorem dropWaiter_health (s : State) (o : Nat) (q : Requester → Bool) : (dropWaiter s o q).health = s.health := rfl
@[simp] theorem dropWaiter_xlat (s : State) (o : Nat) (q : Requester → Bool) : (dropWaiter s o q).xlat = s.xlat := rfl
@[simp] theorem dropWaiter_port (s : State) (o : Nat) (q : Requester → Bool) : (dropWaiter s o q).port = s.port := rfl
@[simp] theorem dropWaiter_errors (s : State) (o : Nat) (q : Requester → Bool) : (dropWaiter s o q).errors = s.errors := rfl
@[simp] theorem dropWaiter_kiln (s : State) (o : Nat) (q : Requester → Bool) : (dropWaiter s o q).kiln = s.kiln := rfl
@[simp] theorem dropWaiter_reeve (s : State) (o : Nat) (q : Requester → Bool) : (dropWaiter s o q).reeve = s.reeve := rfl
@[simp] theorem dropWaiter_power (s : State) (o : Nat) (q : Requester → Bool) : (dropWaiter s o q).power = s.power := rfl

/-! ### dropWaiterAll -/

@[simp] theorem dropWaiterAll_pending (s : State) (q : Requester → Bool) : (dropWaiterAll s q).pending = s.pending := rfl
@[simp] theorem dropWaiterAll_free (s : State) (q : Requester → Bool) : (dropWaiterAll s q).free = s.free := rfl
@[simp] theorem dropWaiterAll_out (s : State) (q : Requester → Bool) : (dropWaiterAll s q).out = s.out := rfl
@[simp] theorem dropWaiterAll_dt (s : State) (q : Requester → Bool) : (dropWaiterAll s q).dt = s.dt := rfl
@[simp] theorem dropWaiterAll_phiro (s : State) (q : Requester → Bool) : (dropWaiterAll s q).phiro = s.phiro := rfl
@[simp] theorem dropWaiterAll_cds (s : State) (q : Requester → Bool) : (dropWaiterAll s q).cds = s.cds := rfl
@[simp] theorem dropWaiterAll_polders (s : State) (q : Requester → Bool) : (dropWaiterAll s q).polders = s.polders := rfl
@[simp] theorem dropWaiterAll_cores (s : State) (q : Requester → Bool) : (dropWaiterAll s q).cores = s.cores := rfl
@[simp] theorem dropWaiterAll_mem (s : State) (q : Requester → Bool) : (dropWaiterAll s q).mem = s.mem := rfl
@[simp] theorem dropWaiterAll_grist (s : State) (q : Requester → Bool) : (dropWaiterAll s q).grist = s.grist := rfl
@[simp] theorem dropWaiterAll_health (s : State) (q : Requester → Bool) : (dropWaiterAll s q).health = s.health := rfl
@[simp] theorem dropWaiterAll_xlat (s : State) (q : Requester → Bool) : (dropWaiterAll s q).xlat = s.xlat := rfl
@[simp] theorem dropWaiterAll_port (s : State) (q : Requester → Bool) : (dropWaiterAll s q).port = s.port := rfl
@[simp] theorem dropWaiterAll_errors (s : State) (q : Requester → Bool) : (dropWaiterAll s q).errors = s.errors := rfl
@[simp] theorem dropWaiterAll_kiln (s : State) (q : Requester → Bool) : (dropWaiterAll s q).kiln = s.kiln := rfl
@[simp] theorem dropWaiterAll_reeve (s : State) (q : Requester → Bool) : (dropWaiterAll s q).reeve = s.reeve := rfl
@[simp] theorem dropWaiterAll_power (s : State) (q : Requester → Bool) : (dropWaiterAll s q).power = s.power := rfl

/-! ### leaveLine -/

@[simp] theorem leaveLine_pending (s : State) (p : Nat) : (leaveLine s p).pending = s.pending := rfl
@[simp] theorem leaveLine_free (s : State) (p : Nat) : (leaveLine s p).free = s.free := rfl
@[simp] theorem leaveLine_out (s : State) (p : Nat) : (leaveLine s p).out = s.out := rfl
@[simp] theorem leaveLine_dt (s : State) (p : Nat) : (leaveLine s p).dt = s.dt := rfl
@[simp] theorem leaveLine_phiro (s : State) (p : Nat) : (leaveLine s p).phiro = s.phiro := rfl
@[simp] theorem leaveLine_cds (s : State) (p : Nat) : (leaveLine s p).cds = s.cds := rfl
@[simp] theorem leaveLine_polders (s : State) (p : Nat) : (leaveLine s p).polders = s.polders := rfl
@[simp] theorem leaveLine_cores (s : State) (p : Nat) : (leaveLine s p).cores = s.cores := rfl
@[simp] theorem leaveLine_mem (s : State) (p : Nat) : (leaveLine s p).mem = s.mem := rfl
@[simp] theorem leaveLine_grist (s : State) (p : Nat) : (leaveLine s p).grist = s.grist := rfl
@[simp] theorem leaveLine_health (s : State) (p : Nat) : (leaveLine s p).health = s.health := rfl
@[simp] theorem leaveLine_xlat (s : State) (p : Nat) : (leaveLine s p).xlat = s.xlat := rfl
@[simp] theorem leaveLine_port (s : State) (p : Nat) : (leaveLine s p).port = s.port := rfl
@[simp] theorem leaveLine_errors (s : State) (p : Nat) : (leaveLine s p).errors = s.errors := rfl
@[simp] theorem leaveLine_kiln (s : State) (p : Nat) : (leaveLine s p).kiln = s.kiln := rfl
@[simp] theorem leaveLine_reeve (s : State) (p : Nat) : (leaveLine s p).reeve = s.reeve := rfl
@[simp] theorem leaveLine_power (s : State) (p : Nat) : (leaveLine s p).power = s.power := rfl

/-! ### addWaiter -/

@[simp] theorem addWaiter_pending (s : State) (o : Nat) (w : Waiter) : (addWaiter s o w).pending = s.pending := rfl
@[simp] theorem addWaiter_free (s : State) (o : Nat) (w : Waiter) : (addWaiter s o w).free = s.free := rfl
@[simp] theorem addWaiter_out (s : State) (o : Nat) (w : Waiter) : (addWaiter s o w).out = s.out := rfl
@[simp] theorem addWaiter_dt (s : State) (o : Nat) (w : Waiter) : (addWaiter s o w).dt = s.dt := rfl
@[simp] theorem addWaiter_phiro (s : State) (o : Nat) (w : Waiter) : (addWaiter s o w).phiro = s.phiro := rfl
@[simp] theorem addWaiter_cds (s : State) (o : Nat) (w : Waiter) : (addWaiter s o w).cds = s.cds := rfl
@[simp] theorem addWaiter_polders (s : State) (o : Nat) (w : Waiter) : (addWaiter s o w).polders = s.polders := rfl
@[simp] theorem addWaiter_cores (s : State) (o : Nat) (w : Waiter) : (addWaiter s o w).cores = s.cores := rfl
@[simp] theorem addWaiter_mem (s : State) (o : Nat) (w : Waiter) : (addWaiter s o w).mem = s.mem := rfl
@[simp] theorem addWaiter_grist (s : State) (o : Nat) (w : Waiter) : (addWaiter s o w).grist = s.grist := rfl
@[simp] theorem addWaiter_health (s : State) (o : Nat) (w : Waiter) : (addWaiter s o w).health = s.health := rfl
@[simp] theorem addWaiter_xlat (s : State) (o : Nat) (w : Waiter) : (addWaiter s o w).xlat = s.xlat := rfl
@[simp] theorem addWaiter_port (s : State) (o : Nat) (w : Waiter) : (addWaiter s o w).port = s.port := rfl
@[simp] theorem addWaiter_errors (s : State) (o : Nat) (w : Waiter) : (addWaiter s o w).errors = s.errors := rfl
@[simp] theorem addWaiter_kiln (s : State) (o : Nat) (w : Waiter) : (addWaiter s o w).kiln = s.kiln := rfl
@[simp] theorem addWaiter_reeve (s : State) (o : Nat) (w : Waiter) : (addWaiter s o w).reeve = s.reeve := rfl
@[simp] theorem addWaiter_power (s : State) (o : Nat) (w : Waiter) : (addWaiter s o w).power = s.power := rfl

/-! ### releaseTag -/

@[simp] theorem releaseTag_pending (s : State) (o n : Nat) : (releaseTag s o n).pending = s.pending := rfl
@[simp] theorem releaseTag_free (s : State) (o n : Nat) : (releaseTag s o n).free = s.free := rfl
@[simp] theorem releaseTag_out (s : State) (o n : Nat) : (releaseTag s o n).out = s.out := rfl
@[simp] theorem releaseTag_dt (s : State) (o n : Nat) : (releaseTag s o n).dt = s.dt := rfl
@[simp] theorem releaseTag_phiro (s : State) (o n : Nat) : (releaseTag s o n).phiro = s.phiro := rfl
@[simp] theorem releaseTag_cds (s : State) (o n : Nat) : (releaseTag s o n).cds = s.cds := rfl
@[simp] theorem releaseTag_polders (s : State) (o n : Nat) : (releaseTag s o n).polders = s.polders := rfl
@[simp] theorem releaseTag_cores (s : State) (o n : Nat) : (releaseTag s o n).cores = s.cores := rfl
@[simp] theorem releaseTag_mem (s : State) (o n : Nat) : (releaseTag s o n).mem = s.mem := rfl
@[simp] theorem releaseTag_grist (s : State) (o n : Nat) : (releaseTag s o n).grist = s.grist := rfl
@[simp] theorem releaseTag_health (s : State) (o n : Nat) : (releaseTag s o n).health = s.health := rfl
@[simp] theorem releaseTag_xlat (s : State) (o n : Nat) : (releaseTag s o n).xlat = s.xlat := rfl
@[simp] theorem releaseTag_port (s : State) (o n : Nat) : (releaseTag s o n).port = s.port := rfl
@[simp] theorem releaseTag_errors (s : State) (o n : Nat) : (releaseTag s o n).errors = s.errors := rfl
@[simp] theorem releaseTag_kiln (s : State) (o n : Nat) : (releaseTag s o n).kiln = s.kiln := rfl
@[simp] theorem releaseTag_reeve (s : State) (o n : Nat) : (releaseTag s o n).reeve = s.reeve := rfl
@[simp] theorem releaseTag_power (s : State) (o n : Nat) : (releaseTag s o n).power = s.power := rfl

/-! ### holdWrite -/

@[simp] theorem holdWrite_pending (s : State) (h off : Nat) (d : List Byte) (l : LS) (r : Requester) : (holdWrite s h off d l r).pending = s.pending := rfl
@[simp] theorem holdWrite_free (s : State) (h off : Nat) (d : List Byte) (l : LS) (r : Requester) : (holdWrite s h off d l r).free = s.free := rfl
@[simp] theorem holdWrite_out (s : State) (h off : Nat) (d : List Byte) (l : LS) (r : Requester) : (holdWrite s h off d l r).out = s.out := rfl
@[simp] theorem holdWrite_dt (s : State) (h off : Nat) (d : List Byte) (l : LS) (r : Requester) : (holdWrite s h off d l r).dt = s.dt := rfl
@[simp] theorem holdWrite_phiro (s : State) (h off : Nat) (d : List Byte) (l : LS) (r : Requester) : (holdWrite s h off d l r).phiro = s.phiro := rfl
@[simp] theorem holdWrite_cds (s : State) (h off : Nat) (d : List Byte) (l : LS) (r : Requester) : (holdWrite s h off d l r).cds = s.cds := rfl
@[simp] theorem holdWrite_polders (s : State) (h off : Nat) (d : List Byte) (l : LS) (r : Requester) : (holdWrite s h off d l r).polders = s.polders := rfl
@[simp] theorem holdWrite_cores (s : State) (h off : Nat) (d : List Byte) (l : LS) (r : Requester) : (holdWrite s h off d l r).cores = s.cores := rfl
@[simp] theorem holdWrite_mem (s : State) (h off : Nat) (d : List Byte) (l : LS) (r : Requester) : (holdWrite s h off d l r).mem = s.mem := rfl
@[simp] theorem holdWrite_grist (s : State) (h off : Nat) (d : List Byte) (l : LS) (r : Requester) : (holdWrite s h off d l r).grist = s.grist := rfl
@[simp] theorem holdWrite_health (s : State) (h off : Nat) (d : List Byte) (l : LS) (r : Requester) : (holdWrite s h off d l r).health = s.health := rfl
@[simp] theorem holdWrite_xlat (s : State) (h off : Nat) (d : List Byte) (l : LS) (r : Requester) : (holdWrite s h off d l r).xlat = s.xlat := rfl
@[simp] theorem holdWrite_fabric (s : State) (h off : Nat) (d : List Byte) (l : LS) (r : Requester) : (holdWrite s h off d l r).fabric = s.fabric := rfl
@[simp] theorem holdWrite_errors (s : State) (h off : Nat) (d : List Byte) (l : LS) (r : Requester) : (holdWrite s h off d l r).errors = s.errors := rfl
@[simp] theorem holdWrite_kiln (s : State) (h off : Nat) (d : List Byte) (l : LS) (r : Requester) : (holdWrite s h off d l r).kiln = s.kiln := rfl
@[simp] theorem holdWrite_reeve (s : State) (h off : Nat) (d : List Byte) (l : LS) (r : Requester) : (holdWrite s h off d l r).reeve = s.reeve := rfl
@[simp] theorem holdWrite_power (s : State) (h off : Nat) (d : List Byte) (l : LS) (r : Requester) : (holdWrite s h off d l r).power = s.power := rfl

/-! ### kilnRelease -/

@[simp] theorem kilnRelease_pending (s : State) (q : KilnUnit → Bool) : (kilnRelease s q).pending = s.pending := rfl
@[simp] theorem kilnRelease_free (s : State) (q : KilnUnit → Bool) : (kilnRelease s q).free = s.free := rfl
@[simp] theorem kilnRelease_out (s : State) (q : KilnUnit → Bool) : (kilnRelease s q).out = s.out := rfl
@[simp] theorem kilnRelease_dt (s : State) (q : KilnUnit → Bool) : (kilnRelease s q).dt = s.dt := rfl
@[simp] theorem kilnRelease_phiro (s : State) (q : KilnUnit → Bool) : (kilnRelease s q).phiro = s.phiro := rfl
@[simp] theorem kilnRelease_cds (s : State) (q : KilnUnit → Bool) : (kilnRelease s q).cds = s.cds := rfl
@[simp] theorem kilnRelease_polders (s : State) (q : KilnUnit → Bool) : (kilnRelease s q).polders = s.polders := rfl
@[simp] theorem kilnRelease_cores (s : State) (q : KilnUnit → Bool) : (kilnRelease s q).cores = s.cores := rfl
@[simp] theorem kilnRelease_mem (s : State) (q : KilnUnit → Bool) : (kilnRelease s q).mem = s.mem := rfl
@[simp] theorem kilnRelease_grist (s : State) (q : KilnUnit → Bool) : (kilnRelease s q).grist = s.grist := rfl
@[simp] theorem kilnRelease_health (s : State) (q : KilnUnit → Bool) : (kilnRelease s q).health = s.health := rfl
@[simp] theorem kilnRelease_xlat (s : State) (q : KilnUnit → Bool) : (kilnRelease s q).xlat = s.xlat := rfl
@[simp] theorem kilnRelease_fabric (s : State) (q : KilnUnit → Bool) : (kilnRelease s q).fabric = s.fabric := rfl
@[simp] theorem kilnRelease_port (s : State) (q : KilnUnit → Bool) : (kilnRelease s q).port = s.port := rfl
@[simp] theorem kilnRelease_errors (s : State) (q : KilnUnit → Bool) : (kilnRelease s q).errors = s.errors := rfl
@[simp] theorem kilnRelease_reeve (s : State) (q : KilnUnit → Bool) : (kilnRelease s q).reeve = s.reeve := rfl
@[simp] theorem kilnRelease_power (s : State) (q : KilnUnit → Bool) : (kilnRelease s q).power = s.power := rfl

end Sys2Proof.Machine
end

