-- ==== Sys2Proof/Tests/Slice0.lean ====
section
/-! SUPPORT. Tests: ill-formed terms that the checks refuse, words of the core written out from Tables 9-2, 9-3 and 10-4, a witness for the
hypotheses of every statement, and single steps whose results are worked out by hand from the spec. -/

namespace Tests

open Sys2Proof Sys2Proof.Machine

set_option Elab.async false

/-! ### Well-formedness -/

def hd : CmdHdr := { ring := 0, pol := 0, cookie := 7 }
def peer1 : HostAddr := { mac := 1, ip := 2 }
def badPeer : HostAddr := { mac := 2 ^ 48, ip := 2 }
def farIp : HostAddr := { mac := 1, ip := 2 ^ 128 }
def rq (r : Requester) : MemReq := { src := 0, req := r, cls := 0, pa := 0, len := 8, va := 0, inst := 0, age := 0, held := false }
def upd1 : MemUpdate := { pa := 0, op := 0, fmt := 3, elems := [1], cmp := 0, tag := 0 }
def win1 : UpdWindow := { adder := 0, p := 0, i := 0, sub := 0, src := 0 }
def xr1 : XlatReq := { cd := 0, p := 0, space := 0, asid := 0, va := 0, access := 1, user := false, req := .reeve, cls := 2 }
def red1 : RedKey := { hub := 0, p := 0, i := 0, seg := 0, op := 0, fmt := 1 }
def flit1 : Flit := { seq := 4095, ack := 4095, rest := List.replicate 9 0, payload := List.replicate 256 0, crc := 0 }
def frame1 : Frame := { len := 64, tags := 0, fcsOk := true, from_ := peer1, kind := .other }
def creq1 : ConnReq := { index := 0, service := 0, from_ := peer1, pathMtu := 1024, dscp := 0, prio := 0, retry := 7, ackTimeout := 14 }
def boot1_ : BootResult := { linksDown := [], stacksOut := [], fmOk := true, mode := 1, ms := 100, straps := 0, cool := 1, inverted := 0 }
def key1 : WindowKey := { code := 0x10, die := 0, unit := 0, addr := 0 }
def vop1 : VOp := { s := false, vm := false, mreg := 0, vd := 1, va := 2, vb := 3 }

/-- Every operand of a command's header, of a path, of a requester and of the records of a request is held to its width. -/
theorem test_wf_operands : ∀ i ∈ ([
    .nop { hd with ring := 256 }, .nop { hd with pol := 256 }, .nop { hd with cookie := 2 ^ 32 },
    .registerWrite (.core 24) 0 0, .registerWrite .regw (2 ^ 48) 0, .logRead (.host { hd with ring := 256 }) 0 0 0 1,
    .memoryRead (rq (.descriptor 24 0)), .memoryRead (rq (.descriptor 0 65536)), .memoryRead (rq (.descUpdate 24 0)),
    .memoryRead (rq (.descUpdate 0 65536)), .memoryRead (rq (.core 24)), .memoryRead (rq (.coreAtomic 24)), .memoryRead (rq (.vector 24 0)),
    .memoryRead (rq (.ring 256)), .memoryRead (rq (.hostRead 65536)), .memoryRead (rq (.hostWrite 65536)), .memoryRead (rq (.walker 24)),
    .memoryRead { rq .reeve with src := 32 }, .memoryRead { rq .reeve with pa := 2 ^ 44 }, .memoryRead { rq .reeve with len := 0 },
    .memoryRead { rq .reeve with pa := 255, len := 2 }, .memoryRead { rq .reeve with va := 2 ^ 48 }, .memoryRead { rq .reeve with age := 2 ^ 64 },
    .unorderedUpdate .reeve ⟨upd1, 2 ^ 64, false⟩, .memoryWrite { rq .reeve with len := 257 } [],
    .unorderedUpdate .reeve ⟨{ upd1 with pa := 2 ^ 44 }, 0, true⟩, .unorderedUpdate .reeve ⟨{ upd1 with op := 8 }, 0, true⟩, .unorderedUpdate .reeve ⟨{ upd1 with fmt := 8 }, 0, true⟩,
    .unorderedUpdate .reeve ⟨{ upd1 with elems := [] }, 0, true⟩, .unorderedUpdate (.core 24) ⟨upd1, 0, true⟩,
    .orderedUpdate { win1 with adder := 29 } upd1, .orderedUpdate { win1 with p := 24 } upd1, .orderedUpdate { win1 with i := 65536 } upd1,
    .orderedUpdate { win1 with src := 24 } upd1, .endMarker win1 24,
    .localWalk { xr1 with cd := 32 }, .localWalk { xr1 with p := 24 }, .ctuWalk { xr1 with space := 3 }, .ctuWalk { xr1 with asid := 65536 },
    .ctuWalk { xr1 with va := 2 ^ 48 }, .ctuWalk { xr1 with access := 8 }, .ctuWalk { xr1 with req := .core 24 },
    .reductionResult { red1 with hub := 2 }, .reductionResult { red1 with p := 24 }, .reductionResult { red1 with i := 65536 },
    .reductionResult { red1 with op := 8 }, .reductionContribution { red1 with fmt := 8 } 0 [], .reductionContribution red1 24 []] : List Instr),
    i.wf = false := by decide

/-- The same of the port, the binding, the spares and the power commands. -/
theorem test_wf_port : ∀ i ∈ ([
    .icmpEcho badPeer [], .icmpEcho farIp [], .frameRx { frame1 with from_ := badPeer }, .frameRx { frame1 with kind := .roce 65536 true }, .frameRx { frame1 with kind := .roceOpcode 65536 true },
    .cmReq { creq1 with from_ := farIp }, .cmReq { creq1 with index := 65536 }, .cmReq { creq1 with dscp := 64 }, .cmReq { creq1 with prio := 8 },
    .arp (2 ^ 128) peer1, .neighbourDiscovery (2 ^ 128) peer1, .cmRtu 65536 peer1, .cmDreq 0 badPeer, .send 65536 [], .sendWithImmediate 65536 [] 0,
    .rdmaWrite 65536 0 0 [], .rdmaWrite 0 0 (2 ^ 64) [], .rdmaWriteWithImmediate 0 0 (2 ^ 64) [] 0, .rdmaRead 65536 0 0 0, .rdmaRead 0 0 (2 ^ 64) 0,
    .rdmaRead 0 0 0 (2 ^ 32), .hostAck (2 ^ 32), .cnp 65536, .rateIncrease 65536, .connectionRetryExhausted 65536, .pfcWeir 8 0,
    .getVersion (.port badPeer), .getCertificate .sideband 8 0 0, .getCertificate .sideband 0 (2 ^ 32) 0, .getCertificate .sideband 0 0 (2 ^ 32),
    .challenge .sideband [], .bindReq farIp, .bind badPeer none 0 0, .bind peer1 none (2 ^ 48) 0, .bind peer1 none 0 (2 ^ 128),
    .getMeasurements 256 (List.replicate 32 0), .getMeasurements 0 [], .mctpDiscovery 256, .pldmBase 256, .getSensorReading 65536,
    .sensorSample 65536 none, .kilnPreempt { type := 16, die := 0, index := 0 }, .kilnPreempt { type := 1, die := 32, index := 0 },
    .kilnPreempt { type := 1, die := 0, index := 4096 }, .kilnStep { type := 1, die := 0, index := 0 } (2 ^ 32) 0 0,
    .kilnStep { type := 1, die := 0, index := 0 } 0 (2 ^ 32) 0, .kilnStep { type := 1, die := 0, index := 0 } 0 0 (2 ^ 32), .scrub (2 ^ 44),
    .rowRepair 24 0, .rowRepair 0 (2 ^ 32), .rowCopyComplete 0 (2 ^ 32), .dieSwap 0 9, .waySwap 0 16, .spareSwap 24, .spareCopyDone 24,
    .coldReset 7, .warmReset 7, .boot { boot1_ with linksDown := [236] }, .boot { boot1_ with stacksOut := [24] }, .tapInstruction 6,
    .packageSelfRefresh 32, .coalesceWindowEnd { key1 with code := 65536 }, .coalesceWindowEnd { key1 with die := 32 },
    .coalesceWindowEnd { key1 with unit := 65536 }, .pendingErrorHandle 25] : List Instr),
    i.wf = false := by decide

set_option maxRecDepth 4000 in
/-- The same of the ring commands, the sequencer, the near caches, the fabric and the core. -/
theorem test_wf_commands : ∀ i ∈ ([
    .regw hd (2 ^ 40) 0, .bsLoad hd (2 ^ 44) 0, .bsLoad hd 0 (2 ^ 32), .bsReadback hd 256 0, .bsReadback hd 0 (2 ^ 32), .bsFieldWrite hd 65536 0,
    .bsFieldRead hd 65536 false, .admitCmd hd 16 0, .admitCmd hd 0 (2 ^ 48), .withdraw hd 16, .start hd 16 none, .start hd 0 (some (2 ^ 48)),
    .sluiceSet hd 4096, .sluiceClear hd 4096, .ttWrite hd 4096 0 0 0 0, .ttWindowWrite 0 4096 { gd := 0, ga := 0, gb := 0, dbl := true },
    .update hd (2 ^ 48) 0 0 0 0, .update hd 0 8 0 0 0, .update hd 0 0 8 0 0, .xltInv hd 4 false 0 0 0 0, .xltInv hd 0 false 65536 0 0 0,
    .xltInv hd 0 false 0 (2 ^ 32) 0 0, .xltInv hd 0 false 0 0 (2 ^ 48) 0, .xltResume hd (2 ^ 32), .xltResumeFail hd (2 ^ 32), .coreStart hd (2 ^ 48),
    .undefinedCommand hd 256 false, .setWrite hd 256 (List.replicate 48 0), .setWrite hd 1 [], .attest hd 0 0 [], .attest hd 256 0 (List.replicate 32 0),
    .idRead hd 256 0, .ownerEnrol hd (2 ^ 44), .ownerWithdraw hd (2 ^ 44), .nonce hd 256 0, .fwUpdate hd (2 ^ 44) 0, .fwUpdate hd 0 (2 ^ 32),
    .logRead .sideband 256 0 0 1, .logRead .sideband 0 (2 ^ 32) 0 1, .logRead .sideband 0 0 (2 ^ 64) 1, .logRead .sideband 0 0 0 65536,
    .sensorRead hd 256 0, .ringCommand 256, .cplConsWrite 256 0, .ringEnable 256 0, .ringDisable 256 0, .matrix 24 0, .matrix 0 65536,
    .descriptorComplete 0 65536, .seqStall 0 4, .positionWake 0 16, .positionWakeDone 24 0, .positionSleep 0 16 false,
    .accumulationGroupClose 0 16, .fmRetire (2 ^ 44), .stackTempSample 56 0, .ncFlush 24, .walkComplete 32, .flitRx 236 false flit1 [],
    .flitRx 0 false { flit1 with seq := 4096 } [], .flitRx 0 true { flit1 with ack := 4096 } [], .flitRx 0 true { flit1 with payload := [] } [],
    .flitRx 0 true { flit1 with rest := [] } [], .flitRx 0 true { flit1 with crc := 2 ^ 32 } [], .flitRx 0 true flit1 [68], .replayRequest ⟨0, true⟩ 4096, .laneRemap 236, .retrainDone 236 true, .hubOut 2, .tagGrant 32,
    .response 32 0 0, .response 0 (2 ^ 32) 0, .response 0 0 64, .txTimeout 0 (2 ^ 32), .highClr 32, .add 24 1 2 3, .vadd 24 vop1,
    .invocationStart 24, .admission 24] : List Instr),
    i.wf = false := by decide

/-- Terms at the top of their widths are well formed. -/
theorem test_wf_accepts : ∀ i ∈ ([
    .nop { ring := 255, pol := 255, cookie := 2 ^ 32 - 1 }, .regw hd (2 ^ 40 - 8) 0, .memoryRead { rq .reeve with pa := 255, len := 1 },
    .unorderedUpdate .reeve ⟨upd1, 0, true⟩, .ctuWalk { xr1 with va := 2 ^ 48 - 1 }, .frameRx frame1, .cmReq creq1, .boot boot1_, .coalesceWindowEnd key1,
    .kilnPreempt { type := 15, die := 31, index := 4095 }, .add 23 1 2 3, .vadd 0 vop1, .reductionResult red1] : List Instr),
    i.wf = true := by decide

/-! ### States that the witnesses start from -/

/-- A recipe of two descriptors at virtual address 0x1000, which lies at physical address 0x1000; sluice 3 is internal. -/
def rc0 : Recipe :=
  { va := 0x1000, len := 512, pages := [0x1000], held := [(0x10000, 0x20000)], descCount := 2, extCount := 0, cfgCount := 0, pbWords := 2, keepMask := 0,
    nextSlot := 0, nextV := false, haltV := false, haltSl := 0, stgOff := 0, stgLen := 0, pbVa := 0x2000, passLen := [], fuseGrist := 0,
    internal := [3], locked := [2], posUsed := [(0, 1), (1, 0x8000)] }

def upConn : Conn := { Conn.closed with open_ := true, up := true, peer := peer1 }

/-- A bound device with polder 0 on CD 0, its core started, ring 0 holding one command, and a recipe in slot 0. -/
def live : State :=
  { State.reset with
    phiro := { State.reset.phiro with loaded := true, image := [1] }
    cds := [(0, { Cd.reset with polder := 0, lead := 0, rank := 0, isLead := true, state := 1 })]
    polders := [(0, { Polder.reset with
      assigned := true, slots := [(0, rc0)]
      sec := { PolderSec.none with lead := 0, members := 1, formats := 0xFFFF, sluices := 16, ttEntries := 16, wdogStall := 100 } })]
    cores := [(0, { Core.reset with started := true })]
    port := { State.reset.port with
      bindState := 2, link := 2, host := some peer1, conns := [(0, upConn)], hbufs := [(0, { va := 0x8000, rkey := 0, conn := 0, len := 65536, valid := true })]
      rings := [(0, { Ring.reset with en := true, size := 4, tail := 1, base := 5 })] } }

def livePol (f : Polder → Polder) : State := modPolder live 0 f
def liveCore (f : Core → Core) : State := modCore live 0 f
def liveReeve (f : Reeve → Reeve) : State := { live with reeve := f live.reeve }
def livePower (f : Power → Power) : State := { live with power := f live.power }

/-- The device scope's header on ring 0. -/
def hdD : CmdHdr := { hd with pol := 0xFF }

theorem ready_of {s : State} {h : CmdHdr} {sc : CmdScope} {opc : Nat} (h1 : ringReady s h.ring = true) (h2 : polBad sc h.pol = false)
    (h3 : (scopeAt s 24).fatal = false) (h4 : h.pol < 24 → named s h.pol = true) : CmdReady s h sc opc :=
  ⟨h1, h2, fun h => (by simp [h3] at h), h4⟩

theorem ready (opc : Nat) : CmdReady live hd .polder opc := ready_of (by decide) (by decide) (by decide) (fun _ => by decide)
theorem readyE (opc : Nat) : CmdReady live hdD .either opc := ready_of (by decide) (by decide) (by decide) (fun h => absurd h (by decide))
theorem readyD (opc : Nat) : CmdReady live hdD .device opc := ready_of (by decide) (by decide) (by decide) (fun h => absurd h (by decide))
theorem mg (opc : Nat) : MgmtReady live hdD opc := ⟨readyD opc, by decide, by decide, by decide⟩

theorem ready_pol (opc : Nat) (f : Polder → Polder) (h : (f (polder live 0)).assigned = true) : CmdReady (livePol f) hd .polder opc :=
  ready_of (show ringReady live 0 = true by decide) (by decide) (show (scopeAt live 24).fatal = false by decide) (fun _ => by
    show (live.phiro.loaded && (polder (livePol f) 0).assigned) = true
    simp only [livePol, modPolder, setPolder, polder, tget_tset_same]; exact h)

theorem readyE_pol (opc : Nat) (f : Polder → Polder) (h : (f (polder live 0)).assigned = true) : CmdReady (livePol f) hd .either opc :=
  ⟨(ready_pol opc f h).1, by decide, (ready_pol opc f h).2.2⟩

theorem mg_reeve (opc : Nat) (f : Reeve → Reeve) (h1 : (f live.reeve).store = none) (h2 : (f live.reeve).update = none)
    (h3 : (f live.reeve).frozen = false) : MgmtReady (liveReeve f) hdD opc :=
  ⟨readyD opc, by simp [mgRuns, liveReeve, h1, h2], (mg opc).2.2.1, h3⟩

/-! ### Witnesses: every hypothesis of a statement is met -/

theorem wit_StepTakesTheFront : { live with pending := [.nop hdD] }.pending = .nop hdD :: [] ∧ live.pending = [] := ⟨rfl, rfl⟩

theorem wit_EveryStepSettles : State.reset.Settled ∧ ∃ t, step State.reset = .next t :=
  ⟨⟨fun h => absurd rfl h, rfl, fun k r _ h => by
      have : (scopeAt State.reset k).cur = none := by simp [scopeAt, State.reset, Scope.reset]
      simp [this] at h⟩, _, rfl⟩

theorem wit_CoreWordsRoundTrip : sharesWord (.add 0 31 31 31) = false ∧ (coreWord (.add 0 31 31 31)).isSome = true ∧
    sharesWord (.vadd 23 vop1) = false ∧ (coreWord (.vadd 23 vop1)).isSome = true := by decide

/-- Ring 0 after reset may begin nothing; in `live` it may; POLDER 23 is in range and 24 is not; polder 1 is not in the image; opcodes 0x5F
and 0x60 lie on the two sides of R556. -/
theorem wit_RingHeader :
    hostCmdOf (.nop hdD) = some (hdD, .device, 1) ∧ hostCmdOf (.unbind hdD) = some (hdD, .device, 0x50) ∧
    hostCmdOf (.store hdD 0) = some (hdD, .device, 0x60) ∧ ringReady State.reset 0 = false ∧ ringReady live 0 = true ∧
    (mgRuns live = false ∧ reeveWaits live = false) ∧ polBad .device 0 = true ∧ polBad .polder 24 = true ∧ polBad .polder 23 = false ∧
    polBad .polder 0xFF = true ∧ named live 1 = false ∧ (scopeAt live 24).fatal = false ∧
    (let t := modScope live 24 fun sc => { sc with fatal := true }
     ringReady t 0 = true ∧ (scopeAt t 24).fatal = true ∧ servedFatal 0x22 = false ∧ servedFatal 0x60 = true ∧ servedFatal 0x5F = false) ∧
    (let t := liveReeve fun v => { v with frozen := true }
     ringReady t 0 = true ∧ mgRuns t = false ∧ reeveWaits t = false ∧ t.reeve.frozen = true) := by decide

theorem wit_HostCommandResults : hd.pol < 24 ∧ (∀ opc, CmdReady live hd .polder opc) ∧
    -- START at slot 0 of 16, 15 starts pending, the parameter block at the recipe's own address
    (let t := livePol fun po => { po with pend := List.replicate 15 { slot := 0, pb := 0, host := false, cookie := 0 } }
     CmdReady t hd .polder 0x22 ∧ tfind (polder t 0).slots 0 = some rc0 ∧ t.phiro.busy = false ∧ (polder t 0).quies = [] ∧
       admitting (polder t 0) 0 = false ∧ (polder t 0).frzQueue = [] ∧ (polder t 0).pend.length < 16 ∧ pbOk rc0 (2 ^ 48 - 16) = true ∧
       pbOk rc0 rc0.pbVa = true) ∧
    -- SLUICE at the first and the last sluice
    (0 < (polder live 0).sec.sluices ∧ 15 < (polder live 0).sec.sluices ∧ (internalNow live 0).contains 15 = false) ∧
    -- WITHDRAW of slot 0, TT_WRITE of entry 15 and of 1, beside the locked 2
    ((tfind (polder live 0).slots 0).isSome = true ∧ slotInUse (polder live 0) 0 = false ∧ 15 < (polder live 0).sec.ttEntries ∧
      ∀ e ∈ (polder live 0).slots, 15 ∉ e.2.locked ∧ 1 ∉ e.2.locked) ∧
    -- ADMIT, BS_FIELD_WRITE and BS_FIELD_READ of PLACE_DEFAULT
    ((polder live 0).adm = none ∧ live.phiro.busy = false ∧ (fieldWrite live 0 0x18 1).1 = 0 ∧ (fieldRead live 0 0x18 false).1 = 0) ∧
    -- CORE_START at the last address, of a core not started
    (let t := liveCore fun c => { c with started := false }
     CmdReady t hd .polder 0x42 ∧ (core t 0).started = false ∧ (2 ^ 48 - 4) % 4 = 0) ∧
    -- UNFREEZE of a core that PERMISSION froze
    (let f : FreezeInfo :=
      { pc := 8, user := false, ml := 7, vcode := 2, half2 := false, breach := false, elem := 0xFFFFFFFF, addr := 0, inst := 0 }
     let t := livePol fun po => { po with frzCore := some f }
     CmdReady t hd .either 0x40 ∧ (polder t 0).frzCore = some f ∧ coreTags t 0 = false ∧ f.vcode ≠ 8) :=
  ⟨by decide, ready, ⟨ready_pol _ _ rfl, by decide +kernel⟩, by decide, by decide, by decide,
    ⟨ready_of (by decide) (by decide) (by decide) (fun _ => by decide), by decide⟩, ⟨readyE_pol _ _ rfl, by decide⟩⟩

theorem wit_DeviceCommandResults : (∀ opc, CmdReady live hdD .device opc) ∧ (∃ st t, winWrite live 0 0 = (st, t)) ∧
    -- BS_LOAD of 8 bytes that are no image, and of none
    (live.phiro.busy = false ∧ (∃ b t, devRead live (lsCmd live hdD) 8 8 = (some b, t) ∧ ∃ e, checkImage t b = .error e)) ∧
    -- the end of a load's zeroing
    ({ live with phiro := { live.phiro with loading := some hdD } }.phiro.loading = some hdD ∧ live.power.rstWait = []) ∧
    -- BS_READBACK that ends at its buffer's last byte
    (live.phiro.loaded = true ∧ (hbuf live 0).valid = true ∧ readbackImage live ≠ [] ∧ bufCan live 0 = true ∧
      65536 - (readbackImage live).length + (readbackImage live).length ≤ (hbuf live 0).len) ∧
    -- UNBIND with nothing running
    (∀ p, p < 24 → named live p = true → polderRuns live p = false) ∧
    -- UPDATE of the first and the last word of near memory
    (CmdReady live hdD .either 0x30 ∧ opValid 0 3 = true ∧ 0 % opSize 3 = 0 ∧ physOk 0 1 = true ∧ imageHit live [(0, opSize 3)] = false ∧
      (∃ r t, updateAtom live { src := 24, ls := lsCmd live hdD, cls := none, p := 0xFF, req := .ring 0 } 0 0 3 [1] 0 = (.ok r, t))) ∧
    -- XLT_INV that fits the generation, one that is forced, and its completion
    (1 % 2 ^ 32 = ((polder live 0).xltGen + 1) % 2 ^ 32 ∧ polderTags live 0 = false ∧
      (let t := { live with xlat := { live.xlat with invals := [(0, [{ cmd := hd, held := false }])] } }
       tget [] t.xlat.invals 0 = [{ cmd := hd, held := false }] ∧ polderTags t 0 = false)) ∧
    -- XLT_RESUME of an open fault with nothing left waiting, and of none
    (let f : NpFault := { fid := 4, p := 0, pte := 0, level := 2, waiters := [] }
     let t := { live with xlat := { live.xlat with faults := [f] } }
     CmdReady t hd .polder 0x39 ∧ faultOf t 0 4 = some f ∧ faultOf t 0 5 = none) ∧
    -- an opcode that is not given, and one that is, with a reserved byte
    (ringReady live 0 = true ∧ opcDefined 0 = false ∧ opcDefined 0x6A = true) := by
  exact ⟨readyD, ⟨_, _, rfl⟩, ⟨by decide, _, _, rfl, _, rfl⟩, by decide, by decide +kernel, by decide,
    ⟨readyE _, by decide, by decide, by decide, by decide, _, _, rfl⟩,
    by decide, ⟨ready_of (by decide) (by decide) (by decide) (fun _ => by decide), by decide⟩, by decide⟩

theorem wit_ManagementResults : (∀ opc, MgmtReady live hdD opc) ∧
    -- SET_WRITE of an IPv4 address with prefix length 32, of an IPv6 one with 128; 33 and 129 are out of range
    ((setValue 1 ([1, 2, 3, 4, 32] ++ List.replicate 43 0)).isSome = true ∧ (setValue 2 (List.replicate 16 1 ++ [128] ++ List.replicate 31 0)).isSome = true ∧
      setValue 1 ([1, 2, 3, 4, 33] ++ List.replicate 43 0) = none ∧ setValue 2 (List.replicate 16 1 ++ [129] ++ List.replicate 31 0) = none) ∧
    -- STORE with BS 0, and with BS 1 while an image is loaded; its end into each bank
    ((0 : BitVec 2) ≠ 3 ∧ live.phiro.busy = false ∧ live.phiro.loaded = true) ∧
    (∀ toB, (liveReeve fun v => { v with store := some (hdD, toB, SetBank.empty) }).reeve.store = some (hdD, toB, SetBank.empty) ∧
      live.reeve.nvBad.contains (if toB then 1 else 0) = false) ∧
    -- results into host buffer 0: ID_READ, SENSOR_READ at the last offset that fits, LOG_READ of records that there are, ATTEST, NONCE
    (bufCan live 0 = true ∧ (hbuf live 0).valid = true ∧ 63424 + 2112 ≤ (hbuf live 0).len ∧ 65504 + 32 ≤ (hbuf live 0).len ∧
      (attestBody live [] ++ sigBytes (Config.identitySign live.free [])).length ≤ (hbuf live 0).len) ∧
    (let t := { live with port := { live.port with hbufs := [(0, { hbuf live 0 with len := Config.certChain.length })] } }
     0 + Config.certChain.length ≤ (hbuf t 0).len ∧ bufCan t 0 = true) ∧
    (let t := liveReeve fun v => { v with logNext := 3 }
     MgmtReady t hdD 0x69 ∧ bufCan t 0 = true ∧ 0 < min 4096 (t.reeve.logNext - max 2 (t.reeve.logNext - 81920)) ∧
       0 + 64 * min 4096 (t.reeve.logNext - max 2 (t.reeve.logNext - 81920)) ≤ (hbuf t 0).len) ∧
    -- OWNER_ENROL and OWNER_WITHDRAW with a nonce of this moment
    (let t := liveReeve fun v => { v with nonce := some ([], 0) }
     MgmtReady t hdD 0x64 ∧ t.reeve.owner = none ∧ ∃ b u, devRead t (lsCmd t hdD) 0 160 = (some b, u) ∧ nonceNow u = some [] ∧
       u.reeve.nvBad.contains 4 = false ∧ natLE (slice b 0x40 32) = 0) ∧
    (let t := { liveReeve fun v => { v with nonce := some ([], 0), owner := some (1, 2) } with mem := [(0x40, 2)] }
     MgmtReady t hdD 0x65 ∧ t.reeve.owner = some (1, 2) ∧ ∃ b u, devRead t (lsCmd t hdD) 0 160 = (some b, u) ∧ nonceNow u = some [] ∧
       leAt b 0x40 1 = 2 ∧ natLE (slice b 0 64) = 0 ∧ natLE (slice b 0x41 31) = 0) ∧
    -- FW_UPDATE of the longest image, the end of a write into each slot, and FW_ACTIVATE
    (live.reeve.update = none ∧ (∃ b u, devRead live (lsCmd live hdD) 0 8 = (some b, u))) ∧
    (∀ slot, let t := liveReeve fun v => { v with runSlot := slot, update := some (some hdD, FwSlot.empty) }
      t.reeve.update = some (some hdD, FwSlot.empty) ∧ t.reeve.nvBad.contains (if t.reeve.runSlot then 2 else 3) = false) ∧
    (let t := liveReeve fun v => { v with upd := 2 }
     MgmtReady t hdD 0x68 ∧ t.reeve.upd = 2 ∧ t.reeve.recovery = false ∧ t.reeve.nvBad.contains (if t.reeve.runSlot then 2 else 3) = false) :=
  ⟨mg, by decide +kernel, by decide +kernel, fun _ => ⟨rfl, rfl⟩, by decide +kernel, ⟨Nat.le_of_eq (Nat.zero_add _), rfl⟩,
    ⟨mg_reeve _ _ rfl rfl rfl, by decide +kernel⟩, ⟨mg_reeve _ _ rfl rfl rfl, rfl, _, _, rfl, rfl, rfl, by decide +kernel⟩,
    ⟨⟨ready_of (by decide +kernel) (by decide) (by decide +kernel) (fun h => absurd h (by decide)), by decide +kernel, by decide +kernel, rfl⟩, rfl,
      _, _, rfl, rfl, by decide +kernel, by decide +kernel, by decide +kernel⟩,
    ⟨rfl, _, _, rfl⟩, fun slot => ⟨rfl, by cases slot <;> rfl⟩, ⟨mg_reeve _ _ rfl rfl rfl, rfl, rfl, rfl⟩⟩

/-- A doorbell that fills the ring, one that takes one entry; sizes 4 and 12 and what lies beside them; a count at and past the producer. -/
theorem wit_RingRegisterResults :
    (portUp live = true ∧ live.port.bindState = 2 ∧
      (let t := modRing live 0 fun k => { k with tail := 0 }
       let d := (16 + 65536 - (ring t 0).tail) % 65536
       (16 * 256 : Nat) / 2 ^ 24 = 0 ∧ (ring t 0).en = true ∧ 0 < d ∧ d < 32768 ∧ d + ((ring t 0).tail + 65536 - (ring t 0).head) % 65536 ≤ 2 ^ (ring t 0).size)) ∧
    (let pa := (ring live 0).base * 4096 + 64 * ((ring live 0).head % 2 ^ (ring live 0).size)
     let t := { live with mem := [(pa, 1), (pa + 2, 0xFF)] }
     ringReady t 0 = true ∧ physOk pa 64 = true ∧ opcDefined 1 = true ∧
       ∃ b u, readSpan t (ringCtx t { ring := 0, pol := 0xFF, cookie := 0 }) (pieces pa 64) = (.ok b, u) ∧ natLE b % 256 = 1 ∧
         entryReserved 1 (natLE b) = false) ∧
    ((ring live 1).en = false ∧ (ring live 0).en = true ∧ (1 : Word).getLsbD 0 = true ∧ (0 : Word).getLsbD 0 = false) ∧
    (newerThan 0 (ring live 0).cplProd = false ∧ newerThan 1 (ring live 0).cplProd = true) ∧
    (live.port.evq.en = false ∧ (0x100 : Word).getLsbD 8 = true ∧ (0xFF : Word).getLsbD 8 = false) ∧
    ({ live with port := { live.port with evq := { live.port.evq with en := true } } }.port.evq.en = true) ∧
    ((∃ st t, winWrite live 0 0 = (st, t)) ∧ (∃ st t, winWrite live 0x10000 0 = (st, t)) ∧ (∃ st t, winWrite live 0x14FF8 0 = (st, t)) ∧
      named live 0 = true ∧ (∃ st t, ioWrite live 0 0x4800 8 0 = (st, t))) :=
  ⟨by decide +kernel, ⟨by decide +kernel, by decide +kernel, by decide, _, _, rfl, by decide +kernel, by decide +kernel⟩, by decide +kernel,
    by decide +kernel, by decide +kernel, rfl, ⟨_, _, rfl⟩, ⟨_, _, rfl⟩, ⟨_, _, rfl⟩, by decide +kernel, _, _, rfl⟩

/-! ### The core's statements -/

theorem fetched : Fetched live 0 live := ⟨by decide +kernel, rfl⟩

/-- `live` with values in g1 to g4. -/
def regs (a b c d : Word) : State := liveCore fun k => { k with regs := [(1, a), (2, b), (3, c), (4, d)] }

theorem wit_IntegerResults : Fetched live 0 live := fetched
theorem wit_WordResults : Fetched live 0 live := fetched
theorem wit_BitResults : Fetched live 0 live := fetched
theorem wit_ImmediateResults : Fetched live 0 live := fetched
theorem wit_CrcStepResults : Fetched live 0 live := fetched
theorem wit_FloatResults : Fetched live 0 live := fetched
theorem wit_FpctlWrites : Fetched live 0 live := fetched

/-- Divisor −1 and dividend 7; the low word of 2^32 is 0 though 2^32 is not. -/
theorem wit_DivisionResults :
    (let s := regs 7 (-1) 0 0
     Fetched s 0 s ∧ gpr (core s 0) 2 ≠ 0 ∧ (gpr (core s 0) 2).setWidth 32 ≠ 0) := by
  exact ⟨⟨by decide +kernel, rfl⟩, by decide +kernel⟩

theorem wit_DivisionCorners :
    (let s := regs (2 ^ 63) (-1) (2 ^ 31) 0
     Fetched s 0 s ∧ gpr (core s 0) 4 = 0 ∧ (gpr (core s 0) 4).setWidth 32 = 0 ∧ (gpr (core s 0) 1).toInt = -2 ^ 63 ∧
       (gpr (core s 0) 2).toInt = -1 ∧ ((gpr (core s 0) 3).setWidth 32).toInt = -2 ^ 31 ∧ ((gpr (core s 0) 2).setWidth 32).toInt = -1) :=
  ⟨⟨by decide +kernel, rfl⟩, by decide +kernel⟩

/-- A load of the last byte of the core-local SRAM. -/
theorem wit_LoadResults :
    (let s := regs 0xFFFFFFFFFFFF 0 0 0
     let va := (gpr (core s 0) 1 + (0 : BitVec 16).signExtend 64).toNat
     Fetched s 0 s ∧ ∃ g, loadData s 0 va 1 = (.ok 0, g)) := ⟨⟨by decide +kernel, rfl⟩, _, rfl⟩

/-- The polder space with the root at 0x10000 and one 2 MiB leaf at 0x4000000 that grants all for va 0. -/
def mapped : State :=
  { liveCore (fun c => { c with asid := 1, dtb := 0x10001, itb := 0x10001, cctl := 0 }) with
    mem := [(0x10000, 1), (0x10002, 2), (0x20000, 1), (0x20002, 3), (0x30000, 0x3F), (0x30003, 4)] }

theorem fetchedM : Fetched mapped 0 mapped := ⟨by decide +kernel, rfl⟩

theorem soundM : MemSound mapped 0 0x78 :=
  ⟨by decide +kernel, by decide +kernel, fun _ _ => rfl⟩

theorem wit_LoadSources :
    -- the core-local SRAM: its first byte and its last doubleword
    ((core live 0).user = false ∧ sramBase ≤ sramBase ∧ sramBase + 1 ≤ 2 ^ 48 ∧ (2 ^ 48 - 8) + 8 ≤ 2 ^ 48 ∧ (core live 0).sb = []) ∧
    -- memory behind a translation
    (let r := translate mapped (dReq mapped 0 0x78 1 0 (core mapped 0).user)
     r.1 = .ok 0x4000078 ∧ (core r.2 0).sb = [] ∧ dceOn (core r.2 0) = false ∧ reach r.2 (leadOf r.2 0) (homeDie 0x4000078) 0x4000078 = true ∧
       (ncOf r.2 0).lines = [] ∧ r.2.health.bad = []) ∧
    -- a buffered store of the same doubleword
    (let e : SbEntry := { va := 0x78, pa := 0x4000078, local_ := false, data := List.replicate 8 1 }
     let s := modCore mapped 0 fun c => { c with sb := [e] }
     let r := translate s (dReq s 0 0x7F 1 0 (core s 0).user)
     r.1 = .ok 0x400007F ∧ (core r.2 0).sb.getLast? = some e ∧ e.pa ≤ 0x400007F ∧ 0x400007F + 1 ≤ e.pa + e.data.length) :=
  ⟨by decide +kernel, by decide +kernel, by decide +kernel⟩

/-- A doubleword store across a doubleword boundary in the core-local SRAM, and one in memory with the store buffer full. -/
theorem wit_StoreResults :
    (let s := regs (2 ^ 48 - 12) 0 0 0
     let va := (gpr (core s 0) 1).toNat
     Fetched s 0 s ∧ va + 8 ≤ 2 ^ 48 ∧ ∃ ls g, placeAll s 0 2 0 true [(va, 8 - va % 8), (va - va % 8 + 8, va % 8)] false = (.ok ls, g)) ∧
    (∃ ls g, placeAll mapped 0 2 0 true [(0x78, 8)] false = (.ok ls, g)) :=
  ⟨⟨⟨by decide +kernel, rfl⟩, by decide +kernel, _, _, rfl⟩, _, _, rfl⟩

theorem wit_StoreDrains :
    (∀ l, let x : SbEntry := { va := 0x78, pa := 0x78, local_ := l, data := List.replicate 8 1 }
      let s := modCore mapped 0 fun c => { c with sb := [x] }
      named s 0 = true ∧ (core s 0).sb = [x] ∧ x.pa % 8 + x.data.length ≤ 8) ∧
    MemSound mapped (leadOf mapped 0) 0x78 := ⟨fun l => by cases l <;> decide +kernel, soundM⟩

/-- At the core-local SRAM's last word, and at a home. -/
theorem wit_AtomicResults :
    (let s := regs (2 ^ 48 - 4) 1 0 0
     Fetched s 0 s ∧ (gpr (core s 0) 1).toNat % 4 = 0 ∧ ∃ off g, place s 0 (2 ^ 48 - 4) 4 3 0 false = (.ok (.sram off), g)) ∧
    (∃ pa g, place mapped 0 0x78 8 3 0 false = (.ok (.mem pa), g) ∧
      ∃ r u, updateAtom (modCore (drainAll g 0) 0 fun k => dcInval k pa 8) (coreCtx g 0 0 (.coreAtomic 0)) pa 0 4 [1] 0 = (.ok r, u)) :=
  ⟨⟨⟨by decide +kernel, rfl⟩, by decide +kernel, _, _, rfl⟩, _, _, rfl, _, _, rfl⟩

/-- No bytes, and the last 8 bytes of D-space. -/
theorem wit_BlockCrcResults :
    (let s := regs (2 ^ 48 - 8) 0 8 0
     Fetched s 0 s ∧ min (gpr (core s 0) 2).toNat 256 = 0 ∧ min (gpr (core s 0) 3).toNat 256 = 8 ∧
       ∃ ls g, placeAll s 0 1 0 false (bytePieces 40 (2 ^ 48 - 8) 8) false = (.ok ls, g) ∧
         ∃ bs u, readHalves g 0 false ls (bytePieces 40 (2 ^ 48 - 8) 8) false = (.ok bs, u)) :=
  ⟨⟨by decide +kernel, rfl⟩, by decide +kernel, by decide +kernel, _, _, rfl, _, _, rfl⟩

theorem wit_IoResults :
    (let s := regs 0x4800 0 0 0
     Fetched s 0 s ∧ (gpr (core s 0) 1).toNat % 8 = 0 ∧ (core s 0).user = false ∧ (∃ st v u, ioRead (drainAll s 0) 0 0x4800 8 = (st, v, u)) ∧
       ∃ st u, ioWrite (drainAll s 0) 0 0x4800 8 0 = (st, u)) := ⟨⟨by decide +kernel, rfl⟩, by decide +kernel, by decide +kernel, ⟨_, _, _, rfl⟩, _, _, rfl⟩

/-- Each register of the rows, the tensor window at its first word and at its last, RCP_ADMIT with OP 1 and 2, SL_CTL with SET 1 and 0. -/
theorem wit_IoRegisterRows :
    (∀ e ∈ ([(0x4008, 0), (0x4810, 2 ^ 58), (0x4810, 2 ^ 59), (0x4800, 0), (0x4808, 0x1000), (0x4808, 0), (0x10000, 0), (0x2FFF8, 0), (0x5010, 0)]
        : List (Nat × Nat)),
      let s := regs (BitVec.ofNat 64 e.1) (BitVec.ofNat 64 e.2) 0 0
      coreReady s 0 = true ∧ (core s 0).user = false ∧ (gpr (core s 0) 1).toNat = e.1 ∧ (gpr (core s 0) 2).toNat = e.2) ∧
    bits (2 ^ 58) 58 2 = 1 ∧ bits (2 ^ 59) 58 2 = 2 ∧ bit 0x1000 12 = true ∧ bit 0 12 = false ∧ 0x2FFF8 % 8 = 0 ∧
    (∃ st v u, ioRead live 0 0x4008 8 = (st, v, u)) := ⟨by decide +kernel, by decide, by decide, by decide, by decide, by decide, _, _, _, rfl⟩

theorem wit_BranchResults : Fetched live 0 live ∧ (core live 0).pc < 2 ^ 48 := ⟨fetched, by decide +kernel⟩

theorem wit_JumpResults :
    (let s := regs (2 ^ 48 - 4) 0 0 0
     Fetched s 0 s ∧ (core s 0).pc < 2 ^ 48 ∧ (gpr (core s 0) 1).toNat % 4 = 0 ∧ (gpr (core s 0) 1).toNat < 2 ^ 48) :=
  ⟨⟨by decide +kernel, rfl⟩, by decide +kernel⟩

theorem wit_CsrReads : Fetched live 0 live ∧ (core live 0).user = false := ⟨fetched, by decide +kernel⟩
theorem wit_CsrWrites : Fetched live 0 live ∧ (core live 0).user = false := ⟨fetched, by decide +kernel⟩

theorem wit_SystemResults : Fetched mapped 0 mapped ∧ (core mapped 0).user = false ∧ (gpr (core mapped 0) 0).toNat < sramBase ∧
    (∃ pa g, translate mapped (dReq mapped 0 0 0 0 (core mapped 0).user) = (.ok pa, g)) ∧
    (let s := modCore mapped 0 fun c => { c with regs := [(1, 0x40000000)] }
     (gpr (core s 0) 1).toNat < sramBase ∧ ∃ pa lvl g, translate s (dReq s 0 0x40000000 0 0 (core s 0).user) = (.absent pa lvl, g)) :=
  ⟨fetchedM, by decide +kernel, by decide +kernel, ⟨_, _, rfl⟩, by decide +kernel, _, _, _, rfl⟩

/-- g31 at the top of the core-local SRAM, the shadow one short of full. -/
theorem wit_TrapEntry :
    (let s := liveCore fun c => { c with regs := [(31, 0xFFFFFFFFFFE0)], ml := 3, shadow := List.replicate 15 false }
     ∃ loc, Fetched s 0 s ∧ EntryOk s 0 4 loc s ∧ EntryOk s 0 0 loc s) ∧ namesInstr 0 = false :=
  ⟨⟨.sram (0xFFFFFFFFFFC0 - sramBase), ⟨by decide +kernel, rfl⟩,
      ⟨by decide +kernel, fun _ => by decide +kernel, by decide +kernel, by decide +kernel, by decide +kernel, by decide +kernel, rfl, fun x h => by cases h⟩,
      ⟨by decide +kernel, fun _ => by decide +kernel, by decide +kernel, by decide +kernel, by decide +kernel, by decide +kernel, rfl, fun x h => by cases h⟩⟩,
    by decide +kernel⟩

theorem wit_ReturnResults :
    (let s := liveCore fun c => { c with regs := [(31, 0xFFFFFFFFFFE0)], shadow := [true], estatus := 1 }
     Fetched s 0 s ∧ (core s 0).user = false ∧ (core s 0).breach = false ∧ (core s 0).estatus.getLsbD 0 = true ∧
       ∃ d g, readFrame s 0 (gpr (core s 0) 31).toNat = (some d, g)) ∧
    (let s := liveCore fun c => { c with breach := true, bstk := 0xFFFFFFFFFFC0 }
     Fetched s 0 s ∧ (core s 0).breach = true ∧ sramBase ≤ (core s 0).bstk.toNat ∧ (core (drainAll s 0) 0).bpriv = false) :=
  ⟨⟨⟨by decide +kernel, rfl⟩, by decide +kernel, by decide +kernel, by decide +kernel, _, _, rfl⟩, ⟨by decide +kernel, rfl⟩, by decide +kernel⟩

theorem wit_PrivilegeFreezes :
    (let s := liveCore fun c => { c with user := true }
     Fetched s 0 s ∧ (core s 0).user = true ∧ (core s 0).breach = false) := ⟨⟨by decide +kernel, rfl⟩, by decide +kernel⟩

/-! ### The vector extension and the matrix instructions -/

/-- `live` with VTYPE, VL and values in g1 and g2. -/
def vec (vt vl : Nat) (a b : Word) : State :=
  liveCore fun k => { k with vtype := BitVec.ofNat 64 vt, vl := vl, regs := [(1, a), (2, b)] }

theorem fetchedV : Fetched (vec 2 3 0 0) 0 (vec 2 3 0 0) := ⟨by decide +kernel, rfl⟩

def vo (s vm : Bool) (mreg : BitVec 3) (vd va vb : Reg) : VOp := { s := s, vm := vm, mreg := mreg, vd := vd, va := va, vb := vb }

/-- Two elements of v31 at SEW 8 with one lane: the first and the last. -/
theorem wit_VectorRegisterFile : (0 < 1 ∧ 1 ≤ 24576 ∧ (0 : Nat) < 4 ∧
    (∀ e ∈ ([(0, 1), (63, 2)] : List (Nat × Nat)), e.1 < 8 * (64 / (8 <<< 0)) * 1) ∧ (([(0, 1), (63, 2)] : List (Nat × Nat)).map (·.1)).Nodup ∧
    63 < 8 * (64 / (8 <<< 0)) * 1) := by decide

/-- imm16 0x0023 and the two that its checks part: bit 4, and SEW code 4. -/
theorem wit_SetvlResults : Fetched live 0 live ∧
    (let ok := fun imm : Nat => bits imm 4 9 = 0 ∧ bits imm 13 3 ≠ 7 ∧ bits imm 0 3 < 4
     ok 0x0003 ∧ ok 0xC003 ∧ ¬ ok 0xE003 ∧ ¬ ok 0x0010 ∧ ¬ ok 0x0004) := ⟨fetched, by decide⟩

/-- SEW 16 with BF16, 32 and 64; all formats are on. -/
theorem wit_VectorFloatResults :
    (∀ e ∈ ([(1, 2), (9, 3), (2, 1), (3, 0)] : List (Nat × Nat)),
      let s := vec e.1 3 0 0
      coreReady s 0 = true ∧ (vctx s 0).fp = some e.2 ∧ fmtOn (vctx s 0).po e.2 = true) ∧
    (vo false false 0 1 2 0).mreg = 0 ∧ (vo false true 7 1 2 0).vm = true ∧ (vo false true 7 1 2 0).vb = 0 := by decide +kernel

theorem wit_VectorIntegerResults : Fetched (vec 2 3 0 0) 0 (vec 2 3 0 0) ∧ (vo true true 7 1 0 2).vm = true ∧ (vo true true 7 1 0 2).va = 0 ∧
    (vo false false 0 1 2 0).vb = 0 := ⟨fetchedV, rfl, rfl, rfl⟩

theorem wit_VectorMaskResults : Fetched (vec 2 3 0 0) 0 (vec 2 3 0 0) ∧ (7 : Reg).toNat < 8 ∧ ¬ (8 : Reg).toNat < 8 ∧
    (vctx (vec 2 3 0 0) 0).fp = some 1 ∧ fmtOn (vctx (vec 2 3 0 0) 0).po 1 = true := by exact ⟨fetchedV, by decide +kernel⟩

theorem wit_VectorPermuteResults : Fetched (vec 2 3 0 0) 0 (vec 2 3 0 0) ∧ (vo false true 7 1 2 0).vd ≠ (vo false true 7 1 2 0).va ∧
    (vo false true 7 1 2 0).vd ≠ (vo false true 7 1 2 0).vb := ⟨fetchedV, by decide, by decide⟩

/-- VL 0 and VL 3, and each floating-point width. -/
theorem wit_VectorReductions :
    Fetched (vec 2 3 0 0) 0 (vec 2 3 0 0) ∧ (vctx (vec 2 3 0 0) 0).c.vl ≠ 0 ∧
    (Fetched (vec 2 0 0 0) 0 (vec 2 0 0 0) ∧ (vctx (vec 2 0 0 0) 0).c.vl = 0) ∧ (vctx (vec 2 0 0 0) 0).fp = some 1 ∧
    fmtOn (vctx (vec 2 0 0 0) 0).po 1 = true :=
  ⟨fetchedV, by decide +kernel, ⟨⟨by decide +kernel, rfl⟩, by decide +kernel⟩, by decide +kernel, by decide +kernel⟩

theorem wit_ReductionReturns :
    (let w : RedWait := { gd := 1, value := 5, fl := 1 }
     let s := liveCore fun c => { c with redWait := some w }
     named s 0 = true ∧ (polder s 0).frzCore = none ∧ (core s 0).redWait = some w) := by decide +kernel

theorem wit_VectorScans : Fetched (vec 2 3 0 0) 0 (vec 2 3 0 0) ∧ (vctx (vec 2 3 0 0) 0).fp = some 1 := ⟨fetchedV, by decide +kernel⟩

/-- SEW 32 and 64, and every source of a conversion at once. -/
theorem wit_VectorFunctions : Fetched (vec 2 3 0 0) 0 (vec 2 3 0 0) ∧ (vctx (vec 2 3 0 0) 0).k = 2 ∧ (vctx (vec 3 3 0 0) 0).k = 3 ∧
    (vctx (vec 3 3 0 0) 0).fp = some 0 ∧
    (∀ n ∈ List.range 14, ∀ src, cvtSrc n = some src →
      fmtOn (vctx (vec 2 3 0 0) 0).po src.fmt = true ∧ (vctx (vec 2 3 0 0) 0).c.vl ≤ vlMax (vec 2 3 0 0) 0 (sewOf src.bits)) ∧
    (cvtSrc 0).isSome = true ∧ fmtOn (vctx (vec 0 3 0 0) 0).po (intFmt true 8) = true ∧ fmtOn (vctx (vec 0 3 0 0) 0).po (intFmt false 64) = true :=
  ⟨fetchedV, by decide +kernel⟩

/-- Formats 4 and 9, the first MX format and the last. -/
theorem wit_VectorMxResults :
    (∀ g ∈ [4, 25],
      let s := vec 2 33 0 (BitVec.ofNat 64 g)
      coreReady s 0 = true ∧ (core s 0).vtype.toNat % 8 = 2 ∧ (gpr (core s 0) 2).toNat < 32 ∧ 4 ≤ (gpr (core s 0) 2).toNat % 16 ∧
        (gpr (core s 0) 2).toNat % 16 ≤ 9 ∧ fmtOn (polder s 0) ((gpr (core s 0) 2).toNat % 16) = true) ∧
    (let o := vo false false 0 4 6 2
     o.vd.toNat % 2 = 0 ∧ o.vd ≠ o.va ∧ o.vd + 1 ≠ o.va ∧ o.va.toNat < 31) := by decide +kernel

/-- Three words at the top of the core-local SRAM: unit, strided, indexed; and the mask bits of three elements. -/
theorem wit_VectorMemoryResults :
    (let s := vec 2 3 0xFFFFFFFFFFF4 4
     let x := vctx s 0
     coreReady s 0 = true ∧
     (∀ e ∈ ([(VAddr.unit, 1, vo false false 0 1 1 0), (.unit, 2, vo false false 0 1 1 0), (.strided, 1, vo false false 0 1 1 2),
        (.strided, 2, vo false false 0 1 1 2), (.indexed, 1, vo false false 0 1 1 3), (.indexed, 2, vo false false 0 1 1 3)]
          : List (VAddr × Nat × VOp)),
       x.memBad e.2.2 e.1 = false ∧ x.addrBad e.2.2 e.1 true = none ∧ x.addrBad e.2.2 e.1 false = none ∧
         ((vPlanAll s 0 x e.2.1 ((x.active e.2.2).map (x.el e.2.2 e.1))).1.all fun a => match a.2 with | .ok _ => true | .error _ => false) = true)) ∧
    (let s := vec 2 3 0xFFFFFFFFFFFF 0
     let x := vctx s 0
     let o := vo false false 0 7 1 0
     (gpr x.c o.va).toNat < 2 ^ 48 ∧ (gpr x.c o.va).toNat + (x.c.vl + 7) / 8 ≤ 2 ^ 48 ∧
       ∀ acc ∈ [1, 2], ((vPlanAll s 0 x acc (maskEls x o)).1.all fun a => match a.2 with | .ok _ => true | .error _ => false) = true) := by
  decide +kernel

/-- One element in grist, empty queues, and a tile in each, with room for another. -/
theorem wit_VectorUnitResults :
    (let s := vec 2 1 0 0
     let x := vctx s 0
     Fetched s 0 s ∧ gristBad x (vo false false 0 1 1 0) = false ∧ gristWaits x (vo false false 0 1 1 0) = false ∧ (polder s 0).run = none ∧
       popMismatch s 0 x = false ∧ popReady s 0 x = false) ∧
    (let s := modPolder (vec 2 1 0 0) 0 fun po =>
       { po with wort := (span 0 16).map fun n => (n, [{ wide := 0, data := [1], mask := 1 }]) }
     let x := vctx s 0
     coreReady s 0 = true ∧ popMismatch s 0 x = false ∧ popReady s 0 x = true ∧ (∀ q ∈ wortQueues s 0, q.2.2.length + popNeeds x ≤ 64) ∧ (polder s 0).groups = []) :=
  ⟨⟨⟨by decide +kernel, rfl⟩, by decide +kernel⟩, by decide +kernel⟩

/-- FP32 by FP32 with one row, one depth element and one column, and 8 rows. -/
theorem wit_MatrixInstructionResults :
    (∀ rows ∈ [1, 8],
      let s := regs (BitVec.ofNat 64 (rows * 2 ^ 48 + 2 ^ 38 + 2 ^ 20 + 0x11)) 0 0 0
      let w := opWord (gpr (core s 0) 1)
      let t := loadBanks s 0 { w with rows := 1 } 0 0
      coreReady s 0 = true ∧ (polder s 0).run = none ∧ opWordBad (polder s 0) { w with rows := 1 } = false ∧ opWordBad (polder s 0) w = false ∧ (groupLds (polder s 0) { w with rows := 1 }).isSome = true ∧
        runBad w.fmtB w.depth (w.n * w.cols) 0 0 = false ∧ runBad w.fmtA w.depth w.rows 0 0 = false ∧ (groupAt (polder s 0) w.grp).state ≠ 2 ∧
        (groupFor (polder s 0) w).isSome = true ∧ w.rows ≤ 8 ∧ w.depth ≤ ((pairing w.fmtA w.fmtB).map (·.2)).getD 0 ∧
        coreReady t 0 = true ∧ banksBad t 0 w = false ∧ (groupFor (polder t 0) w).isSome = true) := by decide +kernel

/-! ### The sequencer -/

/-- A tensor of virtual memory. -/
def ten (a rows cols pitch : Nat) : TensorEntry :=
  { w0 := BitVec.ofNat 64 a, w1 := 0, w2 := BitVec.ofNat 64 (rows + cols * 2 ^ 32), w3 := BitVec.ofNat 64 (pitch + 2 ^ 32 + 2 ^ 36) }

def inv0 : Invocation :=
  { req := { slot := 0, pb := 0x100, host := false, cookie := 0 }, begun := false, dtStart := 0, descs := [], flags := 0, abort := false, err := none
    headSince := [], stalled := [], issueDt := [], words := [], reds := [], redDone := [] }

/-- `mapped` with a running invocation and FP32 tensors 1, 2 and 3 in memory; `cells` are bytes of memory, descriptor 0 among them. -/
def runs (cells : List (Nat × Byte)) : State :=
  let m := modPolder mapped 0 fun po => { po with
    run := some inv0, ptb := 0x10001, tt := [(1, ten 0x4000 16 8 64), (2, ten 0x5000 16 8 64), (3, ten 0x6000 4 8 64)] }
  { m with mem := cells.foldl (fun m c => mset m c.1 c.2) m.mem }

/-- Descriptor 0 of `runs` may issue, and performs to its end. -/
def performs (x : List (Nat × Byte) × (DCx → DM DRes)) : Bool :=
  let s := runs x.1
  match running s 0 with
  | none => false
  | some (inv, rc) =>
    let d := descAt s rc 0
    mayIssue s 0 rc inv 0 d && match openDesc (fun _ _ => []) 0 0 rc inv.req.pb (satisfy s 0 0 rc inv d) with
    | (.ok c, t) => match x.2 c (beginIssue t 0 0 inv c.d) with
      | (.ok _, _) => true
      | (.error _, _) => false
    | (.error _, _) => false

/-- A vector, mover or collective descriptor on tensors 1, 2 and 3 with COUNT 1. -/
def desc3 (kind mode : Byte) (more : List (Nat × Byte)) : List (Nat × Byte) :=
  [(0x1040, kind), (0x1060, 1), (0x1061, 0x20), (0x1063, 3), (0x1068, mode), (0x1078, 1)] ++ more

/-- An operation word at an offset: FP32 by FP32, one row, eight elements. -/
def opw (a : Nat) : List (Nat × Byte) := [(a, 0x11), (a + 2, 0x10), (a + 5, 2), (a + 6, 1)]

/-- Every kind performs on some descriptor. -/
theorem wit_DescriptorResults_matrix :
    performs ((0x1040, 1) :: opw 0x1060 ++ [(0x1070, 1), (0x1071, 0x20)], matrixBody) = true ∧
    performs ((0x1040, 2) :: opw 0x1060 ++ opw 0x1068 ++ [(0x1070, 1), (0x1071, 0x20), (0x1073, 3)], chainBody) = true := by decide +kernel

theorem wit_DescriptorResults_vector :
    performs (desc3 0x10 0 [], vmapBody) = true ∧ performs (desc3 0x11 0 [], vnormBody) = true ∧ performs (desc3 0x12 0 [], vmergeBody) = true ∧
    performs (desc3 0x12 1 [], vmergeRescaleBody) = true ∧ performs (desc3 0x12 2 [], vmergeNormaliseBody) = true ∧
    performs (desc3 0x13 4 [], vsampleBody) = true ∧ performs (desc3 0x13 5 [], vsampleIndicesBody) = true ∧
    performs (desc3 0x13 6 [(0x4004000, 1)], vsampleCommitBody) = true ∧ performs (desc3 0x14 1 [], vacceptBody) = true ∧
    performs (desc3 0x15 0 [], vcompactAppendBody) = true ∧ performs (desc3 0x15 1 [(0x4004000, 1)], vcompactMoveBody) = true ∧
    performs (desc3 0x15 2 [], vcompactGatherBody) = true := by decide +kernel

theorem wit_DescriptorResults_others :
    performs (desc3 0x20 0 [], mcopyBody) = true ∧ performs (desc3 0x21 0 [(0x1041, 2), (0x1044, 1)], mupdateBody) = true ∧ performs (desc3 0x22 0 [], mfillBody) = true ∧
    performs (desc3 0x23 0 [], meventBody) = true ∧ performs (desc3 0x30 0 [], callredBody) = true ∧ performs (desc3 0x31 0 [], cbcastBody) = true ∧
    performs (desc3 0x32 0 [], cgatherBody) = true ∧ performs (desc3 0x33 0 [], chaloBody) = true := by decide +kernel

theorem wit_DescriptorResults :
    (let s := modRun (runs (desc3 0x20 0 [])) 0 fun v => { v with descs := [(0, .inExec)] }
     (running s 0).isSome = true ∧ ((polder s 0).run.map fun v => descState v 0) = some (some .inExec) ∧ descPending s 0 0 = false) := by decide +kernel

/-- `mapped` with an invocation of `rc0` in the given state. -/
def invoked (f : Invocation → Invocation) (cells : List (Nat × Byte)) : State := modRun (runs cells) 0 f

def rec0 : Record := mkRec mapped (lsDevice 31) 0x40 2 31 0 []

/-- A recipe image with one MEVENT descriptor at virtual address 0x2000. -/
def image1 : List (Nat × Byte) :=
  [(0x4002000, 0x52), (0x4002001, 0x43), (0x4002002, 0x50), (0x4002003, 0x45), (0x4002004, 1), (0x4002008, 1), (0x4002012, 1), (0x4002040, 0x23)]

/-- An invocation armed and one pending; an invocation whose descriptors are complete and one with an error; QUIESCE with nothing running; an
admission of an image that passes and one of no image; a wait on sluice 1 longer than WDOG_STALL; the first position and the last. -/
theorem wit_SequencerResults :
    (mayBegin live 0 = true ∧ tfind (polder live 0).slots 0 = some rc0 ∧
      (let r : StartReq := { slot := 0, pb := 0, host := false, cookie := 0 }
       let t := livePol fun po => { po with armed := some r }
       let u := livePol fun po => { po with pend := [r] }
       mayBegin t 0 = true ∧ tfind (polder t 0).slots 0 = some rc0 ∧ (polder t 0).armed = some r ∧ mayBegin u 0 = true ∧ (polder u 0).armed = none ∧
         (polder u 0).pend = [r] ∧ tfind (polder u 0).slots 0 = some rc0)) ∧
    (let s := invoked (fun v => { v with descs := [(0, .complete), (1, .complete)] }) []
     (running s 0).any (fun x => x.1.err.isNone && !x.1.abort && (List.range x.2.descCount).all fun j => descDone x.1 j) = true) ∧
    (let s := invoked (fun v => { v with err := some rec0, descs := [(0, .failed)] }) []
     (running s 0).any (fun x => x.1.err == some rec0 && x.1.descs.all fun e => e.2 != .inExec) = true) ∧
    (let s := livePol fun po => { po with quies := [some hd] }
     (polder s 0).run = none ∧ (polder s 0).quies ≠ [] ∧ unbindWaits s = false) ∧
    (∀ va ∈ [0x2000, 0x3000],
      let s := modPolder (runs image1) 0 fun po => { po with run := none, adm := some { cmd := some hd, slot := 1, va := va } }
      (polder s 0).adm = some { cmd := some hd, slot := 1, va := va } ∧
        (match (admitImage s 0 1 va).1 with | .ok rc => decide (va = 0x2000 ∧ rc.descCount = 1) | .error f => decide (va = 0x3000 ∧ f.code = 0x41)) = true) ∧
    (let s := invoked (fun v => v) [(0x1040, 0x10), (0x1050, 1), (0x1051, 0x80)]
     (running s 0).any (fun x => queueHead s x.2 x.1 1 == some 0 && (measuredWaits s 0 x.2 x.1 0).find? (fun n => !x.1.stalled.contains (1 * 8192 + n)) == some 1 &&
       x.1.err.isNone && !x.1.abort) = true ∧ (polder s 0).sec.wdogStall ≠ 0) ∧
    (let s := invoked (fun v => v) []
     usersOf s 0 0 15 ahead = true ∧ usersOf s 0 0 0 ahead = true ∧ (polder s 0).groups = [] ∧
       usersOf s 0 0 15 (fun inv i => (descState inv i).any inExec) = false ∧
       named s 0 = true) ∧
    ((polder live 0).run = none ∧ posClear live 0 0 0 = true ∧ posClear live 0 0 15 = true) := by
  decide +kernel

/-- Each event where it occurs. -/
theorem wit_CoreAndErrorEvents : named live 0 = true ∧
    (let s := liveCore fun c => { c with timerCmp := 5 }
     named s 0 = true ∧ (core s 0).timerCmp ≠ 0 ∧ (core s 0).timerHit = false) ∧
    (let s := liveCore fun c => { c with intPend := 0x10, intEn := 0x10, ml := 0, mldef := 0x1000 }
     named s 0 = true ∧ coreLive s 0 = true ∧ pickInt (core s 0) = some 4 ∧ (core s 0).breachReq = false) ∧
    (let s := liveCore fun c => { c with breachReq := true }
     named s 0 = true ∧ coreLive s 0 = true ∧ (core s 0).breachReq = true ∧ (core s 0).breach = false) ∧
    ((polder live 0).resetting = false ∧ live.power.rstReq = none ∧ live.power.rstLow = false ∧ live.phiro.busy = false) ∧
    (let s := livePol fun po => { po with resetting := true }
     named s 0 = true ∧ (polder s 0).resetting = true) ∧
    (∀ c0 ∈ [0x24000, 0],
      let s := livePol fun po => { po with groups := [(15, { Group.idle with state := 2, cfg0 := BitVec.ofNat 64 c0 })] }
      named s 0 = true ∧ (groupAt (polder s 0) 15).state = 2 ∧
        (cfgDest (groupAt (polder s 0) 15).cfg0 = 1 ∨ cfgYout (groupAt (polder s 0) 15).cfg0 = false)) ∧
    (∀ n ∈ [0, 1],
      let w : Window := { key := { code := 0x10, die := 0, unit := 0, addr := 0 }, endDt := 9, count := n, lastDt := 3, cls := 0, ls := lsDevice 0, body := [] }
      let s := { live with errors := { live.errors with windows := [w] } }
      s.errors.windows.find? (fun v => v.key == w.key) = some w) ∧
    (∀ fatal ∈ [false, true],
      let s := modScope live 0 fun sc => { sc with pend := [rec0], fatal := fatal }
      named s 0 = true ∧ (scopeAt s 0).cur = none ∧ (scopeAt s 0).pend = [rec0] ∧ (polder s 0).run = none ∧ (scopeAt s 0).fatal = fatal ∧ rec0.cls = 2) :=
  by decide +kernel

/-! ### Memory, near caches and walks -/

/-- A polder of CD 0 and CD 1, with an ordered MUPDATE of both in execution. -/
def paired : State :=
  modPolder (invoked (fun v => { v with descs := [(0, .inExec)] }) [(0x1040, 0x21), (0x1041, 2), (0x1044, 2)]) 0 fun po =>
    { po with sec := { po.sec with members := 3 } }

/-- The update of `upd1` and the end marker that a source of `paired` has sent, its update under tag 5, which arrives in time. -/
def sent (src : Nat) (upd : Option MemUpdate) : Flight :=
  { win := { win1 with src := src }, upd := upd, tag := upd.map fun _ => 5, early := false, ret := .none }
def sentTag (src : Nat) : TagEntry :=
  { num := 5, gen := 0, kind := 2, src := src, dest := 0, addr := 0, ls := lsDevice 0, issue := 0, deadline := 9, host := none, req := .descUpdate 0 0,
    work := .none }
def flown (src : Nat) (upd : Option MemUpdate) : State :=
  let s := modOwner paired src fun ow => { ow with tags := [sentTag src] }
  { s with fabric := { s.fabric with flight := [sent src upd] } }

/-- A request by a core, a descriptor update in execution, and Reeve at the last 8 bytes of a half atom; one whose frame is being copied, one that comes
too late, one beside the polder's memory and one on an admitted image. -/
def readR : MemReq := { rq .reeve with pa := 0x78 }
def farR : MemReq := { rq .reeve with pa := 2 ^ 40, age := 199992 }

theorem soundN : MemSound mapped 0 0 := ⟨by decide +kernel, by decide +kernel, fun _ _ => rfl⟩

theorem wit_MemoryResults_requests :
    (∀ w ∈ [false, true], ∀ q ∈ [Requester.reeve, .core 0],
      Arrives mapped { readR with req := q } w ∧ frameHeld mapped readR.pa = false ∧ readR.age + 8 < mapped.phiro.txnTimeout * dtUs) ∧
    (let s := { mapped with health := { mapped.health with copying := [2 ^ 28] } }
     ∀ w ∈ [false, true], Arrives s farR w ∧ frameHeld s farR.pa = true) ∧
    Arrives mapped farR true ∧ frameHeld mapped farR.pa = false ∧ mapped.phiro.txnTimeout * dtUs ≤ farR.age + 8 := by
  unfold Arrives; exact ⟨by decide +kernel, by decide +kernel, by decide +kernel⟩

theorem wit_MemoryResults_breaks :
    (∀ pa ∈ [2 ^ 36, 0x1000],
      let r : MemReq := { readR with req := .core 0, pa := pa }
      inAtom r.pa r.len = true ∧ reqLive mapped r.req = true ∧ stackShut mapped 0 r.req = false ∧
        reqBroken mapped r.pa r.len true r.req = some (if pa = 0x1000 then vImage else vOutside)) := by decide +kernel

theorem wit_MemoryResults_updates :
    updOk upd1 = true ∧ mapped.fabric.applied.contains (homeDie upd1.pa, upd1.tag) = false ∧
    { mapped with fabric := { mapped.fabric with applied := [(0, 0)] } }.fabric.applied.contains (homeDie upd1.pa, upd1.tag) = true ∧
    ∀ age ∈ [199991, 199992], Arrives mapped (updReq mapped .reeve upd1 age true) true ∧ frameHeld mapped upd1.pa = false ∧
      (age + 8 < mapped.phiro.txnTimeout * dtUs ↔ age = 199991) := by
  unfold Arrives; exact ⟨by decide +kernel, by decide +kernel, by decide +kernel, by decide +kernel⟩

theorem wit_MemoryResults_sound : MemSound mapped 0 0x78 ∧ MemSound mapped (reqSrc mapped .reeve) upd1.pa :=
  ⟨soundM, by decide +kernel, by decide +kernel, fun _ _ => rfl⟩

/-- The lowest source, whose update is applied, and one that waits, whose tag is freed; an end marker of both; an adder that has 64 windows. -/
theorem wit_MemoryResults_ordered :
    (∀ src ∈ [0, 1], ∀ upd ∈ [some upd1, none],
      let s := flown src upd
      let f := sent src upd
      let srcs := winSources s 0 0
      srcs.contains f.win.src = true ∧ flightTag s f = (f, s) ∧ flightInTime s f = true ∧
        (s.fabric.flight.find? (fun f => f.win == { win1 with src := src } && !f.early && f.upd.any fun x => { x with tag := upd1.tag } == upd1) =
          if upd = none then none else some f) ∧
        (s.fabric.flight.find? (fun f => f.win == { win1 with src := src } && !f.early && f.upd.isNone) = if upd = none then some f else none) ∧
        winRoom s f.win = true ∧ (f.tag = none ↔ upd = none) ∧ (∀ x, f.upd = some x → frameHeld (putFlight s f (some f)) x.pa = false) ∧
        winReady (putFlight s f (some f)) srcs f = (src == 0 || upd == none) ∧ winBuffered (putFlight s f (some f)) 0 < 4096) ∧
    (let s := { flown 0 none with fabric := { (flown 0 none).fabric with windows := (List.range 64).map fun k => { adder := 0, p := 0, i := k + 1, sub := 0, ends := [] } } }
     winRoom s win1 = false) ∧
    (let f : Flight := { sent 0 (some upd1) with tag := none }
     let s := { paired with phiro := { paired.phiro with tags := [] }, fabric := { paired.fabric with flight := [f] } }
     (flightTag s f).1 = f ∧ winRoom s win1 = true ∧ flightInTime (flightTag s f).2 f = true) := by
  decide +kernel

theorem wit_MemoryResults_applied :
    (sent 0 (some upd1)).upd = some upd1 ∧ (sent 0 (some upd1)).ret = .none ∧ updOk upd1 = true ∧ MemSound paired 0 upd1.pa :=
  ⟨rfl, rfl, by decide +kernel, by decide +kernel, by decide +kernel, fun _ _ => rfl⟩

/-- A far frame, its last but one in a share, one being copied with an access held, and what a scrub and a package ask for. -/
theorem wit_MemoryResults :
    (∀ used ∈ [0, reserveFrames - 2],
      let pa := 2 ^ 40
      let s := { live with health := { live.health with frameErr := [(pa / 4096, 16)], reserveUsed := tset 0 [] (homeDie pa) used } }
      isFar pa = true ∧ 16 ≤ tget 0 s.health.frameErr (pa / 4096) ∧
        s.health.copying.contains (pa / 4096) = false ∧ tget 0 s.health.reserveUsed (homeDie pa) = used ∧
        (used + 257 ≤ reserveFrames ∨ (reserveFrames < used + 257 ∧ used + 1 < reserveFrames))) ∧
    (∀ held ∈ [[], [(0, HeldAcc.read farR)]],
      let s := { live with health := { live.health with copying := [2 ^ 28], heldAcc := held } }
      s.health.copying.contains (2 ^ 40 / 4096) = true ∧ s.health.heldAcc = held ∧ (polder s 0).vqueue = [] ∧ (polder s 1).vqueue = [] ∧
        frameHeld { s with health := { s.health with copying := s.health.copying.filter (· ≠ 2 ^ 28) } } farR.pa = false) ∧
    ({ live with kiln := { live.kiln with en := true } }.kiln.en = true ∧ isNear 0x78 = true ∧ isFar (2 ^ 40) = true ∧ live.power.trip = false ∧
      live.power.rstLow = false) := by
  decide +kernel

/-- Near caches of CD 23 in every STATE, and a flush; requests that hit, that lack permission, that join a walk, that take a walker and that wait. -/
theorem wit_NearCacheAndWalkResults :
    (∀ st ∈ [0, 1, 2, 3], ∀ ok ∈ [false, true],
      let s := modNc live 23 fun nc => { nc with
        state := st, invOk := ok, flushBusy := ok, lines := [{ atom := 0x5C00000, way := 0, victim := false, dirty := true, perr := 0, stale := [] }] }
      (ncOf s 23).state = st ∧ (ncOf s 23).invOk = ok ∧ (ncOf s 23).flushBusy = ok ∧ ∀ l ∈ (ncOf s 23).lines, l.perr = 0 ∧ lineLost l = false) ∧
    (let q : XlatReq := { cd := 0, p := 0, space := 0, asid := 0, va := 0x78, access := 1, user := false, req := .reeve, cls := 2 }
     let s := runs []
     reqValid s q = true ∧
     (∀ leaf ∈ [0x400003F, 0x4000003],
       let e : Tlb := { p := 0, asid := 0, ispace := false, page := 0, level := 2, pte := BitVec.ofNat 64 leaf }
       let t := { s with xlat := { s.xlat with central := [e] } }
       reqValid t q = true ∧ (tlbFind q t.xlat.central).map (·.1) = some e ∧
         judge t q e.pte e.level = if leaf = 0x400003F then .ok 0x4000078 else .perm) ∧
     (tlbFind q s.xlat.central = none ∧ spaceOn s q = true ∧ s.xlat.walks = [] ∧ s.xlat.waiting = [] ∧ waitFull s = false ∧
       0 < min 32 (33 - s.xlat.walkersOut.length) ∧ (walkTag { s with xlat := { s.xlat with waiting := [q] } } q (freeWalk s)).isSome = true) ∧
     (let t := modCore s 0 fun c => { c with itb := 0, dtb := 0 }
      spaceOn t { q with space := 1, asid := 1 } = false ∧ reqValid t { q with space := 1, asid := 1 } = true) ∧
     (let t := { s with phiro := { s.phiro with tags := [] } }
      walkTag { t with xlat := { t.xlat with waiting := [q] } } q (freeWalk t) = none) ∧
     (let t := { s with xlat := { s.xlat with walks := [{ id := 0, reqs := [{ q with va := 0x1FFFFF }] }] } }
      (∃ w ∈ t.xlat.walks, w.reqs.any (sameMiss q) = true) ∧ ∀ w ∈ t.xlat.walks, q ∉ w.reqs) ∧
     (let t := { s with xlat := { s.xlat with walks := (List.range 32).map fun k => { id := k, reqs := [{ q with va := (k + 1) * 2 ^ 21 }] } } }
      (∀ w ∈ t.xlat.walks, w.reqs.any (sameMiss q) = false) ∧ min 32 (33 - t.xlat.walkersOut.length) ≤ t.xlat.walks.length) ∧
     (tlbFind q (nearCopy s q) = none ∧ s.xlat.local_ = [] ∧ tget [] s.xlat.walkCache q.cd = [] ∧ q.cd < 24) ∧
     ((walkRoot s q).1.fin = .leaf 0x400003F 2 ∧ judge (walkRoot s q).2 q 0x400003F 2 = .ok 0x4000078 ∧ (walkRoot s q).2.xlat.waiting = []) ∧
     (let q := { q with va := 0x40000000, req := .hostRead 0 }
      (walkRoot s q).1.fin = .absent 0x20008 1 ∧ (walkRoot s q).2.xlat.waiting = []) ∧
     (let q := { q with req := .descriptor 0 0 }
      (walkRoot s { q with va := 0x40000000 }).1.fin = .absent 0x20008 1 ∧ (walkRoot s q).2.xlat.waiting = []) ∧
     (let w : Walk := { id := 0, reqs := [q] }
      { s with xlat := { s.xlat with walks := [w] } }.xlat.walks.find? (fun x => x.id == w.id) = some w)) := by
  decide +kernel

/-! ### The fabric -/

def redKey0 : RedKey := { hub := 0, p := 0, i := 0, seg := 0, op := 0, fmt := 1 }

/-- A CALLRED of two members in execution. -/
def reducing : State :=
  modPolder (invoked (fun v => { v with descs := [(0, .inExec)], reds := [(0, 4, 0)] }) [(0x1040, 0x30), (0x1068, 0x10)]) 0 fun po =>
    { po with sec := { po.sec with members := 3 } }

/-- A flit whose CRC is right. -/
def goodFlit : Flit := { flit1 with crc := 0xac98195a }

/-- A direction between whose sender's oldest flit and the receiver's next lie `n` flits, the next one 4095. -/
def dirN (n : Nat) (asked : Bool) : LinkDir := { rxNext := 4095, txNext := 4095, acked := 4095 - n, asked := asked }

set_option maxRecDepth 20000 in
theorem wit_FabricResults_flits : flitCrcOk goodFlit = true ∧ flitCrcOk flit1 = false := by decide +kernel

/-- Link 235 in each state that a clause asks for: the next flit, one past the buffer, one delivered before and one past a gap, while replay has been
asked for and before; the eighth and the ninth replay request; a retrain with a lane to replace and without. -/
theorem wit_FabricResults_links :
    (live.power.rstLow = false ∧ ∀ back ∈ [false, true], ∀ asked ∈ [false, true], ∀ d ∈ [dirN 5 asked, { dirN 5 asked with rxNext := 0 },
        { dirN 5 asked with rxNext := 4094 }, { dirN 5 asked with acked := 3839 }],
      let s := modLink live 235 fun l => { l.withDir back d with state := 2 }
      let l := linkAt s 235
      let n := (goodFlit.seq + 4096 - d.acked) % 4096
      s.power.rstLow = false ∧ l.state = 2 ∧ l.dir back = d ∧ (n < 256 ↔ d.acked ≠ 3839) ∧ (goodFlit.seq = d.rxNext ↔ d.rxNext = 4095) ∧
        (d.acked ≠ 3839 → goodFlit.seq ≠ d.rxNext → (n < (d.rxNext + 4096 - d.acked) % 4096 ↔ d.rxNext = 0))) ∧
    (∀ n ∈ [7, 8], ∀ re ∈ [none, some 0],
      let s := modLink live 235 fun l => { l with state := 2, window := List.replicate n live.dt, retrainEnd := re, fwd := dirN 5 true }
      (linkAt s 235).state = 2 ∧ ((linkAt s 235).dir false).asked = true ∧ ((linkAt s 235).dir false).rxNext = 4095 ∧
        ((linkAt s 235).window.filter fun t => s.dt < t + 2 * dtUs).length = n ∧ (linkAt s 235).retrainEnd = re ∧ (re = some 0 → s.dt ≤ 0 + 2 * dtUs)) ∧
    ((linkAt (modLink live 235 fun l => { l with state := 4 }) 235).state = 4 ∧ (linkAt (modLink live 235 fun l => { l with state := 1 }) 235).state = 1 ∧
      (linkAt (modLink live 235 fun l => { l with state := 1 }) 235).newLane = none ∧ live.fabric.owners = []) ∧
    (let s := modLink live 235 fun l => { l with state := 1, newLane := some (63, 66) }
     (linkAt s 235).state = 1 ∧ (linkAt s 235).newLane = some (63, 66)) := by
  decide +kernel

/-- An outstanding tag of CD 0. -/
def tag5 (kind : Nat) (req : Requester) (work : TxWork) : TagEntry :=
  { num := 5, gen := 63, kind := kind, src := 0, dest := 1, addr := 0, ls := lsDevice 0, issue := 0, deadline := 9, host := none, req := req, work := work }

/-- A hub that leaves; an issue broadcast that waits for its acknowledgement, in time and late; reductions that find a slot, open one, or wait for
one, each with a free tag; a stalled issuer, with a tag free and with none; an outstanding tag that a response frees, and one it does not. -/
theorem wit_FabricResults :
    (let s := { live with fabric := { live.fabric with hubPend := [1] } }
     s.fabric.hubPend.contains 1 = true ∧ (∀ p, p < 24 → (polder s p).run = none) ∧ s.fabric.hub0 = true ∧ s.fabric.hub1 = true) ∧
    (∀ dt ∈ [9, 10],
      let s := { modOwner live 0 fun ow => { ow with tags := [tag5 5 (.core 0) .none] } with dt := dt }
      named s 0 = true ∧ s.power.rstLow = false ∧ (owner s (leadOf s 0)).tags.find? (fun t => t.kind == 5) = some (tag5 5 (.core 0) .none) ∧
        (s.dt ≤ (tag5 5 (.core 0) .none).deadline ↔ dt = 9)) ∧
    (∀ src ∈ [0, 1], redOk reducing redKey0 src [1, 0, 0, 0] = true ∧ bundleLost reducing src 0 = false ∧ tagFor reducing src (.descriptor 0 0) = true ∧
      (takeTag reducing src { kind := 6, dest := 29, addr := 0, ls := lsDesc reducing 0 0 0 src, req := .descriptor 0 0, work := .red redKey0 }).isSome = true ∧
      reducing.fabric.slots.any (·.key == redKey0) = false ∧ mayOpen reducing redKey0 = true) ∧
    (let s := { reducing with fabric := { reducing.fabric with slots := [{ key := redKey0, parts := [(0, [1, 0, 0, 0])] }] } }
     redOk s redKey0 1 [1, 0, 0, 0] = true ∧ s.fabric.slots.any (·.key == redKey0) = true) ∧
    (let s := { reducing with fabric := { reducing.fabric with slots := (List.range 32).map fun n => { key := { redKey0 with i := n + 1 }, parts := [] } } }
     redOk s redKey0 0 [1, 0, 0, 0] = true ∧ s.fabric.slots.any (·.key == redKey0) = false ∧ mayOpen s redKey0 = false) ∧
    (let r : Reduction := { key := redKey0, parts := [(0, [1, 0, 0, 0]), (1, [2, 0, 0, 0])] }
     let s := { reducing with fabric := { reducing.fabric with slots := [r] } }
     s.fabric.slots.find? (·.key == redKey0) = some r ∧ s.fabric.redWait = [] ∧ tagFor s 29 (.descriptor 0 0) = true ∧
       ∀ c ∈ members s 0, (tfind r.parts c).isSome = true ∧ bundleLost s c 0 = false) ∧
    (∀ tags ∈ [live.phiro.tags, []],
      let x : Waiter := { kind := 0, dest := 1, addr := 0, ls := lsDevice 0, req := .reeve, first := false, granted := false }
      let s := modOwner { live with phiro := { live.phiro with tags := tags } } 31 fun ow => { ow with waiters := [x] }
      nextWaiter (owner s 31).waiters = some x ∧
        (tagsInUse (owner s 31) + ((owner s 31).waiters.filter (·.granted)).length < tagCount s 31 ↔ tags ≠ [])) ∧
    (∀ x ∈ [tag5 0 .reeve .none, tag5 0 (.hostRead 0) (.data [7]), tag5 4 (.walker 0) (.walk 0)],
      let s := modOwner live 0 fun ow => { ow with tags := [x] }
      tagAt s 0 5 = some x ∧ s.dt ≤ x.deadline ∧ (answerable s x = false ↔ x.kind = 4) ∧ connUp s 0 = true) := by
  decide +kernel

/-! ### The host port and the binding -/

/-- `mapped` whose port has trained and whose input is on. -/
def onPort (f : Port → Port) : State := { mapped with port := f mapped.port, power := { mapped.power with input := .on, bootStep := 6 } }

/-- The link trains and goes down; frames of the largest length and of one byte more; a request in range, and at index 64; RDMA of the last byte
of a page and of none; the pause thresholds. -/
theorem wit_PortResults : mapped.power.rstLow = false ∧ mapped.port.link = 2 ∧ mapped.port.bindState = 2 ∧
    (∀ n ∈ [5, 6],
      let s := { onPort fun o => { o with link := 1 } with power := { mapped.power with input := .on, bootStep := n } }
      s.power.rstLow = false ∧ s.port.link ≠ 2 ∧ s.power.input = .on ∧ s.reeve.recovery = false ∧ s.power.bootStep = n) ∧
    (let f : Frame := { len := mapped.phiro.eth.mtu + 22, tags := 1, fcsOk := true, from_ := peer1, kind := .roce 0 true }
     f.len ≤ mapped.phiro.eth.mtu + 22 ∧ f.tags < 2 ∧ connUp mapped 0 = true ∧ (conn mapped 0).lastCnpTx = none ∧ mapped.port.host = some f.from_ ∧
       mapped.phiro.eth.mtu + 22 < { f with len := f.len + 1 }.len) ∧
    (let s := { mapped with reeve := { mapped.reeve with net4 := [1, 2, 3, 4, 32], net6 := List.replicate 16 1 ++ [128] } }
     (ip4 s).isSome = true ∧ (ip6 s).isSome = true) ∧
    (reqRefused mapped { creq1 with index := 63 } = false ∧ reqRefused mapped { creq1 with index := 64 } = true ∧
      reqRefused mapped { creq1 with index := 0 } = true) ∧
    ((conn mapped 0).open_ = true ∧ (conn mapped 0).peer = peer1 ∧ mapped.port.host ≠ some farIp ∧ connUp mapped 0 = true) ∧
    ((rdmaWriteTo mapped 0 0xFE 0x77 [1]).1 = .ok [] ∧ (rdmaWriteTo mapped 0 0 0 []).1 = .ok [] ∧
      (rdmaReadFrom mapped 0 0xFE 0xFF 1 []).1 = .ok [0] ∧
      (rdmaReadFrom mapped 0 0 0 0 []).1 = .ok [] ∧
      (0x100 : Word32).toNat / 256 ≠ mapped.port.keychk) ∧
    (let s := { mapped with phiro := { mapped.phiro with eth := { mapped.phiro.eth with pfcEn := true, pfcPrio := 0x80 } } }
     s.phiro.eth.pfcEn = true ∧ s.phiro.eth.pfcPrio.getLsbD 7 = true ∧ s.port.pfcAsk.getLsbD 7 = false ∧ 6 * 2 ^ 20 < 8 * 2 ^ 20) ∧
    (let t : TagEntry :=
      { num := 5, gen := 63, kind := 1, src := 24, dest := 24, addr := 0, ls := lsDevice 0, issue := 0, deadline := 9, host := some (0, 0, []), req := .reeve, work := .none }
     let s := modOwner mapped 24 fun ow => { ow with tags := [t] }
     (owner s 24).tags.find? (fun t => t.num == 5 && t.host.isSome) = some t ∧ connUp s 0 = true ∧ s.dt ≤ t.deadline ∧ t.deadline < { s with dt := 10 }.dt) ∧
    (let s := modConn mapped 0 fun k => { k with rate := 1 / 2 }
     connUp s 0 = true ∧ (conn s 0).rate < 1) := by
  decide +kernel

/-- A training attempt in each mode of each speed; an RDMA READ that waits for a tag of NW, 64 of them, and messages behind them; no lane of a link
that is down. -/
theorem wit_PortResults_queue :
    (∀ n ∈ [0, 1, 2], ∀ e ∈ [(1, 8), (2, 8), (3, 4), (4, 4), (5, 2)],
      let s := { onPort fun o => { o with link := 1, tryMode := n } with phiro := { mapped.phiro with eth := { mapped.phiro.eth with speed := 0 } } }
      (portModes s).getD (s.port.tryMode % (portModes s).length) 0 = e.1 → e ∈ [(1, 8), (2, 8), (3, 4), (4, 4), (5, 2)]) ∧
    ((portModes (onPort id)).getD 0 0 ∈ [1, 2, 3, 4, 5]) ∧
    (∀ k ∈ [1, 64],
      let x : RdmaOp := .read 0xFE 0x78 8 []
      let s := modConn { mapped with phiro := { mapped.phiro with tags := [] } } 0 fun c => { c with ops := List.replicate k x }
      connUp s 0 = true ∧ readsOut s 0 = k ∧ (conn s 0).ops.head? = some x ∧
        (opGo (modConn s 0 fun c => { c with ops := c.ops ++ [.send none] }) 0 x).1.isSome = true ∧
        (opGo (modConn s 0 fun c => { c with ops := c.ops ++ [.bad] }) 0 x).1.isSome = true) := by
  decide +kernel

/-- Every step of the exchange in its place; a bound host's 10 s; the sideband. -/
theorem wit_BindingResults :
    (∀ n ∈ List.range 8, ∀ owned ∈ [false, true],
      let s := { onPort fun o => { o with bindState := 0, host := none, bindStep := n } with
        reeve := { mapped.reeve with owner := if owned then some (1, 2) else none } }
      portUp s = true ∧ s.port.bindState ≠ 2 ∧ connUp s 0 = true ∧ (conn s 0).peer = peer1 ∧ s.port.bindStep = n ∧
        s.reeve.owner.isSome = owned ∧ (conn s 0).open_ = true) ∧
    (let s := { onPort id with reeve := { mapped.reeve with sbStep := 3, session := some true, upd := 2 } }
     s.power.input = .on ∧ s.reeve.recovery = false ∧ s.reeve.frozen = false ∧ 3 ≤ s.reeve.sbStep ∧ s.reeve.session = some true ∧
       s.reeve.update = none ∧ s.reeve.upd = 2 ∧ s.reeve.nvBad.contains (if s.reeve.runSlot then 2 else 3) = false ∧ 0xB0 ∈ sensorIds) := by
  decide +kernel

/-- What BIND of an owned device asks for: the claimed address, and a signature; whether it verifies is the uninterpreted check's. -/
theorem wit_BindingResults_owner (h : ∃ g, ecVerify (1, 2) (Config.bindDigest [] 1 2) g = true) :
    ∃ g, peer1.mac = 1 ∧ peer1.ip = 2 ∧ ecVerify (1, 2) (Config.bindDigest [] 1 2) g = true := h.imp fun _ h => ⟨rfl, rfl, h⟩

/-! ### Spares, power, reset -/

/-- A unit of a core out of service and a walker; thresholds at 4, 64 and 16 and below; a swap that may take effect and one that waits; a copy. -/
theorem wit_SpareResults :
    (let s := { live with kiln := { live.kiln with en := true } }
     s.kiln.en = true ∧ s.kiln.late = false ∧ s.power.rstLow = false ∧
       (∀ i ∈ [0, 32], kilnTests { type := 10, die := 24, index := i } = true ∧ testable s { type := 10, die := 24, index := i } = true) ∧
       (insertNat s.xlat.walkersOut 31).length < 33) ∧
    (∀ n ∈ [3, 4],
      let key := 23 * 2 ^ 32 + 5
      let s := { live with health := { live.health with rowHits := [(key, List.replicate n 0)] } }
      ((tget [] s.health.rowHits key).filter fun t => s.dt < t + 86400 * dtS).length = n) ∧
    (cdAt (modCd live 23 fun c => { c with rowCopy := [5] }) 23).rowCopy.contains 5 = true ∧
    (let s := { live with health := { live.health with dieRepairs := [(23 * 16 + 0, 64)] } }
     (spareMap s 23).dieOut ≠ 0 ∧ 64 ≤ tget 0 s.health.dieRepairs (23 * 16 + 0) ∧ (spareMap s 23).badDie = [] ∧ (cdAt s 23).swaps = []) ∧
    (let s := { live with health := { live.health with wayHits := [(23 * 32, List.replicate 16 0)] } }
     (spareMap s 23).badWay = [] ∧ 0 ≠ (spareMap s 23).wayOut ∧ s.health.wayDue.contains (23 * 32) = false ∧
       ((tget [] s.health.wayHits (23 * 32)).filter fun t => s.dt < t + 86400 * dtS).length = 16) ∧
    (∀ cd ∈ [0, 23],
      let w : Swap := { type := 5, index := 0, rotation := false, reason := 1 }
      let s := modCd live cd fun c => { c with swaps := [w], copying := [w] }
      (cdAt s cd).swaps = [w] ∧ (cdAt s cd).copying ≠ []) := by
  decide +kernel

theorem wit_SpareResults_swaps :
    (let w : Swap := { type := 5, index := 0, rotation := false, reason := 1 }
     swapNow (modCd live 23 fun c => { c with swaps := [w] }) 23 w = true ∧ swapNow (modCd live 0 fun c => { c with swaps := [w] }) 0 w = false) := by
  decide +kernel

/-- Whatever value the signature of a step has, a unit can give it and can miss it. -/
theorem wit_SpareResults_kiln (step : Nat) : (∃ got, got % 2 ^ 32 = Config.kilnExpected step % 2 ^ 32) ∧ ∃ got, got % 2 ^ 32 ≠ Config.kilnExpected step % 2 ^ 32 :=
  ⟨⟨_, rfl⟩, ⟨Config.kilnExpected step + 1, by omega⟩⟩

/-- Each state of the input, a reset pending for each cause, RST_N low, a power budget with its boundary values, and a boot that reaches its
end and one that recovery holds. -/
theorem wit_PowerResults :
    (let s := livePower fun w => { w with input := .on }
     s.power.input = .on ∧ s.reeve.frozen = false ∧ s.phiro.loaded = true ∧ 0x1F ∈ sensorIds ∧ (114999 : Int) < 115000 ∧
       coolProfile 6 ≠ coolProfile 5 ∧ s.power.rstLow = false ∧ s.power.rstReq = none ∧ s.power.bootStep < 5 ∧ s.power.pstep = 0) ∧
    (∀ c ∈ [1, 2, 3, 4, 5, 6],
      let s := livePower fun w => { w with input := .on, rstReq := some c }
      s.power.rstReq = some c ∧ s.power.rstLow = false) ∧
    (let s := livePower fun w => { w with input := .on, pstep := 3, overDt := [(2, 0)] }
     0 < s.power.pstep ∧ ∀ t, tfind s.power.overDt (s.power.pstep - 1) = some t → t = 0) ∧
    (∀ n ∈ [0, 1, 2],
      let s := livePower fun w => { w with input := if n = 0 then .shed else if n = 1 then .absent else .softStart }
      s.power.rstReq = none ∧ s.power.input = if n = 0 then .shed else if n = 1 then .absent else .softStart) ∧
    (livePower fun w => { w with rstLow := true }).power.rstLow = true ∧
    (∀ rec_ ∈ [false, true],
      let s := { livePower fun w => { w with input := .on } with reeve := { live.reeve with recovery := rec_ } }
      s.power.rstLow = false ∧ s.power.rstReq = none ∧ s.power.bootStep < 5 ∧ tripHolds s = false ∧ s.reeve.recovery = rec_) := by
  decide +kernel

/-! ### The conditions that tags, homes, queues and wakes add: each is met -/

/-- `live` with polder 0 on CD 0 and CD 1. -/
def two : State := livePol fun po => { po with sec := { po.sec with members := 3 } }

theorem fetched2 : Fetched two 0 two := ⟨by decide +kernel, rfl⟩

/-- An instruction reaches a polder of one CD at once, and one of two by a broadcast. -/
theorem wit_Issues : (∃ g, Issues (vec 2 3 0 0) 0 (vec 2 3 0 0) g) ∧ (∃ g, Issues two 0 two g) ∧ 1 < nMembers two 0 :=
  ⟨⟨_, fetchedV, by decide +kernel, .inl ⟨by decide +kernel, rfl⟩⟩,
    ⟨_, fetched2, by decide +kernel, .inr ⟨by decide +kernel, 0, _, _, by decide +kernel, by decide +kernel, by decide +kernel, rfl, rfl⟩⟩, by decide +kernel⟩

/-- The ring commands' tags and homes, an XLT_INV's last store, an OUT from U mode and from K mode, and doorbells that fetch. -/
theorem wit_HostCommands_tags :
    tagFor live 24 (.ring 0) = true ∧ physOpen live 0 1 = true ∧ mayDrain mapped 0 8 = none ∧ polderTags mapped 0 = false ∧
    (∃ r t, updateAtom (dropWaiter live 24 (· == .ring 0)) { src := 24, ls := lsCmd live hd, cls := none, p := 0xFF, req := .ring 0 } 0 0 3 [1] 0 = (.ok r, t)) ∧
    (let pa := (ring live 0).base * 4096 + 64 * ((ring live 0).head % 2 ^ (ring live 0).size)
     physOpen live pa 64 = true ∧ frameHeld live pa = false ∧
       ∃ b t, readSpan (dropWaiter { live with mem := [(pa, 1)] } 24 (· == .ring 0)) (ringCtx live { ring := 0, pol := 0xFF, cookie := 0 }) (pieces pa 64) = (.ok b, t)) ∧
    (∀ u ∈ [false, true],
      let s := liveCore fun c => { c with user := u }
      coreReady s 0 = true ∧ (core s 0).user = u ∧ ioRange 0x4800 = true ∧ tagFor s (leadOf s 0) (.core 0) = true ∧ (core s 0).sb = []) :=
  ⟨by decide +kernel, by decide +kernel, by decide +kernel, by decide +kernel, ⟨_, _, rfl⟩, ⟨by decide +kernel, by decide +kernel, _, _, rfl⟩, by decide +kernel⟩

/-- The core's requests find tags and homes, with no store buffered and with one. -/
theorem wit_CoreTags :
    (∀ n ∈ [0, 1],
      let e : SbEntry := { va := 0x78, pa := 0x4000078, local_ := false, data := List.replicate 8 1 }
      let s := modCore mapped 0 fun c => { c with sb := List.replicate n e }
      mayAsk s 0 0 0x4000078 = none ∧ mayAsk s 0 2 0x4000078 = none ∧ mayDrain s 0 8 = none ∧ mayDrain s 0 n = none ∧
        tagFor s (leadOf s 0) (.core 0) = true ∧ imageHit s [(0x4000078, 8)] = false) ∧
    (∃ d g, readFrame (leaveLine (liveCore fun c => { c with regs := [(31, 0xFFFFFFFFFFE0)] }) 0) 0 0xFFFFFFFFFFE0 = (some d, g)) :=
  ⟨by decide +kernel, _, _, rfl⟩

/-- Elements in the core-local SRAM and at a home are not held. -/
theorem wit_VectorMemoryResults_held :
    let s := mapped
    let x := vctx s 0
    (∀ l ∈ [Loc.sram 0, .mem 0x4000078], vHeld s 0 x ({ e := 0, va := 0x78, n := 4, lo := 0, w := 4 }, .ok [(l, 4)]) = none) := by decide +kernel

/-- Instructions of the members' queues before VWAIT and VADD: one, and 32. -/
def queued (n : Nat) : State :=
  let e : VqEntry := { maj := 0x3A, func := 0, op := vo false false 0 1 2 3, regs := [], vl := 0, vtype := 0, fpctl := 0, asid := 0, user := false }
  livePol fun po => { po with vqueue := List.replicate n e }

theorem wit_VectorUnitResults_queue : ∀ n ∈ [1, 32],
    coreReady (queued n) 0 = true ∧ (polder (queued n) 0).vqueue ≠ [] ∧ (polder (queued n) 0).vqueue.length = n ∧ nMembers (queued n) 0 ≤ 1 := by
  decide +kernel

theorem wit_VectorUnitResults_fetch : Fetched (queued 1) 0 (queued 1) ∧ Fetched (queued 32) 0 (queued 32) :=
  ⟨⟨by decide +kernel, rfl⟩, by decide +kernel, rfl⟩

/-- One operand of VPUSHW with elements and with none; operands of the matrix instructions that no CLOSING group writes. -/
theorem wit_UnitOperands : (vctx (vec 2 3 0 0) 0).c.vl ≠ 0 ∧ (vctx (vec 2 0 0 0) 0).c.vl = 0 ∧ 2 ≤ (vctx (vec 2 3 0 0) 0).k ∧
    opndWaits (polder live 0) 1 1 1 0 0 = false := by decide +kernel

/-- Operands that the table of special values does not list: one with a result in range, and one of VEXP that overflows. -/
theorem wit_VectorFunctions_bound :
    transcSpecial 0 1 0x40000000 = none ∧ (fDec 1 0x40000000 = .fin false 8388608 (-22)) ∧ (transcRef 0 1 false 8388608 (-22)).v % fSign 1 < fInf 1 ∧
    transcSpecial 0 1 0x43000000 = none ∧ (fDec 1 0x43000000 = .fin false 8388608 (-16)) ∧ (transcRef 0 1 false 8388608 (-16)).v % fSign 1 = fInf 1 := by
  decide +kernel

/-- A MFILL of `runs` whose position is Ready, and one that waits for the wake of its position. -/
def awake (st : DescState) (pos : PosState) : State :=
  modCd (modRun (runs (desc3 0x22 0 [])) 0 fun v => { v with descs := [(0, st)] }) 0 fun c => { c with pos := [(0, pos)] }

theorem wit_DescriptorResults_wake :
    (let s := awake .waitWake .ready
     (running s 0).any (fun x => descState x.1 0 == some .waitWake && kindIs 0x22 (descAt s x.2 0) && !queueFrozen (polder s 0) 2 && !atFault s 0 0 &&
       posReady s 0 x.2 0 && match dOpen 0 0 x.2 x.1.req.pb s with
         | (.ok c, t) => match mfillBody c t with
           | (.ok _, _) => true
           | (.error _, _) => false
         | (.error _, _) => false) = true) ∧
    (∀ pos ∈ [PosState.ready, .off],
      let s := modRun (awake .inExec pos) 0 fun v => { v with descs := [] }
      (running s 0).any (fun x => mayIssue s 0 x.2 x.1 0 (descAt s x.2 0) && match openDesc descWords 0 0 x.2 x.1.req.pb (satisfy s 0 0 x.2 x.1 (descAt s x.2 0)) with
        | (.ok c, t) => posReady (beginIssue t 0 0 x.1 c.d) 0 x.2 0 == (pos == .ready)
        | (.error _, _) => false) = true) := by decide +kernel

/-- An error's invocation with no descriptor that it waits for, and with one. -/
theorem wit_SequencerResults_ends :
    (∀ st ∈ [DescState.failed, .inExec],
      let s := invoked (fun v => { v with err := some rec0, descs := [(0, st)] }) []
      (running s 0).any (fun x => x.1.err == some rec0 && x.1.descs.any (fun e => endWaits s 0 x.2 e) == (st == .inExec)) = true) := by
  decide +kernel

/-- A swap of a die of which none is pending. -/
theorem wit_SpareResults_die : (∀ w ∈ (cdAt live 23).swaps, w.type = 6 → w.rotation = true) ∧ live.reeve.nvBad.contains 4 = false := by decide +kernel

/-- A warm reset that a ring's REGW asked for, its completion acknowledged or not. -/
theorem wit_PowerResults_ask : ∀ held ∈ [[], [(lsDevice 24, [0])]],
    let s := modRing (livePower fun w => { w with input := .on, rstReq := some 6, rstAsk := some (0, 0) }) 0 fun k => { k with held := held }
    s.power.rstReq = some 6 ∧ s.power.rstAsk = some (0, 0) ∧ cplAcked s 0 = held.isEmpty := by decide +kernel

/-- R562: a settings bank reads back as it was written, and a flipped bit makes it invalid. -/
theorem test_settings_bank :
    let b : SetBank := { valid := true, seq := 8, net4 := [5, 0, 20, 10, 24], net6 := [], kilnHours := 48, kilnEn := true, bootBs := [1, 2, 3] }
    setRead (setBytes b) = b ∧ (setBytes b).take 4 = [0x53, 0x45, 0x54, 0x42] ∧
      (setRead ((setBytes b).set 36 1)).valid = false := by decide +kernel

/-- R560: a log block that reads back wrong is replaced by a spare, whose record follows; with none left the log keeps its content. -/
theorem test_log_spare :
    (let s := liveReeve fun v => { v with nvBad := [5], spareLeft := 2, logNext := 0 }
     (post s rec0).reeve.logNext = 2 ∧ (post s rec0).reeve.spareLeft = 1 ∧ (post s rec0).reeve.nvBad = []) ∧
    (let s := liveReeve fun v => { v with nvBad := [5], spareLeft := 0, logNext := 0 }
     (post s rec0).reeve.logNext = 0 ∧ (post s rec0).errors.nextSeq = s.errors.nextSeq + 1) := by decide +kernel


/-! ### Single steps, their results worked out by hand from the spec -/

/-- A part of the state after a command that answers a next state. -/
def after {α : Type} (i : Instr) (s : State) (f : State → α) : Option α := match exec i s with | .next t => some (f t) | _ => none

def g5 (s : State) : Word := gpr (core s 0) 5

/-- A sum modulo 2^64, and g0, which stays 0 (R297). -/
theorem test_add_wraps : after (.add 0 5 1 2) (regs (-1) 2 0 0) g5 = some 1 := by decide +kernel
theorem test_add_g0 : after (.add 0 0 1 2) (regs 5 2 0 0) (fun t => gpr (core t 0) 0) = some 0 := by decide +kernel
theorem test_sraW : after (.sraW 0 5 1 2) (regs 0x80000000 4 0 0) g5 = some 0xFFFFFFFFF8000000 := by decide +kernel
theorem test_mulhu : after (.mulhu 0 5 1 2) (regs (-1) (-1) 0 0) g5 = some 0xFFFFFFFFFFFFFFFE := by decide +kernel
theorem test_mulh : after (.mulh 0 5 1 2) (regs (-1) (-1) 0 0) g5 = some 0 := by decide +kernel
/-- R307: the most negative number divided by −1, and division by 0. -/
theorem test_div_overflow : after (.div 0 5 1 2) (regs 0x8000000000000000 (-1) 0 0) g5 = some 0x8000000000000000 := by decide +kernel
theorem test_div_zero : after (.div 0 5 1 2) (regs 7 0 0 0) g5 = some (-1) := by decide +kernel
theorem test_rem_zero : after (.rem 0 5 1 2) (regs 7 0 0 0) g5 = some 7 := by decide +kernel
theorem test_clz : after (.clz 0 5 1) (regs 1 0 0 0) g5 = some 63 := by decide +kernel
/-- 1.5 + 2.25 = 3.75, and 1 + 2^-24 rounds to even with Inexact. -/
theorem test_fadd : after (.fadd 0 true 5 1 2) (regs 0x3FC00000 0x40100000 0 0) g5 = some 0x40700000 := by decide +kernel
theorem test_fadd_inexact :
    after (.fadd 0 true 5 1 2) (regs 0x3F800000 0x33800000 0 0) (fun t => (g5 t, (core t 0).fpctl)) = some (0x3F800000, 1) := by decide +kernel
/-- A byte of the core-local SRAM, with and without its sign. -/
def sram80 : State := liveCore fun c => { c with regs := [(1, BitVec.ofNat 64 sramBase)], localSram := [(0, 0x80)] }
theorem test_ldB : after (.ldB 0 5 1 0) sram80 g5 = some 0xFFFFFFFFFFFFFF80 := by decide +kernel
theorem test_ldBu : after (.ldBu 0 5 1 0) sram80 g5 = some 0x80 := by decide +kernel
/-- TRAP 3 (Table 11-3 cause 4): the code in ECAUSE, pc at 0x1040, ML 7. -/
theorem test_trap :
    after (.trap 0 3) (liveCore fun c => { c with regs := [(31, 0xFFFFFFFFFFE0)], ml := 3 })
      (fun t => ((core t 0).ecause, (core t 0).pc, (core t 0).ml, gpr (core t 0) 31)) = some (0x304, 0x1040, 7, 0xFFFFFFFFFFC0) := by decide +kernel
/-- 100 elements of 64 bits with one vector slot: VLMAX 1024. -/
theorem test_setvl :
    after (.setvl 0 5 1 3) (modPolder (regs 1100 0 0 0) 0 fun po => { po with sec := { po.sec with vslots := 1 } }) (fun t => ((core t 0).vl, g5 t)) =
      some (1024, 76) := by decide +kernel
/-- Two words of v2 and v3, of which 0xFFFFFFFF + 2 wraps. -/
theorem test_vadd :
    let s := modPolder (vec 2 2 0 0) 0 fun po => [(2, 0, 0xFFFFFFFF), (2, 1, 5), (3, 0, 2), (3, 1, 6)].foldl (fun po e => vPut 1024 2 e.1 po e.2.1 e.2.2) po
    after (.vadd 0 (vo false false 0 1 2 3)) s (fun t => (vGet (polder t 0) 1024 2 1 0, vGet (polder t 0) 1024 2 1 1)) = some (1, 11) := by
  decide +kernel
/-- NW without tags: a completion waits in the device, and which tag it takes, a free choice, is not met. -/
def noTags (s : State) : State := { s with phiro := { s.phiro with tags := s.phiro.tags.set 24 0 } }

/-- NOP completes: HEAD past it. -/
theorem test_nop : after (.nop hdD) (noTags mapped) (fun t => (ring t 0).head) = some 1 := by decide +kernel
theorem test_sluiceSet : after (.sluiceSet hd 15) (noTags mapped) (fun t => sluice (polder t 0) 15) = some true := by decide +kernel
/-- The image of one MEVENT is admitted with AD_OK (0x40). -/
theorem test_admission :
    after (.admission 0) (modPolder (noTags (runs image1)) 0 fun po => { po with run := none, adm := some { cmd := some hd, slot := 1, va := 0x2000 } })
      (fun t => ((polder t 0).rcp.code, (tfind (polder t 0).slots 1).map (·.descCount), (ring t 0).head)) = some (0x40, some 1, 1) := by decide +kernel
theorem test_ncInv_enabled : after (.ncInv 3) (modNc live 3 fun nc => { nc with state := 2 }) (fun t => ((ncOf t 3).state, (ncOf t 3).invIgn)) =
    some (2, true) := by decide +kernel
/-- A flit in order: the 12-bit sequence number wraps (R463); one with a bad CRC asks for replay. -/
def linkN : State := modLink live 0 fun l => { l with state := 2, fwd := dirN 5 false }
set_option maxRecDepth 20000 in
theorem test_flitRx : after (.flitRx 0 false goodFlit []) linkN (fun t => ((linkAt t 0).fwd.rxNext, (linkAt t 0).state)) = some (0, 2) := by decide +kernel
set_option maxRecDepth 20000 in
theorem test_flitRx_bad : after (.flitRx 0 false flit1 []) linkN (fun t => ((linkAt t 0).fwd.asked, (linkAt t 0).state)) = some (true, 3) := by decide +kernel
/-- R482: a write of 8 bytes that arrives 8 counts of DT before its deadline is discarded, one count earlier it is applied. -/
theorem test_write_late : after (.memoryWrite { readR with age := 199992 } (List.replicate 8 1)) (noTags mapped) (fun t => mgetN t.mem 0x78 1) = some [0] := by
  decide +kernel
theorem test_write_inTime : after (.memoryWrite { readR with age := 199991 } (List.replicate 8 1)) mapped (fun t => mgetN t.mem 0x78 1) = some [1] := by
  decide +kernel
/-- R378: of a misaligned access from U mode to a range that K mode alone may use, the mode is checked first: the core freezes, with no exception. -/
theorem test_io_mode_first : after (.inW 0 5 1 0) (liveCore fun c => { c with user := true, regs := [(1, 0x4801)] })
    (fun t => ((polder t 0).frzCore.isSome, (core t 0).ecause)) = some (true, 0) := by decide +kernel
/-- An IP packet of the device carries ECT(0) (R491). -/
theorem test_icmpEcho : after (.icmpEcho peer1 [1, 2]) live (fun t => t.out.map fun x => (x.msg, x.ecn)) = some [(.echo [1, 2], 2)] := by decide +kernel
theorem test_icmpEcho_stranger : after (.icmpEcho { mac := 9, ip := 2 } [1]) live (fun t => (t.out, t.port.discard)) = some ([], 1) := by decide +kernel
theorem test_timer : after (.timer 0) (liveCore fun c => { c with timerCmp := 5 }) (fun t => (t.dt, (core t 0).intPend)) = some (5, 4) := by
  decide +kernel
/-- The empty queue idles: device time goes on by one count. -/
theorem test_idle : (match step State.reset with | .next t => some (t.dt, t.pending) | _ => none) = some (1, []) := by decide +kernel

end Tests
end

/-! PROOFS. How an instruction of the lead core runs once it is fetched: what its state differs in from the fetched one, and the one lemma
for every instruction that writes a register from a value of the core. -/

namespace Sys2Proof.Machine

/-! ### States that differ in one core -/

/-- `u` is `f` but for the lead core of polder `p`. -/
def OnlyCore (f u : State) (p : Nat) : Prop :=
  u = { f with cores := u.cores } ∧ ∀ n, n ≠ leadOf f p → coreAt u n = coreAt f n

theorem OnlyCore.refl (f : State) (p : Nat) : OnlyCore f f p := ⟨rfl, fun _ _ => rfl⟩

/-- The core of polder `p` is the same die's in both. -/
theorem OnlyCore.leadOf_eq {f u : State} {p : Nat} (h : OnlyCore f u p) : leadOf u p = leadOf f p := by
  rw [h.1]
  rfl

@[simp] theorem core_modCore (s : State) (p : Nat) (g : Core → Core) : core (modCore s p g) p = g (core s p) :=
  tget_tset_same Core.reset s.cores (leadOf s p) (g (core s p))

theorem coreAt_modCore_ne {s : State} {p n : Nat} (g : Core → Core) (hn : n ≠ leadOf s p) : coreAt (modCore s p g) n = coreAt s n :=
  tget_tset_ne Core.reset s.cores (leadOf s p) n (g (core s p)) hn

/-- A change of the lead core keeps the difference to it. -/
theorem onlyCore_modCore {f u : State} {p : Nat} (h : OnlyCore f u p) (g : Core → Core) : OnlyCore f (modCore u p g) p := by
  have hlead := h.leadOf_eq
  obtain ⟨hrest, hcores⟩ := h
  refine ⟨?_, fun n hn => ?_⟩
  · calc modCore u p g = { u with cores := (modCore u p g).cores } := rfl
      _ = { f with cores := (modCore u p g).cores } := by rw [hrest]
  · rw [coreAt_modCore_ne g (hlead ▸ hn), hcores n hn]

/-- An instruction that changed the core alone, and retires, leaves the core past it. -/
theorem coreIs_retire {f u : State} {p : Nat} (h : OnlyCore f u p) : CoreIs f (retire u p) p (past (core u p)) := by
  have hline : leaveLine u p = { leaveLine f p with cores := u.cores } := by
    rw [h.1]
    rfl
  refine ⟨?_, fun n hn => ?_, core_modCore (leaveLine u p) p past⟩
  · calc retire u p = { leaveLine u p with cores := (retire u p).cores } := rfl
      _ = { leaveLine f p with cores := (retire u p).cores } := by rw [hline]
  · exact (coreAt_modCore_ne (s := leaveLine u p) past (h.leadOf_eq ▸ hn)).trans (h.2 n hn)

/-! ### Issue -/

/-- A fetched instruction has its own effect. -/
theorem issue_of_fetched {s f : State} {p : Nat} (h : Fetched s p f) (g : State → State) : issue s p g = g f := by
  obtain ⟨hready, hfetch⟩ := h
  simp only [issue, hready, hfetch, if_true]

/-- R301: an instruction that writes one register leaves the core past it with that value, and nothing else changes. -/
theorem coreIs_compute (f : State) (p : Nat) (d : Reg) (v : Core → Word) :
    CoreIs f (compute p d v f) p (wrote (core f p) d (v (core f p))) := by
  have h := coreIs_retire (onlyCore_modCore (.refl f p) fun c => setGpr c d (v (core f p)))
  rwa [core_modCore] at h

/-- An instruction whose meaning is `compute` runs, once fetched, to the core that wrote the value. -/
theorem coreRuns_compute {i : Instr} {s f : State} {p : Nat} {d : Reg} {v : Core → Word} {x : Word} (h : Fetched s p f)
    (hi : exec i s = done (issue s p (compute p d v))) (hv : v (core f p) = x) : CoreRuns i s f p (wrote (core f p) d x) := by
  refine ⟨compute p d v f, ?_, hv ▸ coreIs_compute f p d v⟩
  rw [hi, issue_of_fetched h]
  rfl

end Sys2Proof.Machine

/-! PROOFS. The corners of the divisions (R307), at every width. -/

namespace Sys2Proof.Machine

section Corners

variable {n : Nat} {b : BitVec n}

theorem divS_of_zero (a : BitVec n) (hb : b = 0) : divS a b = -1 := if_pos hb
theorem divU_of_zero (a : BitVec n) (hb : b = 0) : divU a b = -1 := if_pos hb
theorem remS_of_zero (a : BitVec n) (hb : b = 0) : remS a b = a := if_pos hb
theorem remU_of_zero (a : BitVec n) (hb : b = 0) : remU a b = a := if_pos hb

theorem ne_zero_of_toInt_neg_one (hb : b.toInt = -1) : b ≠ 0 := by
  rintro rfl
  exact absurd (BitVec.toInt_zero.symm.trans hb) (by decide)

/-- The division by −1 negates, and the most negative value is its own negation. -/
theorem divS_intMin_neg_one {a : BitVec n} (ha : a = BitVec.intMin n) (hb : b.toInt = -1) : divS a b = a := by
  have hb1 : b = -1#n :=
    calc b = BitVec.ofInt n b.toInt := BitVec.ofInt_toInt.symm
      _ = BitVec.ofInt n (-(1 : Int)) := by rw [hb]
      _ = -1#n := BitVec.ofInt_neg
  rw [divS, if_neg (ne_zero_of_toInt_neg_one hb), ha, hb1, BitVec.intMin_sdiv_neg_one]

/-- A division by −1 leaves nothing. -/
theorem remS_neg_one (a : BitVec n) (hb : b.toInt = -1) : remS a b = 0 := by
  rw [remS, if_neg (ne_zero_of_toInt_neg_one hb)]
  refine BitVec.eq_of_toInt_eq ?_
  rw [BitVec.toInt_srem, hb, Int.tmod_neg, Int.tmod_one]
  exact BitVec.toInt_zero.symm

end Corners

end Sys2Proof.Machine

/-! PROOFS. The CRC step (R308): the model's bit and byte steps are those of the rule, and they keep to 32 bits. -/

namespace Sys2Proof.Machine

theorem crcBit_eq (poly c : Nat) : crcBit poly c = if c % 2 = 1 then (c / 2) ^^^ poly else c / 2 := by
  simp only [crcBit, Nat.shiftRight_eq_div_pow, Nat.pow_one]

/-- A byte's step is eight bit steps. -/
theorem crcByte_eq_repeat (poly c b : Nat) : crcByte poly c b = Nat.repeat (crcBit poly) 8 (c ^^^ b) := rfl

/-- The loop of R308 as the statement writes it. -/
theorem crcBytes_eq_foldl (poly c : Nat) (bs : List Byte) :
    crcBytes poly c bs =
      bs.foldl (fun c x => Nat.repeat (fun c => if c % 2 = 1 then (c / 2) ^^^ poly else c / 2) 8 (c ^^^ x.toNat)) c := by
  simp only [crcBytes, crcByte_eq_repeat, funext (crcBit_eq poly)]

section Bound

variable {poly : Nat} (hpoly : poly < 2 ^ 32)
include hpoly

theorem crcBit_lt {c : Nat} (hc : c < 2 ^ 32) : crcBit poly c < 2 ^ 32 := by
  have hhalf : c / 2 < 2 ^ 32 := by omega
  rw [crcBit_eq]
  split
  · exact Nat.xor_lt_two_pow hhalf hpoly
  · exact hhalf

theorem crcByte_lt {c b : Nat} (hc : c < 2 ^ 32) (hb : b < 2 ^ 32) : crcByte poly c b < 2 ^ 32 := by
  have hbit := fun {c : Nat} => crcBit_lt hpoly (c := c)
  exact hbit (hbit (hbit (hbit (hbit (hbit (hbit (hbit (Nat.xor_lt_two_pow hc hb))))))))

/-- Bits [63:32] of the result are zero. -/
theorem crcBytes_lt {c : Nat} (hc : c < 2 ^ 32) (bs : List Byte) : crcBytes poly c bs < 2 ^ 32 := by
  induction bs generalizing c with
  | nil => exact hc
  | cons b bs ih => exact ih (crcByte_lt hpoly hc (by have := b.isLt; omega))

end Bound

end Sys2Proof.Machine

/-! PROOFS. Statements of the Coxel core (chapter 9): the corners of division, the CRC step and the mode check. -/

namespace Sys2Proof.Machine

/-- R321: outside Breach the mode check of a K-mode instruction in U mode freezes the core with MODE, whatever the instruction does. -/
theorem kOnly_user {s : State} {p : Nat} (hu : (core s p).user = true) (hb : (core s p).breach = false) (w : Word32) (g : State → State) :
    kOnly p w g s = freezeCore s p 1 false 0xFFFFFFFF 0 w := by
  simp only [kOnly, hu, if_true, violate, hb, Bool.false_eq_true, if_false, vMode]

/-- A K-mode instruction fetched in U mode freezes the core. -/
theorem exec_kOnly_user {i : Instr} {s f : State} {p : Nat} {w : Word32} {g : State → State} (h : Fetched s p f)
    (hu : (core f p).user = true) (hb : (core f p).breach = false) (hi : exec i s = done (issue s p (kOnly p w g))) :
    exec i s = .next (settle (freezeCore f p 1 false 0xFFFFFFFF 0 w)) := by
  rw [hi, issue_of_fetched h, kOnly_user hu hb]
  rfl

/-- CRC32 and CRC32C write the CRC of the low bytes of gb, started from bits [31:0] of ga. -/
theorem crcStep_runs {i : Instr} {s f : State} {p poly : Nat} {d ra rb : Reg} {sz : BitVec 2} (h : Fetched s p f) (hpoly : poly < 2 ^ 32)
    (hi : exec i s = done (issue s p (compute p d fun c => crcStep poly (gpr c ra) (gpr c rb) sz))) :
    let r := crcBytes poly ((gpr (core f p) ra).toNat % 2 ^ 32) (bytesLE (2 ^ sz.toNat) (gpr (core f p) rb).toNat)
    r < 2 ^ 32 ∧ CoreRuns i s f p (wrote (core f p) d (BitVec.ofNat 64 r)) :=
  ⟨crcBytes_lt hpoly (Nat.mod_lt _ (by decide)) _, coreRuns_compute h hi rfl⟩

/-- Settles O36: the mode check stands before each of the five meanings. -/
theorem privilegeFreezes : Obligations.PrivilegeFreezes := by
  intro s f p h hu hb
  simp only [List.forall_mem_cons, List.not_mem_nil, false_implies, implies_true, and_true]
  refine ⟨?_, ?_, ?_, ?_, ?_⟩ <;> exact exec_kOnly_user h hu hb rfl

/-- Settles O18: the rule's loop is `crcBytes`, whose polynomials have 32 bits. -/
theorem crcStepResults : Obligations.CrcStepResults := by
  intro s f p d ra rb sz h
  simp only [List.forall_mem_cons, List.not_mem_nil, false_implies, implies_true, and_true, ← crcBytes_eq_foldl]
  exact ⟨crcStep_runs (poly := polyCrc32) h (by decide) rfl, crcStep_runs (poly := polyCrc32c) h (by decide) rfl⟩

/-- Settles O15: each division computes its value, and the value at each corner is known at every width. -/
theorem divisionCorners : Obligations.DivisionCorners := by
  intro s f p d ra rb h a b aw bw
  simp only [List.forall_mem_cons, List.not_mem_nil, false_implies, implies_true, and_true]
  refine ⟨fun hb => ⟨?_, ?_, ?_, ?_⟩, fun hb => ⟨?_, ?_, ?_, ?_⟩, fun ha hb => ⟨?_, ?_⟩, fun ha hb => ⟨?_, ?_⟩⟩
  · exact coreRuns_compute h rfl (divS_of_zero a hb)
  · exact coreRuns_compute h rfl (divU_of_zero a hb)
  · exact coreRuns_compute h rfl (remS_of_zero a hb)
  · exact coreRuns_compute h rfl (remU_of_zero a hb)
  · exact coreRuns_compute h rfl (congrArg sx32 (divS_of_zero aw hb))
  · exact coreRuns_compute h rfl (congrArg sx32 (divU_of_zero aw hb))
  · exact coreRuns_compute h rfl (congrArg sx32 (remS_of_zero aw hb))
  · exact coreRuns_compute h rfl (congrArg sx32 (remU_of_zero aw hb))
  · exact coreRuns_compute h rfl (divS_intMin_neg_one (BitVec.eq_of_toInt_eq ha) hb)
  · exact coreRuns_compute h rfl (remS_neg_one a hb)
  · exact coreRuns_compute h rfl (congrArg sx32 (divS_intMin_neg_one (BitVec.eq_of_toInt_eq ha) hb))
  · exact coreRuns_compute h rfl (congrArg sx32 (remS_neg_one aw hb))

end Sys2Proof.Machine

/-! PROOFS. Statements of the vector extension (chapter 10): SETVL. -/

namespace Sys2Proof.Machine

/-- An instruction that writes a register last, after it changed the core alone, leaves the core past that write. -/
theorem coreIs_retire_putReg {f u : State} {p : Nat} (h : OnlyCore f u p) (d : Reg) (v : Word) :
    CoreIs f (retire (putReg u p d v) p) p (wrote (core u p) d v) := by
  have hret := coreIs_retire (onlyCore_modCore h fun c => setGpr c d v)
  rwa [core_modCore] at hret

/-- An imm16 is a defined VTYPE[15:0] when bits [12:4] are zero, its MEW is not 0b111 and its SEW code is one of four (Table 10-2). -/
theorem vtypeOk_iff (imm : BitVec 16) :
    vtypeOk imm = true ↔ bits imm.toNat 4 9 = 0 ∧ bits imm.toNat 13 3 ≠ 7 ∧ bits imm.toNat 0 3 < 4 := by
  simp only [vtypeOk, Bool.and_eq_true, beq_iff_eq, decide_eq_true_eq, and_assoc]

/-- R338: VLMAX at SEW code `k`, whose SEW is 8 · 2^k. -/
theorem vlMax_eq (s : State) (p k : Nat) : vlMax s p k = 1024 * nMembers s p * (polder s p).sec.vslots * 64 / (8 * 2 ^ k) := by
  rw [vlMax, Nat.shiftLeft_eq]

/-- An undefined imm16 traps as a reserved opcode, with nothing changed before it (R305). -/
theorem doSetvl_undefined {imm : BitVec 16} (h : vtypeOk imm = false) (p : Nat) (d ra : Reg) (w : Word32) (s : State) :
    doSetvl p d ra imm w s = raiseExc s p cResop 0 0 false w := by
  simp only [doSetvl, h, Bool.not_false, if_true]

/-- A defined imm16 leaves the core past SETVL, with its VTYPE, its VL and the count that remains; nothing else changes. -/
theorem coreIs_doSetvl {imm : BitVec 16} (h : vtypeOk imm = true) (p : Nat) (d ra : Reg) (w : Word32) (f : State) :
    let n := (gpr (core f p) ra).toNat
    let vl := min n (vlMax f p (bits imm.toNat 0 3))
    CoreIs f (doSetvl p d ra imm w f) p (wrote { core f p with vtype := imm.setWidth 64, vl := vl } d (toW (n - vl))) := by
  intro n vl
  have hrun := coreIs_retire_putReg (onlyCore_modCore (.refl f p) fun c => { c with vtype := imm.setWidth 64, vl := vl }) d (toW (n - vl))
  rw [core_modCore] at hrun
  simpa only [doSetvl, h, Bool.not_true, Bool.false_eq_true, if_false] using hrun

/-- A fetched SETVL settles what it does to the fetched state. -/
theorem exec_setvl_of_fetched {s f : State} {p : Nat} (h : Fetched s p f) (d ra : Reg) (imm : BitVec 16) :
    exec (.setvl p d ra imm) s = .next (settle (doSetvl p d ra imm (wI 0x38 d ra imm) f)) :=
  congrArg done (issue_of_fetched h (doSetvl p d ra imm (wI 0x38 d ra imm)))

/-- Settles O38: the check of imm16 decides between the trap and the strip, whose bound is VLMAX at the new SEW. -/
theorem setvlResults : Obligations.SetvlResults := by
  intro s f p d ra imm h
  simp only [← vlMax_eq, ← vtypeOk_iff]
  refine ⟨fun hok => ⟨_, exec_setvl_of_fetched h d ra imm, coreIs_doSetvl hok p d ra _ f⟩, fun hbad => ?_⟩
  rw [exec_setvl_of_fetched h, doSetvl_undefined (eq_false_of_ne_true hbad)]
  rfl

end Sys2Proof.Machine

/-! PROOFS. Statements of the host port (chapter 15): the header of a ring's command. -/

namespace Sys2Proof.Machine

/-! ### The bytes of a completion entry -/

@[simp] theorem length_bytesLE (n v : Nat) : (bytesLE n v).length = n := by
  induction n generalizing v with
  | zero => rfl
  | succ n ih => exact congrArg (· + 1) (ih (v / 256))

@[simp] theorem length_slice (bs : List Byte) (off n : Nat) : (slice bs off n).length = n := by
  simp only [slice, List.length_append, List.length_replicate]
  exact Nat.add_sub_cancel' (List.length_take_le n _)

/-- Table 15-6: a completion entry has 32 bytes. -/
theorem length_cplBytes (s : State) (h : CmdHdr) (opc : Nat) (x : Cpl) : (cplBytes s h opc x).length = 32 := by
  simp only [cplBytes, List.length_append, length_bytesLE, length_slice]

/-! ### A violation of the ring (R511) -/

theorem ring_detect (s : State) (x : Record) (i : Bool) (r : Nat) : ring (detect s x i) r = ring s r :=
  congrArg (tget Ring.reset · r) (detect_rings s x i)

theorem ring_modRing (s : State) (r : Nat) (f : Ring → Ring) : ring (modRing s r f) r = f (ring s r) :=
  tget_tset_same Ring.reset s.port.rings r (f (ring s r))

/-- The freeze sets one bit of its ring. -/
theorem ring_freezeRing (s : State) (h : CmdHdr) (vcode addr : Nat) :
    ring (freezeRing s h vcode addr) h.ring = { ring s h.ring with frozen := true } :=
  (ring_detect _ _ _ _).trans (ring_modRing s h.ring _)

/-- A violation leaves its ring frozen with HEAD at the command, and holds the entry with CM_VIOL. -/
theorem ring_violateRing (s : State) (h : CmdHdr) (opc detail : Nat) :
    ring (violateRing s h opc detail) h.ring = { ring s h.ring with
      frozen := true, busy := none, atCmd := true
      held := (ring s h.ring).held ++ [(lsCmd s h, cplBytes s h opc { status := cmViol, detail := detail })] } := by
  rw [violateRing, violateRingAt, ring_modRing, ring_freezeRing]

/-! ### How the header of a command is judged (R509, R511, R532, R631) -/

section Header

variable {s : State} {h : CmdHdr} {sc : CmdScope} {opc : Nat} (f : State → State)

/-- R509: a ring that may not begin a command leaves everything as it was. -/
theorem hostCmd_notReady (hr : ringReady s h.ring = false) : hostCmd sc opc h f s = s := by
  simp only [hostCmd, hr, Bool.not_false, if_true]

/-- R511, R631: a POLDER that does not fit the opcode is a violation with DETAIL 3. -/
theorem hostCmd_polBad (hr : ringReady s h.ring = true) (hp : polBad sc h.pol = true) : hostCmd sc opc h f s = violateRing s h opc 3 := by
  simp only [hostCmd, hr, hp, Bool.not_true, Bool.false_eq_true, if_false, if_true]

/-- Past its POLDER field a command is refused with CM_STATE, by R532 or by R631, or it acts. -/
theorem hostCmd_polOk (hr : ringReady s h.ring = true) (hp : polBad sc h.pol = false) :
    hostCmd sc opc h f s =
      if ((scopeAt s 24).fatal = true ∧ servedFatal opc = false) ∨ (h.pol < 24 ∧ named s h.pol = false) then completeSt s h opc cmState else f s := by
  simp only [hostCmd, hr, hp, Bool.not_true, Bool.false_eq_true, if_false, Bool.and_eq_true, Bool.not_eq_true', decide_eq_true_eq]
  by_cases hfatal : (scopeAt s 24).fatal = true ∧ servedFatal opc = false
  · rw [if_pos hfatal, if_pos (.inl hfatal)]
  · rw [if_neg hfatal]
    by_cases hnamed : h.pol < 24 ∧ named s h.pol = false
    · rw [if_pos hnamed, if_pos (.inr hnamed)]
    · rw [if_neg hnamed, if_neg (fun hor => hor.elim hfatal hnamed)]

/-- A command whose own effect, too, is CM_STATE completes with CM_STATE once its POLDER field fits. -/
theorem hostCmd_of_state (hr : ringReady s h.ring = true) (hp : polBad sc h.pol = false) (hf : f s = completeSt s h opc cmState) :
    hostCmd sc opc h f s = completeSt s h opc cmState := by
  rw [hostCmd_polOk f hr hp, hf, ite_self]

end Header

/-! ### The meaning of a row that is a ring's command -/

/-- A ring's command of one opcode and scope whose own effect is `f`: from 0x60 on it is a management command, which waits while another runs and
is refused while Reeve is frozen (R556, R557). -/
def judgedCmd (sc : CmdScope) (opc : Nat) (h : CmdHdr) (f : State → State) : State → State :=
  if 0x60 ≤ opc then
    fun s =>
      if mgRuns s || reeveWaits s then s
      else hostCmd sc opc h (fun s => if s.reeve.frozen then completeSt s h opc cmState else f s) s
  else hostCmd sc opc h f

/-- Tables 15-4 and 18-1: each row settles a ring's command of its own scope and opcode. -/
theorem exec_of_hostCmdOf {c : Instr} {h : CmdHdr} {sc : CmdScope} {opc : Nat} (hc : hostCmdOf c = some (h, sc, opc)) :
    ∃ f, ∀ s, exec c s = .next (settle (judgedCmd sc opc h f s)) := by
  unfold hostCmdOf at hc
  split at hc <;> cases hc <;> exact ⟨_, fun _ => rfl⟩

section Judged

variable {s : State} {h : CmdHdr} {sc : CmdScope} {opc : Nat} (f : State → State)

/-- R509, for a management command too, whether or not it waits for another. -/
theorem judgedCmd_notReady (hr : ringReady s h.ring = false) : judgedCmd sc opc h f s = s := by
  by_cases hopc : 0x60 ≤ opc
  · simp only [judgedCmd, hopc, if_true, hostCmd_notReady _ hr, ite_self]
  · simp only [judgedCmd, hopc, if_false, hostCmd_notReady _ hr]

/-- A command that waits for no other is judged by its header, and its effect is CM_STATE where it is a management command of a frozen Reeve. -/
theorem judgedCmd_free (hfree : 0x60 ≤ opc → mgRuns s = false ∧ reeveWaits s = false) :
    ∃ g, judgedCmd sc opc h f s = hostCmd sc opc h g s ∧ (0x60 ≤ opc → s.reeve.frozen = true → g s = completeSt s h opc cmState) := by
  by_cases hopc : 0x60 ≤ opc
  · obtain ⟨hruns, hwaits⟩ := hfree hopc
    refine ⟨fun s => if s.reeve.frozen then completeSt s h opc cmState else f s, ?_, fun _ hfrozen => if_pos hfrozen⟩
    simp only [judgedCmd, hopc, hruns, hwaits, Bool.or_self, Bool.false_eq_true, if_true, if_false]
  · exact ⟨f, by simp only [judgedCmd, hopc, if_false], fun h60 => absurd h60 hopc⟩

end Judged

/-- Settles O6: every row that is a ring's command is judged by one header, and a completion and a violation each set their own ring. -/
theorem ringHeader : Obligations.RingHeader := by
  refine ⟨fun c h sc opc s hc => ?_, fun s h opc x => ⟨ring_complete s h opc x, length_cplBytes s h opc x, fun r => ring_complete_ne s h opc r x⟩,
    fun s h opc d => ?_⟩
  · obtain ⟨f, hexec⟩ := exec_of_hostCmdOf hc
    refine ⟨fun hr => ?_, fun hr hfree => ?_⟩
    · rw [hexec, judgedCmd_notReady f hr]
    · obtain ⟨g, hg, hgFrozen⟩ := judgedCmd_free (sc := sc) (h := h) f hfree
      have hsettle {t : State} (ht : hostCmd sc opc h g s = t) : exec c s = .next (settle t) := by rw [hexec, hg, ht]
      refine ⟨fun hp => ?_, fun hp hfatal hserved => ?_, fun hp _ hpol hnamed => ?_, fun hp hopc hfrozen => ?_⟩
      · exact hsettle (hostCmd_polBad g hr hp)
      · exact hsettle ((hostCmd_polOk g hr hp).trans (if_pos (.inl ⟨hfatal, hserved⟩)))
      · exact hsettle ((hostCmd_polOk g hr hp).trans (if_pos (.inr ⟨hpol, hnamed⟩)))
      · exact hsettle (hostCmd_of_state g hr hp (hgFrozen hopc hfrozen))
  · rw [ring_violateRing]
    exact ⟨rfl, rfl⟩

end Sys2Proof.Machine

/-! PROOFS. The block: what a step does, the state after reset, and what every step keeps. -/

namespace Sys2Proof.Machine

/-! ### Steps -/

theorem step_cons {s : State} {c : Instr} {rest : List Instr} (h : s.pending = c :: rest) : step s = exec c { s with pending := rest } := by
  simp only [step, h]

theorem step_nil {s : State} (h : s.pending = []) : step s = .next (settle (tick s)) := by
  simp only [step, h, done]

/-- A step answers the settled outcome of a command or of a tick. -/
theorem step_settled (s : State) : ∃ u, step s = .next (settle u) := by
  cases h : s.pending with
  | nil => exact ⟨tick s, step_nil h⟩
  | cons c rest =>
    obtain ⟨u, hu⟩ := exec_settled c { s with pending := rest }
    exact ⟨u, (step_cons h).trans hu⟩

/-- Settles O3: a step ends in `settle`, which settles any state and keeps the work. -/
theorem everyStepSettles : Obligations.EveryStepSettles := by
  refine ⟨fun s t _ hstep => ?_, fun c s => ?_⟩
  · obtain ⟨u, hu⟩ := step_settled s
    cases hu.symm.trans hstep
    exact settle_settled u
  · obtain ⟨u, hu⟩ := exec_settled c s
    exact ⟨settle u, hu, settle_settled u, u, rfl, settle_sameWork u⟩

/-! ### A tick with nothing to do -/

/-- A fold that leaves the state at every element leaves it. -/
theorem foldl_fixed {α σ : Type} (f : σ → α → σ) {s : σ} {l : List α} (h : ∀ x ∈ l, f s x = s) : l.foldl f s = s := by
  induction l with
  | nil => rfl
  | cons x l ih =>
    rw [List.foldl_cons, h x (.head _)]
    exact ih fun y hy => h y (.tail _ hy)

/-- R481: no transaction ends before its DEADLINE. -/
theorem expireTags_none {s : State} (h : ∀ e ∈ s.fabric.owners, ∀ t ∈ e.2.tags, s.dt < t.deadline) : expireTags s = s := by
  have hnil : ((s.fabric.owners.flatMap fun o => o.2.tags).filter fun t => decide (t.deadline ≤ s.dt)) = [] := by
    rw [List.filter_eq_nil_iff]
    intro t ht
    obtain ⟨o, ho, hto⟩ := List.mem_flatMap.mp ht
    simpa using h o ho t hto
  rw [expireTags, hnil, List.foldl_nil]

theorem startWalks_nil {s : State} (h : s.xlat.waiting = []) (n : Nat) : startWalks n s = s := by
  cases n with
  | zero => rfl
  | succ n => simp only [startWalks, h]

theorem vqGoAll_empty {s : State} (h : ∀ p, (polder s p).vqueue = []) : vqGoAll s = s :=
  foldl_fixed _ fun p _ => by simp only [h p, List.isEmpty_nil, if_true]

theorem redRetry_nil {s : State} (h : s.fabric.redWait = []) : redRetry s = s := by
  simp only [redRetry, h, List.foldl_nil]
  rw [← h]

theorem serveReads_empty {s : State} (h : ∀ e ∈ s.port.conns, e.2.ops = []) : serveReads s = s := by
  have hnil : (s.port.conns.filter fun e => !e.2.ops.isEmpty) = [] := by
    rw [List.filter_eq_nil_iff]
    intro e he
    simp [h e he]
  rw [serveReads, hnil, List.map_nil, List.foldl_nil]

/-- Where no walk, vector instruction, hub contribution or host message waits, none goes on. -/
theorem serveAll_none {s : State} (hwalks : s.xlat.waiting = []) (hred : s.fabric.redWait = []) (hvq : ∀ p, (polder s p).vqueue = [])
    (hops : ∀ e ∈ s.port.conns, e.2.ops = []) : serveReads (redRetry (vqGoAll (startWalks s.xlat.waiting.length s))) = s := by
  rw [startWalks_nil hwalks, vqGoAll_empty hvq, redRetry_nil hred, serveReads_empty hops]

/-- Settles O1: a step is one match on the queue, and a tick with nothing waiting is its clock alone. -/
theorem stepTakesTheFront : Obligations.StepTakesTheFront := by
  refine ⟨fun c rest s h => step_cons h, fun s h => step_nil h, fun s hdead hwalks hred hvq hops => ?_⟩
  rw [tick, expireTags_none hdead]
  exact serveAll_none (s := { s with dt := (s.dt + 1) % 2 ^ 64 }) hwalks hred hvq hops

/-! ### The state after reset -/

/-- R6, Table 14-9: every CD is good, and unassigned. -/
theorem rdCdTopo_reset (n : Nat) : rdCdTopo State.reset n = 18 * 2 ^ 48 + 0xFF * 2 ^ 32 + 0xFF * 2 ^ 24 + 0xFF * 2 ^ 16 := by
  have hcd : cdAt State.reset n = Cd.reset := rfl
  have hspare : spareMap State.reset n = SpareMap.fresh := rfl
  rw [rdCdTopo, hcd, hspare]
  decide +kernel

theorem gpr_reset (r : Reg) : gpr Core.reset r = 0 := ite_self 0

theorem reset_settled : State.reset.Settled :=
  ⟨fun h => absurd rfl h, rfl, fun _ _ _ h => nomatch h⟩

/-- Settles O2: each field has the value that `State.reset` lists for it. -/
theorem resetState : Obligations.ResetState :=
  ⟨rfl, rfl, rfl, rfl, reset_mem_wf.1, rfl, rfl, rdCdTopo_reset, fun _ => ⟨rfl, rfl, rfl, rfl, rfl, rfl, gpr_reset⟩,
    fun _ => ⟨rfl, rfl⟩, rfl, rfl, fun _ => ⟨rfl, rfl⟩, rfl, rfl, rfl, rfl, reset_settled⟩

end Sys2Proof.Machine

/-! PROOFS. The words of the core's instructions: the fields of a word of each format, and the round trip through the decoder. -/

namespace Sys2Proof.Machine

/-! ### The fields of a word, by format (Tables 9-2 and 10-4) -/

section Fields

variable (m : BitVec 6) (d a b : Reg) (f : BitVec 11)

@[simp] theorem wR_major : (wR m d a b f).extractLsb' 26 6 = m := by
  change BitVec.extractLsb' (n := 6 + 5 + 5 + 5 + 11) 26 6 (m ++ d ++ a ++ b ++ f) = m
  simp (disch := decide) only [BitVec.extractLsb'_append_eq_of_le]
  exact BitVec.extractLsb'_eq_self

@[simp] theorem wordFields_wR_gd : (wordFields (wR m d a b f)).gd = d := by
  change BitVec.extractLsb' (n := 6 + 5 + 5 + 5 + 11) 21 5 (m ++ d ++ a ++ b ++ f) = d
  simp (disch := decide) only [BitVec.extractLsb'_append_eq_of_le, BitVec.extractLsb'_append_eq_of_add_le]
  exact BitVec.extractLsb'_eq_self

@[simp] theorem wordFields_wR_ga : (wordFields (wR m d a b f)).ga = a := by
  change BitVec.extractLsb' (n := 6 + 5 + 5 + 5 + 11) 16 5 (m ++ d ++ a ++ b ++ f) = a
  simp (disch := decide) only [BitVec.extractLsb'_append_eq_of_le, BitVec.extractLsb'_append_eq_of_add_le]
  exact BitVec.extractLsb'_eq_self

@[simp] theorem wordFields_wR_gb : (wordFields (wR m d a b f)).gb = b := by
  change BitVec.extractLsb' (n := 6 + 5 + 5 + 5 + 11) 11 5 (m ++ d ++ a ++ b ++ f) = b
  simp (disch := decide) only [BitVec.extractLsb'_append_eq_of_le, BitVec.extractLsb'_append_eq_of_add_le]
  exact BitVec.extractLsb'_eq_self

@[simp] theorem wordFields_wR_fn : (wordFields (wR m d a b f)).fn = f := BitVec.extractLsb'_append_eq_right

variable (imm : BitVec 16)

@[simp] theorem wI_major : (wI m d a imm).extractLsb' 26 6 = m := by
  change BitVec.extractLsb' (n := 6 + 5 + 5 + 16) 26 6 (m ++ d ++ a ++ imm) = m
  simp (disch := decide) only [BitVec.extractLsb'_append_eq_of_le]
  exact BitVec.extractLsb'_eq_self

@[simp] theorem wordFields_wI_gd : (wordFields (wI m d a imm)).gd = d := by
  change BitVec.extractLsb' (n := 6 + 5 + 5 + 16) 21 5 (m ++ d ++ a ++ imm) = d
  simp (disch := decide) only [BitVec.extractLsb'_append_eq_of_le, BitVec.extractLsb'_append_eq_of_add_le]
  exact BitVec.extractLsb'_eq_self

@[simp] theorem wordFields_wI_ga : (wordFields (wI m d a imm)).ga = a := by
  change BitVec.extractLsb' (n := 6 + 5 + 5 + 16) 16 5 (m ++ d ++ a ++ imm) = a
  simp (disch := decide) only [BitVec.extractLsb'_append_eq_of_le, BitVec.extractLsb'_append_eq_of_add_le]
  exact BitVec.extractLsb'_eq_self

@[simp] theorem wordFields_wI_imm : (wordFields (wI m d a imm)).imm = imm := BitVec.extractLsb'_append_eq_right

variable (off : BitVec 26)

@[simp] theorem wJ_major : (wJ m off).extractLsb' 26 6 = m := BitVec.extractLsb'_append_eq_left

@[simp] theorem setWidth_wJ : (wordFields (wJ m off)).w.setWidth 26 = off := BitVec.setWidth_append_eq_right

variable (csr : BitVec 12) (op : BitVec 4)

@[simp] theorem wC_major : (wC d a csr op).extractLsb' 26 6 = 0x2C := by
  change BitVec.extractLsb' (n := 6 + 5 + 5 + 12 + 4) 26 6 (0x2C#6 ++ d ++ a ++ csr ++ op) = 0x2C#6
  simp (disch := decide) only [BitVec.extractLsb'_append_eq_of_le]
  exact BitVec.extractLsb'_eq_self

@[simp] theorem wordFields_wC_gd : (wordFields (wC d a csr op)).gd = d := by
  change BitVec.extractLsb' (n := 6 + 5 + 5 + 12 + 4) 21 5 (0x2C#6 ++ d ++ a ++ csr ++ op) = d
  simp (disch := decide) only [BitVec.extractLsb'_append_eq_of_le, BitVec.extractLsb'_append_eq_of_add_le]
  exact BitVec.extractLsb'_eq_self

@[simp] theorem wordFields_wC_ga : (wordFields (wC d a csr op)).ga = a := by
  change BitVec.extractLsb' (n := 6 + 5 + 5 + 12 + 4) 16 5 (0x2C#6 ++ d ++ a ++ csr ++ op) = a
  simp (disch := decide) only [BitVec.extractLsb'_append_eq_of_le, BitVec.extractLsb'_append_eq_of_add_le]
  exact BitVec.extractLsb'_eq_self

@[simp] theorem wordFields_wC_imm : (wordFields (wC d a csr op)).imm = (csr ++ op : BitVec (12 + 4)) := by
  change BitVec.extractLsb' (n := 6 + 5 + 5 + 12 + 4) 0 16 (0x2C#6 ++ d ++ a ++ csr ++ op) = _
  rw [BitVec.append_assoc]
  exact BitVec.extractLsb'_append_eq_right

/-- The low four bits of format C's field are its operation. -/
@[simp] theorem setWidth_csrField : ((csr ++ op : BitVec (12 + 4)) : BitVec 16).setWidth 4 = op := BitVec.setWidth_append_eq_right

@[simp] theorem csrOf_csrField : csrOf (csr ++ op : BitVec (12 + 4)) = csr := BitVec.extractLsb'_append_eq_left

variable (o : VOp) (g : BitVec 6)

@[simp] theorem wV_major : (wV m o g).extractLsb' 26 6 = m := by
  change BitVec.extractLsb' (n := 6 + 5 + 5 + 5 + 1 + 3 + 1 + 6) 26 6
    (m ++ o.vd ++ o.va ++ o.vb ++ BitVec.ofBool o.vm ++ o.mreg ++ BitVec.ofBool o.s ++ g) = m
  simp (disch := decide) only [BitVec.extractLsb'_append_eq_of_le]
  exact BitVec.extractLsb'_eq_self

@[simp] theorem wordFields_wV_f6 : (wordFields (wV m o g)).f6 = g := BitVec.extractLsb'_append_eq_right

/-- Every operand of format V is in its word. -/
@[simp] theorem wordFields_wV_o : (wordFields (wV m o g)).o = o := by
  have hmreg : (wV m o g).extractLsb' 7 3 = o.mreg := by
    change BitVec.extractLsb' (n := 6 + 5 + 5 + 5 + 1 + 3 + 1 + 6) 7 3
      (m ++ o.vd ++ o.va ++ o.vb ++ BitVec.ofBool o.vm ++ o.mreg ++ BitVec.ofBool o.s ++ g) = o.mreg
    simp (disch := decide) only [BitVec.extractLsb'_append_eq_of_le, BitVec.extractLsb'_append_eq_of_add_le]
    exact BitVec.extractLsb'_eq_self
  have hvd : (wV m o g).extractLsb' 21 5 = o.vd := by
    change BitVec.extractLsb' (n := 6 + 5 + 5 + 5 + 1 + 3 + 1 + 6) 21 5
      (m ++ o.vd ++ o.va ++ o.vb ++ BitVec.ofBool o.vm ++ o.mreg ++ BitVec.ofBool o.s ++ g) = o.vd
    simp (disch := decide) only [BitVec.extractLsb'_append_eq_of_le, BitVec.extractLsb'_append_eq_of_add_le]
    exact BitVec.extractLsb'_eq_self
  have hva : (wV m o g).extractLsb' 16 5 = o.va := by
    change BitVec.extractLsb' (n := 6 + 5 + 5 + 5 + 1 + 3 + 1 + 6) 16 5
      (m ++ o.vd ++ o.va ++ o.vb ++ BitVec.ofBool o.vm ++ o.mreg ++ BitVec.ofBool o.s ++ g) = o.va
    simp (disch := decide) only [BitVec.extractLsb'_append_eq_of_le, BitVec.extractLsb'_append_eq_of_add_le]
    exact BitVec.extractLsb'_eq_self
  have hvb : (wV m o g).extractLsb' 11 5 = o.vb := by
    change BitVec.extractLsb' (n := 6 + 5 + 5 + 5 + 1 + 3 + 1 + 6) 11 5
      (m ++ o.vd ++ o.va ++ o.vb ++ BitVec.ofBool o.vm ++ o.mreg ++ BitVec.ofBool o.s ++ g) = o.vb
    simp (disch := decide) only [BitVec.extractLsb'_append_eq_of_le, BitVec.extractLsb'_append_eq_of_add_le]
    exact BitVec.extractLsb'_eq_self
  have hs : (wV m o g).getLsbD 6 = o.s := by
    change (m ++ o.vd ++ o.va ++ o.vb ++ BitVec.ofBool o.vm ++ o.mreg ++ BitVec.ofBool o.s ++ g).getLsbD 6 = o.s
    simp only [BitVec.getLsbD_append]
    simp
  have hvm : (wV m o g).getLsbD 10 = o.vm := by
    change (m ++ o.vd ++ o.va ++ o.vb ++ BitVec.ofBool o.vm ++ o.mreg ++ BitVec.ofBool o.s ++ g).getLsbD 10 = o.vm
    simp only [BitVec.getLsbD_append]
    simp
  simp only [wordFields, hs, hvm, hmreg, hvd, hva, hvb]

end Fields

/-! ### The fields together -/

section Together

variable (m : BitVec 6) (d a b : Reg)

/-- A word of format R has these four fields. -/
theorem wordFields_wR (f : BitVec 11) : wordFields (wR m d a b f) = { wordFields (wR m d a b f) with gd := d, ga := a, gb := b, fn := f } := by
  have hgd := wordFields_wR_gd m d a b f
  have hga := wordFields_wR_ga m d a b f
  have hgb := wordFields_wR_gb m d a b f
  have hfn := wordFields_wR_fn m d a b f
  generalize wordFields (wR m d a b f) = x at *
  cases hgd; cases hga; cases hgb; cases hfn; rfl

/-- A word of format I has these three fields. -/
theorem wordFields_wI (imm : BitVec 16) : wordFields (wI m d a imm) = { wordFields (wI m d a imm) with gd := d, ga := a, imm := imm } := by
  have hgd := wordFields_wI_gd m d a imm
  have hga := wordFields_wI_ga m d a imm
  have himm := wordFields_wI_imm m d a imm
  generalize wordFields (wI m d a imm) = x at *
  cases hgd; cases hga; cases himm; rfl

/-- A word of format V has these two. -/
theorem wordFields_wV (o : VOp) (g : BitVec 6) : wordFields (wV m o g) = { wordFields (wV m o g) with o := o, f6 := g } := by
  have ho := wordFields_wV_o m o g
  have hf6 := wordFields_wV_f6 m o g
  generalize wordFields (wV m o g) = x at *
  cases ho; cases hf6; rfl

end Together

/-! ### The majors whose FUNC or immediate holds an operand -/

section Operands

variable {p : Nat} {w : Word32}

theorem decodeCore_of_03 (h : w.extractLsb' 26 6 = 0x03) : decodeCore p w = dec03 p (wordFields w) := by
  unfold decodeCore
  rw [h]
  rfl

theorem decodeCore_of_04 (h : w.extractLsb' 26 6 = 0x04) : decodeCore p w = dec04 p (wordFields w) := by
  unfold decodeCore
  rw [h]
  rfl

theorem decodeCore_of_0B (h : w.extractLsb' 26 6 = 0x0B) : decodeCore p w = dec0B p (wordFields w) := by
  unfold decodeCore
  rw [h]
  rfl

theorem decodeCore_of_1C (h : w.extractLsb' 26 6 = 0x1C) : decodeCore p w = dec1C p (wordFields w) := by
  unfold decodeCore
  rw [h]
  rfl

theorem decodeCore_of_2C (h : w.extractLsb' 26 6 = 0x2C) : decodeCore p w = dec2C p (wordFields w) := by
  unfold decodeCore
  rw [h]
  rfl

end Operands

/-- The shift amount is the low six bits of the immediate, and bits [7:6] choose the shift. -/
theorem shiftImm (k : BitVec 2) (sh : BitVec 6) :
    (k.setWidth 16 <<< 6 + sh.setWidth 16 : BitVec 16) &&& 0xFFC0 = k.setWidth 16 <<< 6 ∧
      (k.setWidth 16 <<< 6 + sh.setWidth 16 : BitVec 16).setWidth 6 = sh := by
  revert k sh
  decide +kernel

/-! ### The round trip -/

/-- Settles O4: each format's word has the fields it was made of, and its major's rows tell its FUNC apart from the others. -/
theorem coreWordsRoundTrip : Obligations.CoreWordsRoundTrip := by
  intro i w hshare hw
  cases i
  case add | sub | and_ | or_ | xor_ | sll | srl | sra | slt | sltu | min | max | minu | maxu | addW | subW | sllW | srlW | sraW | mul |
    mulh | mulhu | div | divu | rem | remu | mulW | divW | divuW | remW | remuW | crcb | crcbC | outW | outD | mma8 | clz | ctz | popc |
    par | brev | bswap | clzW | ctzW | popcW | parW | brevW | bswapW | callr | mlds | mstream | jr | trap | dcInv | syncC | syncI | fence |
    wait | rfe | dcInvall =>
    obtain rfl := Option.some.inj hw
    unfold decodeCore
    rw [wR_major, wordFields_wR]
    exact ⟨_, rfl⟩
  case vwait =>
    obtain rfl := Option.some.inj hw
    exact ⟨_, rfl⟩
  case addi | andi | ori | xori | slti | shori | ldB | ldBu | ldH | ldHu | ldW | ldWu | ldD | stB | stH | stW | stD | inW | inD | setvl |
    beq | bne | blt | bge | bltu | bgeu | lui =>
    obtain rfl := Option.some.inj hw
    unfold decodeCore
    rw [wI_major, wordFields_wI]
    exact ⟨_, rfl⟩
  case vfadd | vfsub | vfmul | vfdiv | vfsqrt | vfma | vfnma | vfmin | vfmax | vfeq | vflt | vfle | vfneg | vfabs | vfsgnj | vfkind |
    vadd | vsub | vmul | vmulh | vmulhu | vand | vor | vxor | vsll | vsrl | vsra | vmin | vmax | vminu | vmaxu | vsadd | vssub | vsaddu |
    vssubu | vmseq | vmslt | vmsltu | vsel | vmv | vld | vlds | vldx | vldff | vldg | vldm | vst | vsts | vstx | vstg | vstm | vperm |
    vslideup | vslidedn | vcompress | viota | vredAdd | vredMin | vredMax | vredMinu | vredMaxu | vscanAdd | vscanMin | vscanMax |
    vscanMinu | vscanMaxu | vmand | vmor | vmxor | vmandn | vpopc | vfirst | vredFadd | vredFmin | vredFmax | vscanFadd | vscanFmin |
    vscanFmax | vexp | vlog | vrsqrt | vtanh | verf | vsigm | vsilu | vgelu | vcvtF | vcvtFs | vcvtI | vcvtIz | vcvtU | vcvtUz | vqmx |
    vdqmx | vpopw | vpopwNb | vpushw | vmvX | vmvS =>
    obtain rfl := Option.some.inj hw
    unfold decodeCore
    rw [wV_major, wordFields_wV]
    exact ⟨_, rfl⟩
  case fadd | fsub | fmul | fdiv | fma | fmin | fmax | feq | flt | fle | fsgnj =>
    rename_i p single d a b
    obtain rfl := Option.some.inj hw
    refine ⟨p, ?_⟩
    rw [decodeCore_of_04 (wR_major ..), wordFields_wR]
    cases single <;> simp [dec04, fpFunc]
  case fsqrt | fneg | fabs | fkind | fcvtF | fcvtL | fcvtLz | fcvtWi | fcvtWz | icvt | ucvt =>
    rename_i p single d a
    obtain rfl := Option.some.inj hw
    refine ⟨p, ?_⟩
    rw [decodeCore_of_04 (wR_major ..), wordFields_wR]
    cases single <;> simp [dec04, fpFunc]
  case crc32 | crc32c =>
    rename_i p d a b sz
    obtain rfl := Option.some.inj hw
    have hsz : ∀ z : BitVec 2, z = 0 ∨ z = 1 ∨ z = 2 ∨ z = 3 := by decide
    refine ⟨p, ?_⟩
    rw [decodeCore_of_03 (wR_major ..), wordFields_wR]
    rcases hsz sz with rfl | rfl | rfl | rfl <;> simp [dec03]
  case amoadd | amoswap | amocas =>
    rename_i p d a b dbl
    obtain rfl := Option.some.inj hw
    refine ⟨p, ?_⟩
    rw [decodeCore_of_1C (wR_major ..), wordFields_wR]
    cases dbl <;> simp [dec1C]
  case slli =>
    rename_i p d a sh
    obtain rfl := Option.some.inj hw
    obtain ⟨hop, -⟩ := shiftImm 0 sh
    refine ⟨p, ?_⟩
    rw [decodeCore_of_0B (wI_major ..), wordFields_wI]
    simp at hop
    simp [dec0B, hop]
  case srli =>
    rename_i p d a sh
    obtain rfl := Option.some.inj hw
    obtain ⟨hop, hsh⟩ := shiftImm 1 sh
    refine ⟨p, ?_⟩
    rw [decodeCore_of_0B (wI_major ..), wordFields_wI]
    simp at hop hsh
    simp [dec0B, hop, hsh]
  case srai =>
    rename_i p d a sh
    obtain rfl := Option.some.inj hw
    obtain ⟨hop, hsh⟩ := shiftImm 2 sh
    refine ⟨p, ?_⟩
    rw [decodeCore_of_0B (wI_major ..), wordFields_wI]
    simp at hop hsh
    simp [dec0B, hop, hsh]
  case jmp =>
    rename_i p off
    obtain rfl := Option.some.inj hw
    unfold decodeCore
    rw [wJ_major]
    exact ⟨p, congrArg (fun o => some (Instr.jmp p o)) (setWidth_wJ 0x26 off)⟩
  case call =>
    rename_i p off
    obtain rfl := Option.some.inj hw
    unfold decodeCore
    rw [wJ_major]
    exact ⟨p, congrArg (fun o => some (Instr.call p o)) (setWidth_wJ 0x27 off)⟩
  case csrr =>
    rename_i p d csr
    obtain rfl := Option.some.inj hw
    refine ⟨p, ?_⟩
    rw [decodeCore_of_2C (wC_major ..)]
    simp [dec2C]
  case csrw | csrs | csrc =>
    rename_i p d a csr
    obtain rfl := Option.some.inj hw
    refine ⟨p, ?_⟩
    rw [decodeCore_of_2C (wC_major ..)]
    simp [dec2C]
  case bsfDataWrite | bsfDataRead | rcpAdmit | rcpWithdraw | invStartWrite | slCtlSet | slCtlClear | ttWindowWrite | timerCmpWrite | reservedOpcode => exact Bool.noConfusion hshare
  all_goals exact absurd hw.symm (Option.some_ne_none w)

/-- Settles O5: the decoder evaluates each word. -/
theorem wordsDecode : Obligations.WordsDecode := fun _ =>
  ⟨rfl, rfl, rfl, rfl, rfl, rfl, rfl, rfl, rfl, rfl, rfl, rfl, rfl, rfl, rfl, rfl, rfl, rfl⟩

end Sys2Proof.Machine

/-! PROOFS. The values of the scalar operations (Tables 9-3 to 9-5): what the statements write of each, as the model computes it. -/

namespace Sys2Proof.Machine

/-! ### Integer operations -/

section Alu

variable {n : Nat} (a b : BitVec n) (k : Nat)

theorem shiftLeft_eq_ofNat : a <<< k = BitVec.ofNat n (a.toNat * 2 ^ k) := by
  refine BitVec.eq_of_toNat_eq ?_
  rw [BitVec.toNat_shiftLeft, BitVec.toNat_ofNat, Nat.shiftLeft_eq]

theorem ushiftRight_eq_ofNat : a >>> k = BitVec.ofNat n (a.toNat / 2 ^ k) := by
  refine BitVec.eq_of_toNat_eq ?_
  have hlt : a.toNat / 2 ^ k < 2 ^ n := Nat.lt_of_le_of_lt (Nat.div_le_self ..) a.isLt
  rw [BitVec.toNat_ushiftRight, BitVec.toNat_ofNat, Nat.shiftRight_eq_div_pow, Nat.mod_eq_of_lt hlt]

theorem sshiftRight_eq_ofInt : a.sshiftRight k = BitVec.ofInt n (a.toInt / 2 ^ k) := by
  rw [← BitVec.ofInt_toInt (x := a.sshiftRight k), BitVec.toInt_sshiftRight, Int.shiftRight_eq_div_pow]
  norm_cast

theorem add_eq_ofInt : a + b = BitVec.ofInt n (a.toInt + b.toInt) := by
  rw [BitVec.ofInt_add, BitVec.ofInt_toInt, BitVec.ofInt_toInt]

theorem sub_eq_ofInt : a - b = BitVec.ofInt n (a.toInt - b.toInt) := by
  rw [Int.sub_eq_add_neg, BitVec.ofInt_add, BitVec.ofInt_neg, BitVec.ofInt_toInt, BitVec.ofInt_toInt, BitVec.sub_eq_add_neg]

theorem mul_eq_ofInt : a * b = BitVec.ofInt n (a.toInt * b.toInt) := by
  rw [BitVec.ofInt_mul, BitVec.ofInt_toInt, BitVec.ofInt_toInt]

end Alu

theorem min_eq_ofInt (a b : Word) : aluMin a b = BitVec.ofInt 64 (min a.toInt b.toInt) := by
  rw [aluMin, BitVec.slt_eq_decide]
  by_cases h : b.toInt < a.toInt
  · rw [if_pos (decide_eq_true h), show min a.toInt b.toInt = b.toInt by omega, BitVec.ofInt_toInt]
  · rw [if_neg (by rw [decide_eq_true_eq]; exact h), show min a.toInt b.toInt = a.toInt by omega, BitVec.ofInt_toInt]

theorem max_eq_ofInt (a b : Word) : aluMax a b = BitVec.ofInt 64 (max a.toInt b.toInt) := by
  rw [aluMax, BitVec.slt_eq_decide]
  by_cases h : a.toInt < b.toInt
  · rw [if_pos (decide_eq_true h), show max a.toInt b.toInt = b.toInt by omega, BitVec.ofInt_toInt]
  · rw [if_neg (by rw [decide_eq_true_eq]; exact h), show max a.toInt b.toInt = a.toInt by omega, BitVec.ofInt_toInt]

theorem minu_eq_ofNat (a b : Word) : aluMinu a b = BitVec.ofNat 64 (min a.toNat b.toNat) := by
  rw [aluMinu]
  by_cases h : b.toNat < a.toNat
  · rw [if_pos (BitVec.lt_def.mpr h), show min a.toNat b.toNat = b.toNat by omega, BitVec.ofNat_toNat, BitVec.setWidth_eq]
  · rw [if_neg (mt BitVec.lt_def.mp h), show min a.toNat b.toNat = a.toNat by omega, BitVec.ofNat_toNat, BitVec.setWidth_eq]

theorem maxu_eq_ofNat (a b : Word) : aluMaxu a b = BitVec.ofNat 64 (max a.toNat b.toNat) := by
  rw [aluMaxu]
  by_cases h : a.toNat < b.toNat
  · rw [if_pos (BitVec.lt_def.mpr h), show max a.toNat b.toNat = b.toNat by omega, BitVec.ofNat_toNat, BitVec.setWidth_eq]
  · rw [if_neg (mt BitVec.lt_def.mp h), show max a.toNat b.toNat = a.toNat by omega, BitVec.ofNat_toNat, BitVec.setWidth_eq]

theorem slt_eq_ite (a b : Word) : aluSlt a b = if a.toInt < b.toInt then 1 else 0 := by
  simp only [aluSlt, BitVec.slt_eq_decide, decide_eq_true_eq]

theorem sltu_eq_ite (a b : Word) : aluSltu a b = if a.toNat < b.toNat then 1 else 0 := rfl

theorem mulh_eq_ofInt (a b : Word) : aluMulh a b = BitVec.ofInt 64 (a.toInt * b.toInt / 2 ^ 64) := by
  refine BitVec.eq_of_toNat_eq ?_
  have hprod : a.signExtend 128 * b.signExtend 128 = BitVec.ofInt 128 (a.toInt * b.toInt) := (BitVec.ofInt_mul ..).symm
  rw [aluMulh, hprod]
  simp only [BitVec.toNat_setWidth, BitVec.toNat_ushiftRight, BitVec.toNat_ofInt, Nat.shiftRight_eq_div_pow]
  omega

theorem mulhu_eq_ofNat (a b : Word) : aluMulhu a b = BitVec.ofNat 64 (a.toNat * b.toNat / 2 ^ 64) := by
  refine BitVec.eq_of_toNat_eq ?_
  have hprod : a.toNat * b.toNat < 2 ^ 128 :=
    calc a.toNat * b.toNat < 2 ^ 64 * 2 ^ 64 := Nat.mul_lt_mul'' a.isLt b.isLt
      _ = 2 ^ 128 := by decide
  have ha : a.toNat % 2 ^ 128 = a.toNat := Nat.mod_eq_of_lt (Nat.lt_trans a.isLt (by decide))
  have hb : b.toNat % 2 ^ 128 = b.toNat := Nat.mod_eq_of_lt (Nat.lt_trans b.isLt (by decide))
  simp only [aluMulhu, BitVec.toNat_setWidth, BitVec.toNat_ushiftRight, BitVec.toNat_mul, BitVec.toNat_ofNat, Nat.shiftRight_eq_div_pow, ha, hb,
    Nat.mod_eq_of_lt hprod]

section Div
variable {n : Nat} {b : BitVec n} (a : BitVec n) (hb : b ≠ 0)
include hb
theorem divS_eq_ofInt : divS a b = BitVec.ofInt n (a.toInt.tdiv b.toInt) := by
  refine BitVec.eq_of_toInt_eq ?_
  rw [divS, if_neg hb, BitVec.toInt_sdiv, BitVec.toInt_ofInt]

theorem divU_eq_ofNat : divU a b = BitVec.ofNat n (a.toNat / b.toNat) := by
  rw [divU, if_neg hb, ← BitVec.toNat_udiv, BitVec.ofNat_toNat, BitVec.setWidth_eq]

theorem remS_eq_ofInt : remS a b = BitVec.ofInt n (a.toInt.tmod b.toInt) := by
  rw [remS, if_neg hb, ← BitVec.toInt_srem, BitVec.ofInt_toInt]

theorem remU_eq_ofNat : remU a b = BitVec.ofNat n (a.toNat % b.toNat) := by
  rw [remU, if_neg hb, ← BitVec.toNat_umod, BitVec.ofNat_toNat, BitVec.setWidth_eq]
end Div

/-- A .W shift amount is the same of the register and of its low word. -/
theorem lo32_mod (b : Word) : (b.setWidth 32).toNat % 32 = b.toNat % 32 := by
  rw [BitVec.toNat_setWidth]
  exact Nat.mod_mod_of_dvd _ (by decide)

/-! ### Bits -/

theorem bit_eq_testBit (v i : Nat) : bit v i = v.testBit i := by
  rw [bit, bits, Nat.testBit_eq_decide_div_mod_eq, Nat.shiftRight_eq_div_pow, Nat.pow_one]
  rfl

theorem bit_toNat {n : Nat} (a : BitVec n) (i : Nat) : bit a.toNat i = a.getLsbD i := bit_eq_testBit a.toNat i

/-- The elements before the first that fails, in a range. -/
theorem length_takeWhile_range {q : Nat → Bool} {n k : Nat} (hk : k ≤ n) (hlt : ∀ i < k, q i = true) (hge : k < n → q k = false) :
    ((List.range n).takeWhile q).length = k := by
  obtain ⟨m, rfl⟩ := Nat.exists_eq_add_of_le hk
  rw [List.range_add, List.takeWhile_append_of_pos (by simpa using hlt)]
  cases m with
  | zero => simp
  | succ m =>
    have hq : q k = false := hge (by omega)
    simp [List.range_succ_eq_map, hq]

theorem ctzN_eq_takeWhile (n v : Nat) : ctzN n v = ((List.range n).takeWhile fun i => !bit v i).length := by
  rw [ctzN]
  cases hfind : (List.range n).find? (bit v) with
  | none =>
    have hnone := List.find?_eq_none.mp hfind
    exact (length_takeWhile_range (Nat.le_refl _) (fun i hi => by simpa using hnone i (List.mem_range.mpr hi)) (fun h => absurd h (Nat.lt_irrefl n))).symm
  | some k =>
    obtain ⟨hbit, hk, hlt⟩ := List.find?_range_eq_some.mp hfind
    exact (length_takeWhile_range (Nat.le_of_lt (List.mem_range.mp hk)) hlt (fun _ => by simp [hbit])).symm

theorem clzN_eq_takeWhile {n v : Nat} (hv : v < 2 ^ n) : clzN n v = ((List.range n).takeWhile fun i => !bit v (n - 1 - i)).length := by
  simp only [bit_eq_testBit]
  rw [clzN]
  split
  case isTrue h =>
    subst h
    exact (length_takeWhile_range (Nat.le_refl _) (fun i _ => by simp) (fun h => absurd h (Nat.lt_irrefl n))).symm
  case isFalse h =>
    have hlog : v.log2 < n := (Nat.log2_lt h).mpr hv
    refine (length_takeWhile_range (by omega) (fun i hi => ?_) (fun _ => ?_)).symm
    · have hhigh : v < 2 ^ (n - 1 - i) := Nat.lt_of_lt_of_le Nat.lt_log2_self (Nat.pow_le_pow_right (by decide) (by omega))
      simp [Nat.testBit_lt_two_pow hhigh]
    · have : n - 1 - (n - 1 - v.log2) = v.log2 := by omega
      simp [this, Nat.testBit_log2 h]

theorem popcount_eq_countP (n v : Nat) : popcount n v = (List.range n).countP fun i => bit v i :=
  (List.countP_eq_length_filter).symm

theorem testBit_maskOf (l : List Nat) (i : Nat) : (maskOf l).testBit i = decide (i ∈ l) := by
  have hfold : ∀ m : Nat, (l.foldl (fun m i => m ||| 1 <<< i) m).testBit i = (m.testBit i || decide (i ∈ l)) := by
    induction l with
    | nil => simp
    | cons j l ih =>
      intro m
      rw [List.foldl_cons, ih, Nat.testBit_or, Nat.one_shiftLeft, Nat.testBit_two_pow]
      simp [Bool.or_assoc, eq_comm]
  rw [maskOf, hfold, Nat.zero_testBit, Bool.false_or]

theorem mem_map_setBitsOf {n : Nat} (a : BitVec n) (i : Nat) :
    i ∈ ((setBitsOf n a.toNat).map fun j => n - 1 - j) ↔ i < n ∧ a.getLsbD (n - 1 - i) = true := by
  simp only [setBitsOf, List.mem_map, List.mem_filter, List.mem_range, bit_toNat]
  constructor
  · rintro ⟨j, ⟨hj, hbit⟩, rfl⟩
    exact ⟨by omega, by rwa [show n - 1 - (n - 1 - j) = j by omega]⟩
  · rintro ⟨hi, hbit⟩
    exact ⟨n - 1 - i, ⟨by omega, hbit⟩, by omega⟩

theorem revBits_eq_reverse {n : Nat} (a : BitVec n) : revBits n a.toNat = a.reverse.toNat := by
  refine Nat.eq_of_testBit_eq fun i => Bool.eq_iff_iff.mpr ?_
  rw [revBits, testBit_maskOf, decide_eq_true_eq, mem_map_setBitsOf, BitVec.testBit_toNat, BitVec.getLsbD_reverse, BitVec.getMsbD, Bool.and_eq_true,
    decide_eq_true_eq]

/-! ### Immediates -/

theorem shori_eq_ofNat (a : Word) (imm : BitVec 16) : a <<< 16 ||| imm.setWidth 64 = BitVec.ofNat 64 (a.toNat * 2 ^ 16 + imm.toNat) := by
  refine BitVec.eq_of_toNat_eq ?_
  have himm : imm.toNat < 2 ^ 16 := imm.isLt
  have hsplit : a.toNat <<< 16 % 2 ^ 64 = (a.toNat % 2 ^ 48) <<< 16 := by
    simp only [Nat.shiftLeft_eq]
    omega
  rw [BitVec.toNat_or, BitVec.toNat_shiftLeft, BitVec.toNat_setWidth, BitVec.toNat_ofNat, Nat.mod_eq_of_lt (Nat.lt_trans himm (by decide)), hsplit,
    ← Nat.shiftLeft_add_eq_or_of_lt himm, Nat.shiftLeft_eq]
  omega

theorem lui_eq_ofInt (imm : BitVec 16) : imm.signExtend 64 <<< 16 = BitVec.ofInt 64 (imm.toInt * 2 ^ 16) := by
  rw [BitVec.shiftLeft_eq_mul_twoPow, BitVec.ofInt_mul]
  rfl

/-! ### Signs of floating-point numbers -/

/-- The sign bit stands above the other bits. -/
theorem xor_two_pow_of_lt {k r : Nat} (hr : r < 2 ^ k) : r ^^^ 2 ^ k = 2 ^ k + r := by
  refine Nat.eq_of_testBit_eq fun j => ?_
  have hadd := Nat.testBit_two_pow_mul_add 1 hr j
  rw [Nat.mul_one] at hadd
  rw [hadd, Nat.testBit_xor, Nat.testBit_two_pow]
  split
  case isTrue hj => simp [Nat.ne_of_gt hj]
  case isFalse hj =>
    have hhigh : r.testBit j = false := Nat.testBit_lt_two_pow (Nat.lt_of_lt_of_le hr (Nat.pow_le_pow_right (by decide) (Nat.le_of_not_lt hj)))
    have hone : Nat.testBit (2 ^ 0) (j - k) = decide (0 = j - k) := Nat.testBit_two_pow
    rw [hhigh, ← Nat.pow_zero 2, hone, Bool.false_xor]
    exact decide_eq_decide.mpr (by omega)

/-- R130: the sign of a number of k + 1 bits, negated. -/
theorem mod_add_neg_sign {k a : Nat} (ha : a < 2 * 2 ^ k) : a % 2 ^ k + (if !decide (2 ^ k ≤ a) then 2 ^ k else 0) = a ^^^ 2 ^ k := by
  by_cases h : 2 ^ k ≤ a
  · obtain ⟨r, rfl⟩ := Nat.exists_eq_add_of_le h
    have hr : r < 2 ^ k := by omega
    rw [← xor_two_pow_of_lt hr, Nat.xor_assoc, Nat.xor_self, Nat.xor_zero, xor_two_pow_of_lt hr, Nat.add_mod_left, Nat.mod_eq_of_lt hr]
    simp
  · rw [xor_two_pow_of_lt (Nat.not_le.mp h), Nat.mod_eq_of_lt (Nat.not_le.mp h)]
    simp [h, Nat.add_comm]

/-- R130: the sign of another number of k + 1 bits. -/
theorem ite_sign_eq {sg b : Nat} (hb : b < 2 * sg) : (if decide (sg ≤ b) then sg else 0) = b / sg * sg := by
  by_cases h : sg ≤ b
  · have hdiv : b / sg = 1 := Nat.div_eq_of_lt_le (by omega) (by omega)
    simp [h, hdiv]
  · simp [h, Nat.div_eq_of_lt (Nat.not_le.mp h)]

theorem fpArg_lt (single : Bool) (a : Word) : fpArg single a < 2 * fSign (fpF single) := by
  cases single
  · exact a.isLt
  · exact Nat.mod_lt _ (by decide)

theorem fSign_fpF (single : Bool) : fSign (fpF single) = if single then 2 ^ 31 else 2 ^ 63 := by
  cases single <;> rfl

section Signs

variable (single : Bool) (ra rb : Reg) (c : Core)

theorem fpSign_neg : fpSign single (fun a _ => !a) ra rb c = ⟨fpArg single (gpr c ra) ^^^ fSign (fpF single), 0⟩ :=
  congrArg (FRes.mk · 0) (mod_add_neg_sign (fpArg_lt single (gpr c ra)))

theorem fpSign_abs : fpSign single (fun _ _ => false) ra rb c = ⟨fpArg single (gpr c ra) % fSign (fpF single), 0⟩ := rfl

theorem fpSign_other : fpSign single (fun _ b => b) ra rb c =
    ⟨fpArg single (gpr c ra) % fSign (fpF single) + fpArg single (gpr c rb) / fSign (fpF single) * fSign (fpF single), 0⟩ :=
  congrArg (fun x => FRes.mk (fpArg single (gpr c ra) % fSign (fpF single) + x) 0) (ite_sign_eq (fpArg_lt single (gpr c rb)))

end Signs

end Sys2Proof.Machine

/-! PROOFS. Statements of the Coxel core (chapter 9): registers, integer, bit, immediate and floating-point instructions. -/

namespace Sys2Proof.Machine

/-! ### Registers -/

theorem gpr_zero (c : Core) : gpr c 0 = 0 := if_pos rfl

theorem gpr_of_ne {q : Reg} (hq : q ≠ 0) (c : Core) : gpr c q = tget 0 c.regs q.toNat := if_neg hq

theorem setGpr_of_ne {r : Reg} (hr : r ≠ 0) (c : Core) (v : Word) : setGpr c r v = { c with regs := tset 0 c.regs r.toNat v } := if_neg hr

/-- Settles O11: a write to g0 is discarded, and of the other registers each has its own place. -/
theorem registerFile : Obligations.RegisterFile := by
  intro c r q v
  by_cases hq : q = 0
  · rw [hq, gpr_zero, if_pos rfl]
  · rw [if_neg hq]
    by_cases hr : r = 0
    · rw [setGpr, if_pos hr, if_neg (hr ▸ hq)]
    · rw [gpr_of_ne hq, gpr_of_ne hq, setGpr_of_ne hr, tget_tset]
      simp only [BitVec.toNat_inj]

/-! ### Integer, bit and immediate instructions -/

/-- Settles O12: each instruction computes its value, which is the value that the rule states. -/
theorem integerResults : Obligations.IntegerResults := by
  intro s f p d ra rb h a b
  simp only [List.forall_mem_cons, List.not_mem_nil, false_implies, implies_true, and_true]
  refine ⟨?_, ?_, ?_, ?_, ?_, ?_, ?_, ?_, ?_, ?_, ?_, ?_, ?_, ?_, ?_, ?_, ?_⟩
  · exact coreRuns_compute h rfl rfl
  · exact coreRuns_compute h rfl rfl
  · exact coreRuns_compute h rfl rfl
  · exact coreRuns_compute h rfl rfl
  · exact coreRuns_compute h rfl rfl
  · exact coreRuns_compute h rfl (shiftLeft_eq_ofNat ..)
  · exact coreRuns_compute h rfl (ushiftRight_eq_ofNat ..)
  · exact coreRuns_compute h rfl (sshiftRight_eq_ofInt ..)
  · exact coreRuns_compute h rfl (slt_eq_ite a b)
  · exact coreRuns_compute h rfl (sltu_eq_ite a b)
  · exact coreRuns_compute h rfl (min_eq_ofInt a b)
  · exact coreRuns_compute h rfl (max_eq_ofInt a b)
  · exact coreRuns_compute h rfl (minu_eq_ofNat a b)
  · exact coreRuns_compute h rfl (maxu_eq_ofNat a b)
  · exact coreRuns_compute h rfl (mul_eq_ofInt a b)
  · exact coreRuns_compute h rfl (mulh_eq_ofInt a b)
  · exact coreRuns_compute h rfl (mulhu_eq_ofNat a b)

/-- Settles O13: the 32-bit value of each .W form, sign-extended. -/
theorem wordResults : Obligations.WordResults := by
  intro s f p d ra rb h a b
  simp only [List.forall_mem_cons, List.not_mem_nil, false_implies, implies_true, and_true]
  refine ⟨?_, ?_, ?_, ?_, ?_, ?_⟩
  · exact coreRuns_compute h rfl (congrArg sx32 (add_eq_ofInt a b))
  · exact coreRuns_compute h rfl (congrArg sx32 (sub_eq_ofInt a b))
  · exact coreRuns_compute h rfl (congrArg sx32 (by rw [lo32_mod]; exact shiftLeft_eq_ofNat ..))
  · exact coreRuns_compute h rfl (congrArg sx32 (by rw [lo32_mod]; exact ushiftRight_eq_ofNat ..))
  · exact coreRuns_compute h rfl (congrArg sx32 (by rw [lo32_mod]; exact sshiftRight_eq_ofInt ..))
  · exact coreRuns_compute h rfl (congrArg sx32 (mul_eq_ofInt a b))

/-- Settles O14: with a nonzero divisor the model divides as the rule does, at both widths. -/
theorem divisionResults : Obligations.DivisionResults := by
  intro s f p d ra rb h a b aw bw
  simp only [List.forall_mem_cons, List.not_mem_nil, false_implies, implies_true, and_true]
  refine ⟨fun hb => ⟨?_, ?_, ?_, ?_⟩, fun hb => ⟨?_, ?_, ?_, ?_⟩⟩
  · exact coreRuns_compute h rfl (divS_eq_ofInt a hb)
  · exact coreRuns_compute h rfl (divU_eq_ofNat a hb)
  · exact coreRuns_compute h rfl (remS_eq_ofInt a hb)
  · exact coreRuns_compute h rfl (remU_eq_ofNat a hb)
  · exact coreRuns_compute h rfl (congrArg sx32 (divS_eq_ofInt aw hb))
  · exact coreRuns_compute h rfl (congrArg sx32 (divU_eq_ofNat aw hb))
  · exact coreRuns_compute h rfl (congrArg sx32 (remS_eq_ofInt aw hb))
  · exact coreRuns_compute h rfl (congrArg sx32 (remU_eq_ofNat aw hb))

/-- Settles O16: the counts are lengths of runs of bits, and the reversals go bit by bit or byte by byte. -/
theorem bitResults : Obligations.BitResults := by
  intro s f p d ra h a w
  simp only [List.forall_mem_cons, List.not_mem_nil, false_implies, implies_true, and_true, ← bit_toNat]
  refine ⟨?_, ?_, ?_, ?_, ?_, ?_, ?_, ?_, ?_, ?_, ?_, ?_⟩
  · exact coreRuns_compute h rfl (congrArg toW (clzN_eq_takeWhile a.isLt))
  · exact coreRuns_compute h rfl (congrArg toW (ctzN_eq_takeWhile 64 a.toNat))
  · exact coreRuns_compute h rfl (congrArg toW (popcount_eq_countP 64 a.toNat))
  · exact coreRuns_compute h rfl (congrArg (fun n => toW (n % 2)) (popcount_eq_countP 64 a.toNat))
  · exact coreRuns_compute h rfl (by rw [revBits_eq_reverse]; exact BitVec.ofNat_toNat _ _)
  · exact coreRuns_compute h rfl rfl
  · exact coreRuns_compute h rfl (congrArg toW (clzN_eq_takeWhile w.isLt))
  · exact coreRuns_compute h rfl (congrArg toW (ctzN_eq_takeWhile 32 w.toNat))
  · exact coreRuns_compute h rfl (congrArg toW (popcount_eq_countP 32 w.toNat))
  · exact coreRuns_compute h rfl (congrArg (fun n => toW (n % 2)) (popcount_eq_countP 32 w.toNat))
  · exact coreRuns_compute h rfl (by rw [revBits_eq_reverse]; exact BitVec.ofNat_toNat _ _)
  · exact coreRuns_compute h rfl rfl

/-- Settles O17: the immediate enters extended as its row of Table 9-3 says. -/
theorem immediateResults : Obligations.ImmediateResults := by
  intro s f p d ra imm sh h a
  have himm : (imm.signExtend 64).toInt = imm.toInt := BitVec.toInt_signExtend_of_le (by decide)
  simp only [List.forall_mem_cons, List.not_mem_nil, false_implies, implies_true, and_true]
  refine ⟨?_, ?_, ?_, ?_, ?_, ?_, ?_, ?_, ?_, ?_⟩
  · exact coreRuns_compute h rfl (by rw [BitVec.ofInt_add, BitVec.ofInt_toInt]; rfl)
  · exact coreRuns_compute h rfl rfl
  · exact coreRuns_compute h rfl rfl
  · exact coreRuns_compute h rfl rfl
  · exact coreRuns_compute h rfl (lui_eq_ofInt imm)
  · exact coreRuns_compute h rfl ((slt_eq_ite ..).trans (by rw [himm]))
  · exact coreRuns_compute h rfl (shiftLeft_eq_ofNat ..)
  · exact coreRuns_compute h rfl (ushiftRight_eq_ofNat ..)
  · exact coreRuns_compute h rfl (sshiftRight_eq_ofInt ..)
  · exact coreRuns_compute h rfl (shori_eq_ofNat a imm)

/-! ### Floating-point instructions -/

theorem setGpr_fpctl (c : Core) (r : Reg) (v : Word) : (setGpr c r v).fpctl = c.fpctl := by
  unfold setGpr
  split <;> rfl

/-- R311: a floating-point instruction writes its result and raises its flags, and nothing else changes. -/
theorem coreIs_computeFp (f : State) (p : Nat) (d : Reg) (v : Core → FRes) :
    CoreIs f (computeFp p d v f) p (wroteFp (core f p) d (v (core f p))) := by
  have h := coreIs_retire (onlyCore_modCore (onlyCore_modCore (.refl f p) fun c => setGpr c d (toW (v (core f p)).v)) fun c =>
    { c with fpctl := raise c.fpctl (v (core f p)).fl })
  rw [core_modCore, core_modCore, setGpr_fpctl] at h
  exact h

theorem coreRuns_computeFp {i : Instr} {s f : State} {p : Nat} {d : Reg} {v : Core → FRes} {x : FRes} (h : Fetched s p f)
    (hi : exec i s = done (issue s p (computeFp p d v))) (hv : v (core f p) = x) : CoreRuns i s f p (wroteFp (core f p) d x) := by
  refine ⟨computeFp p d v f, ?_, hv ▸ coreIs_computeFp f p d v⟩
  rw [hi, issue_of_fetched h]
  rfl


/-- Settles O19: each instruction writes its operation's result in the format of FUNC[10], and raises its flags. -/
theorem floatResults : Obligations.FloatResults := by
  intro s f p single d ra rb h c fm arg a b rm sg
  have hsg : fSign (fpF single) = sg := fSign_fpF single
  simp only [List.forall_mem_cons, List.not_mem_nil, false_implies, implies_true, and_true]
  refine ⟨?_, ?_, ?_, ?_, ?_, ?_, ?_, ?_, ?_, ?_, ?_, ?_, ?_, ?_, ?_, ?_, ?_, ?_, ?_, ?_, ?_, ?_⟩
  · exact coreRuns_computeFp h rfl rfl
  · exact coreRuns_computeFp h rfl rfl
  · exact coreRuns_computeFp h rfl rfl
  · exact coreRuns_computeFp h rfl rfl
  · exact coreRuns_computeFp h rfl rfl
  · exact coreRuns_computeFp h rfl rfl
  · exact coreRuns_computeFp h rfl rfl
  · exact coreRuns_computeFp h rfl rfl
  · exact coreRuns_computeFp h rfl rfl
  · exact coreRuns_computeFp h rfl rfl
  · exact coreRuns_computeFp h rfl rfl
  · exact coreRuns_computeFp h rfl ((fpSign_neg single ra 0 c).trans (by rw [hsg]; rfl))
  · exact coreRuns_computeFp h rfl ((fpSign_abs single ra 0 c).trans (by rw [hsg]; rfl))
  · exact coreRuns_computeFp h rfl ((fpSign_other single ra rb c).trans (by rw [hsg]; rfl))
  · exact coreRuns_computeFp h rfl rfl
  · cases single <;> exact coreRuns_computeFp h rfl rfl
  · exact coreRuns_computeFp h rfl rfl
  · exact coreRuns_computeFp h rfl rfl
  · exact coreRuns_computeFp h rfl rfl
  · exact coreRuns_computeFp h rfl rfl
  · exact coreRuns_computeFp h rfl rfl
  · exact coreRuns_computeFp h rfl rfl

end Sys2Proof.Machine

/-! PROOFS. Statements of the Coxel core (chapter 9): branches, jumps and the control and status registers. -/

namespace Sys2Proof.Machine

/-! ### How a core instruction runs -/

/-- A fetched instruction settles its own effect. -/
theorem exec_of_fetched {i : Instr} {s f : State} {p : Nat} {g : State → State} (h : Fetched s p f)
    (hi : exec i s = done (issue s p g)) : exec i s = .next (settle (g f)) := by
  rw [hi, issue_of_fetched h]
  rfl

/-- A fetched instruction whose effect leaves a core leaves that core. -/
theorem coreRuns_of_coreIs {i : Instr} {s f f' : State} {p : Nat} {g : State → State} {c : Core} (h : Fetched s p f)
    (hi : exec i s = done (issue s p g)) (hg : CoreIs f' (g f) p c) : CoreRuns i s f' p c :=
  ⟨g f, exec_of_fetched h hi, hg⟩

/-- A last change of the core, which leaves its line, leaves the core so changed. -/
theorem coreIs_leaveLine {f u : State} {p : Nat} (h : OnlyCore f u p) (g : Core → Core) :
    CoreIs f (modCore (leaveLine u p) p g) p (g (core u p)) := by
  have hline : leaveLine u p = { leaveLine f p with cores := u.cores } := by
    rw [h.1]
    rfl
  refine ⟨?_, fun n hn => ?_, core_modCore (leaveLine u p) p g⟩
  · calc modCore (leaveLine u p) p g = { leaveLine u p with cores := (modCore (leaveLine u p) p g).cores } := rfl
      _ = { leaveLine f p with cores := (modCore (leaveLine u p) p g).cores } := by rw [hline]
  · exact (coreAt_modCore_ne (s := leaveLine u p) g (h.leadOf_eq ▸ hn)).trans (h.2 n hn)

theorem coreIs_retireTo {f u : State} {p : Nat} (h : OnlyCore f u p) (t : Nat) :
    CoreIs f (retireTo u p t) p { core u p with pc := t, instret := (core u p).instret + 1 } :=
  coreIs_leaveLine h _

/-- A register write leaves the rest of the core. -/
theorem setGpr_eq (c : Core) (r : Reg) (v : Word) : setGpr c r v = { c with regs := (setGpr c r v).regs } := by
  unfold setGpr
  split <;> rfl

theorem setGpr_instret (c : Core) (r : Reg) (v : Word) : (setGpr c r v).instret = c.instret := by rw [setGpr_eq]

/-! ### Control flow -/

/-- The target of a relative jump, with the offset in words. -/
theorem target_toNat {n : Nat} (hn : n ≤ 64) (pc : Nat) (off : BitVec n) :
    (toW pc + off.signExtend 64 * 4).toNat = (((pc : Int) + 4 * off.toInt) % 2 ^ 64).toNat := by
  have hoff : (off.signExtend 64).toInt = off.toInt := BitVec.toInt_signExtend_of_le hn
  have hsum : toW pc + off.signExtend 64 * 4 = BitVec.ofInt 64 ((pc : Int) + 4 * off.toInt) := by
    rw [BitVec.ofInt_add, Int.mul_comm, BitVec.ofInt_mul, ← hoff, BitVec.ofInt_toInt, BitVec.ofInt_natCast]
    rfl
  rw [hsum, BitVec.toNat_ofInt]
  rfl

/-- A branch goes to its target where its condition holds, and past itself where it does not. -/
theorem branch_runs {i : Instr} {s f : State} {p : Nat} {ra rb : Reg} {off : BitVec 16} {taken : Word → Word → Bool} {b : Bool}
    (h : Fetched s p f) (hi : exec i s = done (issue s p (doBranch p taken ra rb off)))
    (hb : taken (gpr (core f p) ra) (gpr (core f p) rb) = b) :
    CoreRuns i s f p { core f p with
      pc := if b then ((((core f p).pc : Int) + 4 * off.toInt) % 2 ^ 64).toNat else (core f p).pc + 4
      instret := (core f p).instret + 1 } := by
  refine coreRuns_of_coreIs h hi ?_
  simp only [doBranch, hb, target_toNat (show 16 ≤ 64 by decide)]
  cases b
  · exact coreIs_retire (.refl f p)
  · exact coreIs_retireTo (.refl f p) _

/-- Settles O28: each row of Table 9-4 with its comparison. -/
theorem branchResults : Obligations.BranchResults := by
  intro s f p ra rb off h c a b _
  have hnot (x y : Int) : (!decide (x < y)) = decide (y ≤ x) := by rw [← decide_not, decide_eq_decide, Int.not_lt]
  have hnotN (x y : Nat) : (!decide (x < y)) = decide (y ≤ x) := by rw [← decide_not, decide_eq_decide, Nat.not_lt]
  simp only [List.forall_mem_cons, List.not_mem_nil, false_implies, implies_true, and_true]
  refine ⟨?_, ?_, ?_, ?_, ?_, ?_⟩
  · exact branch_runs h rfl (Bool.beq_eq_decide_eq a b)
  · exact branch_runs h rfl (by rw [bne, Bool.beq_eq_decide_eq, ← decide_not])
  · exact branch_runs h rfl rfl
  · exact branch_runs h rfl (hnot _ _)
  · exact branch_runs h rfl rfl
  · exact branch_runs h rfl (hnotN _ _)

/-- Settles O29: the link register is written before the jump, whose target is canonical and aligned. -/
theorem jumpResults : Obligations.JumpResults := by
  intro s f p d ra off h c t a next _
  have ht : jTarget c off = t := target_toNat (by decide) c.pc off
  refine ⟨?_, ?_, fun hal hcan => ?_⟩
  · exact coreRuns_of_coreIs h rfl (ht ▸ coreIs_retireTo (.refl f p) _)
  · have hput := onlyCore_modCore (.refl f p) fun c => setGpr c 30 next
    have hrun := coreIs_retireTo hput t
    rw [core_modCore, setGpr_instret] at hrun
    exact coreRuns_of_coreIs h rfl (ht ▸ hrun)
  · have hjump (link : Option Reg) (w : Word32) : doJump p link ra w f =
        retireTo (match link with | some r => putReg f p r next | none => f) p a := by
      simp only [doJump]
      rw [if_neg (Classical.not_not.2 hal), if_neg (Nat.not_le.2 hcan)]
      rfl
    constructor
    · refine coreRuns_of_coreIs h rfl ?_
      rw [hjump]
      exact coreIs_retireTo (.refl f p) a
    · have hput := onlyCore_modCore (.refl f p) fun c => setGpr c d next
      have hrun := coreIs_retireTo hput a
      rw [core_modCore, setGpr_instret] at hrun
      refine coreRuns_of_coreIs h rfl ?_
      rw [hjump]
      exact hrun

/-! ### Control and status registers -/

section Csr

variable {i : Instr} {s f : State} {p n : Nat} {d ra : Reg} {w : Word32}

/-- A CSR that is there and that the mode may access gives its old value, once its write has acted on the core. -/
theorem coreIs_doCsr {g : Word → State → State} {old : Word} (hk : csrKnown n = true) (hu : ((core f p).user && !csrUser n) = false)
    (hv : csrRead f p n = old) (hw : OnlyCore f (g old f) p) :
    CoreIs f (doCsr p d n w g f) p (wrote (core (g old f) p) d old) := by
  simp only [doCsr, hk, hu, hv, Bool.not_true, Bool.false_eq_true, if_false]
  exact coreIs_retire_putReg hw d old

theorem onlyCore_csrWrite (f : State) (p n : Nat) (v : Word) (w1c : Bool) : OnlyCore f (csrWrite f p n v w1c) p :=
  onlyCore_modCore (.refl f p) _

end Csr

theorem statusOf_eq (c : Core) : statusOf c = c.ml * 256 + (if c.breach then 16 else 0) + if c.user then 1 else 0 := by
  unfold statusOf
  cases c.breach <;> cases c.user <;> simp only [b2n, Nat.shiftLeft_eq] <;> rfl

theorem coreId_eq (s : State) (p : Nat) :
    coreId s p = (cdAt s (leadOf s p)).polder * 65536 +
      (if 24 ≤ (cdAt s (leadOf s p)).rank then 0 else (cdAt s (leadOf s p)).rank) * 256 + leadOf s p := by
  simp only [coreId, Nat.shiftLeft_eq, Nat.reducePow]

/-- In K mode a read of a CSR writes its value in effect. -/
theorem csrr_runs {s f : State} {p : Nat} {v : Word} (h : Fetched s p f) (hu : (core f p).user = false) (d : Reg) (n : BitVec 12)
    (hk : csrKnown n.toNat = true) (hv : csrRead f p n.toNat = v) : CoreRuns (.csrr p d n) s f p (wrote (core f p) d v) :=
  coreRuns_of_coreIs h rfl (coreIs_doCsr (g := fun _ s => s) hk (by rw [hu]; rfl) hv (.refl f p))

/-- In K mode each of the three writes of a CSR gives its old value `e.2.1`, and `e.2.2` is what the core takes. -/
theorem csrw_runs {s f : State} {p : Nat} (h : Fetched s p f) (hu : (core f p).user = false) (d ra : Reg)
    (e : BitVec 12 × Word × (Word → Core → Core))
    (he : csrKnown e.1.toNat = true ∧ csrRead f p e.1.toNat = e.2.1 ∧
      ∀ v w1c, core (csrWrite f p e.1.toNat v w1c) p = e.2.2 v (core f p)) :
    CoreRuns (.csrw p d ra e.1) s f p (wrote (e.2.2 (gpr (core f p) ra) (core f p)) d e.2.1) ∧
    CoreRuns (.csrs p d ra e.1) s f p (wrote (e.2.2 (e.2.1 ||| gpr (core f p) ra) (core f p)) d e.2.1) ∧
    CoreRuns (.csrc p d ra e.1) s f p (wrote (e.2.2 (e.2.1 &&& ~~~ gpr (core f p) ra) (core f p)) d e.2.1) := by
  obtain ⟨n, old, g⟩ := e
  obtain ⟨hk, hv, hw⟩ := he
  have hmode : ((core f p).user && !csrUser n.toNat) = false := by rw [hu]; rfl
  have hrun {i : Instr} {g' : Word → State → State} {v : Word} {w1c : Bool} {w : Word32}
      (hi : exec i s = done (issue s p (doCsr p d n.toNat w g'))) (hg : g' old f = csrWrite f p n.toNat v w1c) :
      CoreRuns i s f p (wrote (g v (core f p)) d old) := by
    have hcore := coreIs_doCsr (g := g') (d := d) (w := w) hk hmode hv (hg ▸ onlyCore_csrWrite f p n.toNat v w1c)
    rw [hg, hw] at hcore
    exact coreRuns_of_coreIs h hi hcore
  exact ⟨hrun rfl rfl, hrun rfl rfl, hrun rfl rfl⟩

/-- Settles O30: each CSR's number selects its value. -/
theorem csrReads : Obligations.CsrReads := by
  intro s f p d h hu c
  simp only [List.forall_mem_cons, List.not_mem_nil, false_implies, implies_true, and_true]
  refine ⟨?_, ?_, ?_, ?_, ?_, ?_, ?_, ?_, ?_, ?_, ?_, ?_, ?_, ?_, ?_, ?_, ?_, ?_, ?_, ?_, ?_, ?_, ?_, ?_⟩
  case refine_7 => exact csrr_runs h hu d 0x100 rfl (congrArg toW (statusOf_eq c))
  case refine_19 => exact csrr_runs h hu d 0x130 rfl (congrArg toW (coreId_eq f p))
  all_goals exact csrr_runs h hu d _ rfl rfl

/-- Settles O31: each CSR's number selects its value and the layout under which it takes a write. -/
theorem csrWrites : Obligations.CsrWrites := by
  intro s f p d ra h hu c a e he
  refine csrw_runs h hu d ra e ?_
  revert e
  simp only [List.forall_mem_cons, List.not_mem_nil, false_implies, implies_true, and_true]
  refine ⟨?_, ?_, ?_, ?_, ?_, ?_, ?_, ?_, ?_, ?_, ?_, ?_, ?_, ?_, ?_, ?_, ?_, ?_, ?_, ?_, ?_, ?_, ?_⟩
  case refine_6 => exact ⟨rfl, congrArg toW (statusOf_eq c), fun _ _ => core_modCore ..⟩
  all_goals exact ⟨rfl, rfl, fun _ _ => core_modCore ..⟩

/-- Settles O32: FPCTL is U-mode's too, and of its fields RM is read-write and the flags clear by ones. -/
theorem fpctlWrites : Obligations.FpctlWrites := by
  intro s f p d ra h c a fl rm
  have hput (v : Word) (w1c : Bool) : core (csrWrite f p 3 v w1c) p =
      { c with fpctl := BitVec.ofNat 64 (rm v * 256 + if w1c then fl - (fl &&& fld v 0 5) else fl) } := by
    rw [csrWrite, core_modCore, if_pos rfl, putFpctl, Nat.shiftLeft_eq]
    rfl
  have hrun {i : Instr} {g : Word → State → State} {v : Word} {w1c : Bool} {w : Word32}
      (hi : exec i s = done (issue s p (doCsr p d 3 w g))) (hg : g c.fpctl f = csrWrite f p 3 v w1c) :
      CoreRuns i s f p (wrote (core (csrWrite f p 3 v w1c) p) d c.fpctl) := by
    have hcore := coreIs_doCsr (n := 3) (g := g) (d := d) (w := w) (old := c.fpctl) rfl (Bool.and_false _) rfl
      (hg ▸ onlyCore_csrWrite f p 3 v w1c)
    rw [hg] at hcore
    exact coreRuns_of_coreIs h hi hcore
  refine ⟨?_, ?_, ?_⟩
  · exact hput a true ▸ hrun rfl rfl
  · exact hput (c.fpctl ||| a) false ▸ hrun rfl rfl
  · exact hput (c.fpctl &&& ~~~ a) false ▸ hrun rfl rfl

end Sys2Proof.Machine

/-! PROOFS. Statements of the Coxel core (chapter 9): loads, stores, atomics, the block CRC and I/O space. -/

namespace Sys2Proof.Machine

/-! ### Loads and stores -/

/-- Sign extension of the low `n` bits to a word. -/
theorem toWi_sext (n v : Nat) : toWi (sext n v) = (BitVec.ofNat n v).signExtend 64 := by
  have hs : (BitVec.ofNat n v).toInt = sext n v := by
    rw [BitVec.toInt_eq_toNat_cond, BitVec.toNat_ofNat]
    rfl
  rw [BitVec.signExtend, hs]
  rfl

theorem toW_eq_setWidth {n v : Nat} (hv : v < 2 ^ n) : toW v = (BitVec.ofNat n v).setWidth 64 := by
  apply BitVec.eq_of_toNat_eq
  rw [BitVec.toNat_setWidth, BitVec.toNat_ofNat, Nat.mod_eq_of_lt hv]
  exact BitVec.toNat_ofNat v 64

theorem setGpr_localSram (c : Core) (r : Reg) (v : Word) (m : Memory) :
    setGpr { c with localSram := m } r v = { setGpr c r v with localSram := m } := by
  unfold setGpr
  split <;> rfl

/-- A load that reads its bytes writes them, extended, to its register. -/
theorem load_runs {i : Instr} {s f g : State} {p size v : Nat} {d ra : Reg} {disp : BitVec 16} {signed : Bool} {w : Word32} {x : Word}
    (h : Fetched s p f) (hi : exec i s = done (issue s p (doLoad p d ra disp size signed w)))
    (hl : loadData f p (gpr (core f p) ra + disp.signExtend 64).toNat size = (.ok v, g))
    (hx : (if signed then toWi (sext (8 * size) v) else toW v) = x) : CoreRuns i s g p (wrote (core g p) d x) := by
  have hrun : doLoad p d ra disp size signed w f = retire (putReg g p d x) p := by
    rw [doLoad, mAddr, hl]
    exact congrArg (fun x => retire (putReg g p d x) p) hx
  exact coreRuns_of_coreIs h hi (hrun ▸ coreIs_retire_putReg (.refl g p) d x)

/-- Settles O20: the size and the extension of each row. -/
theorem loadResults : Obligations.LoadResults := by
  intro s f g p v d ra disp h va
  simp only [List.forall_mem_cons, List.not_mem_nil, false_implies, implies_true, and_true]
  refine ⟨?_, ?_, ?_, ?_, ?_, ?_, ?_⟩
  · exact fun _ hl => load_runs h rfl hl (toWi_sext 8 v)
  · exact fun hv hl => load_runs h rfl hl (toW_eq_setWidth (n := 8) hv)
  · exact fun _ hl => load_runs h rfl hl (toWi_sext 16 v)
  · exact fun hv hl => load_runs h rfl hl (toW_eq_setWidth (n := 16) hv)
  · exact fun _ hl => load_runs h rfl hl (toWi_sext 32 v)
  · exact fun hv hl => load_runs h rfl hl (toW_eq_setWidth (n := 32) hv)
  · exact fun _ hl => load_runs h rfl hl ((toWi_sext 64 v).trans (BitVec.signExtend_eq _))

/-- The halves of an access as the statements write them. -/
theorem halves_eq (va n : Nat) :
    halves va n = if va % 8 + n ≤ 8 then [(va, n)] else [(va, 8 - va % 8), (va - va % 8 + 8, va % 8 + n - 8)] := by
  rw [halves, show va / 8 * 8 = va - va % 8 by omega]

/-- An access below the top of the canonical addresses has no half outside them. -/
theorem badHalf_halves {va n : Nat} (hn : 0 < n) (h : va + n ≤ 2 ^ 48) : badHalf (halves va n) = none := by
  have hva : ¬ 2 ^ 48 ≤ va := by omega
  rw [halves_eq]
  split
  · simp only [badHalf, if_neg hva]
  · have hvb : ¬ 2 ^ 48 ≤ va - va % 8 + 8 := by omega
    simp only [badHalf, if_neg hva, if_neg hvb]

/-- A placed store enters the buffer, once the entries that leave for it have drained. -/
theorem store_runs {i : Instr} {s f g : State} {p size : Nat} {gs ra : Reg} {disp : BitVec 16} {w : Word32} {ls : List (Loc × Nat)}
    (h : Fetched s p f) (hi : exec i s = done (issue s p (doStore p gs ra disp size w))) (hsize : 0 < size) :
    let va := (gpr (core f p) ra + disp.signExtend 64).toNat
    let hs := if va % 8 + size ≤ 8 then [(va, size)] else [(va, 8 - va % 8), (va - va % 8 + 8, va % 8 + size - 8)]
    va + size ≤ 2 ^ 48 → placeAll f p 2 0 true hs false = (.ok ls, g) → mayDrain g p ((core g p).sb.length + hs.length - 8) = none →
      let u := drainN p ((core g p).sb.length + hs.length - 8) g
      CoreRuns i s u p (past { core u p with sb := (core u p).sb ++ sbEntries ls hs (bytesLE size (gpr (core f p) gs).toNat) }) := by
  intro va hs hcan hplace hdrain u
  have hhalves : halves va size = hs := halves_eq va size
  have hbad : badHalf hs = none := hhalves ▸ badHalf_halves hsize hcan
  have hstore (v : Nat) : storeData f p va size v = (none, sbPush g p hs.length (sbEntries ls hs (bytesLE size v))) := by
    simp only [storeData, hhalves, hbad, hplace, hdrain]
  have hrun : doStore p gs ra disp size w f =
      retire (modCore u p fun c => { c with sb := c.sb ++ sbEntries ls hs (bytesLE size (gpr (core f p) gs).toNat) }) p := by
    rw [doStore, mAddr, hstore]
    rfl
  have hcore := coreIs_retire (onlyCore_modCore (.refl u p) fun c =>
    { c with sb := c.sb ++ sbEntries ls hs (bytesLE size (gpr (core f p) gs).toNat) })
  rw [core_modCore] at hcore
  exact coreRuns_of_coreIs h hi (hrun ▸ hcore)

/-- Settles O22: the size of each row. -/
theorem storeResults : Obligations.StoreResults := by
  intro s f g p gs ra disp ls h va
  simp only [List.forall_mem_cons, List.not_mem_nil, false_implies, implies_true, and_true]
  refine ⟨?_, ?_, ?_, ?_⟩
  · exact store_runs h rfl (by decide)
  · exact store_runs h rfl (by decide)
  · exact store_runs h rfl (by decide)
  · exact store_runs h rfl (by decide)

/-! ### Atomics -/

/-- An atomic past its checks performs at its place once the store buffer has drained. -/
theorem doAmo_placed {f g : State} {p op fmt : Nat} {d ra rb : Reg} {dbl : Bool} {l : Loc} (w : Word32) :
    let va := (gpr (core f p) ra).toNat
    let n := if dbl then 8 else 4
    let h := match l with
      | .mem pa => modCore (drainAll g p) p fun c => dcInval c pa n
      | .sram _ => drainAll g p
    va < 2 ^ 48 → va % n = 0 → place f p va n 3 0 false = (.ok l, g) → mayDrain g p 8 = none →
      doAmo p d ra rb dbl op fmt w f =
        match amoAt h p l va op fmt ((gpr (core f p) rb).toNat % 2 ^ (8 * n)) ((gpr (core f p) d).toNat % 2 ^ (8 * n)) with
        | (.error e, s) => stopCore s p w e
        | (.ok old, s) => retire (putReg s p d (toWi (sext (8 * n) old))) p := by
  intro va n h hcan hal hplace hdrain
  have hnc : ¬ 2 ^ 48 ≤ va := Nat.not_le.2 hcan
  rw [doAmo, if_neg hnc, if_neg (Classical.not_not.2 hal)]
  simp only [show (gpr (core f p) ra).toNat = va from rfl, show (if dbl then 8 else 4) = n from rfl, hplace, hdrain]
  rfl

/-- An atomic whose operation gives `q` of the old value: at the core-local SRAM, and at a home that answers. -/
theorem atomic_runs {i : Instr} {s f g : State} {p op fmt : Nat} {d ra rb : Reg} {dbl : Bool} {w : Word32} {q : Nat → Nat}
    (h : Fetched s p f) (hi : exec i s = done (issue s p (doAmo p d ra rb dbl op fmt w))) :
    let va := (gpr (core f p) ra).toNat
    let n := if dbl then 8 else 4
    let b := (gpr (core f p) rb).toNat % 2 ^ (8 * n)
    let c := (gpr (core f p) d).toNat % 2 ^ (8 * n)
    opSize fmt = n → (∀ old, (adderOp op fmt old b c).v = q old) → va < 2 ^ 48 → va % n = 0 → mayDrain g p 8 = none →
      (∀ off, place f p va n 3 0 false = (.ok (.sram off), g) →
        let h := drainAll g p
        let old := natLE (mgetN (core h p).localSram off n)
        CoreRuns i s h p { wrote (core h p) d (BitVec.ofInt 64 (sext (8 * n) old)) with
          localSram := msetN (core h p).localSram off (bytesLE n (q old)) }) ∧
      (∀ pa r u, place f p va n 3 0 false = (.ok (.mem pa), g) →
        let h := modCore (drainAll g p) p fun k => dcInval k pa n
        mayAsk h p 2 pa = none → updateAtom h (coreCtx h p 0 (.coreAtomic p)) pa op fmt [b] c = (.ok r, u) →
        CoreRuns i s u p (wrote (core u p) d (BitVec.ofInt 64 (sext (8 * n) (r.old.headD 0))))) := by
  intro va n b c hsize hq hcan hal hdrain
  constructor
  · intro off hplace u old
    have hrun := doAmo_placed (d := d) (rb := rb) (op := op) (fmt := fmt) w hcan hal hplace hdrain
    have hamo : amoAt u p (.sram off) va op fmt b c =
        (.ok old, modCore u p fun k => { k with localSram := msetN k.localSram off (bytesLE n (q old)) }) := by
      simp only [amoAt, hsize, hq]
      rfl
    have hcore := coreIs_retire_putReg (onlyCore_modCore (.refl u p) fun k =>
      { k with localSram := msetN k.localSram off (bytesLE n (q old)) }) d (toWi (sext (8 * n) old))
    rw [core_modCore, wrote, setGpr_localSram] at hcore
    refine coreRuns_of_coreIs h hi ?_
    rw [hrun, hamo]
    exact hcore
  · intro pa r u hplace h' hask hupd
    have hrun := doAmo_placed (d := d) (rb := rb) (op := op) (fmt := fmt) w hcan hal hplace hdrain
    have hamo : amoAt h' p (.mem pa) va op fmt b c = (.ok (r.old.headD 0), u) := by
      simp only [amoAt, hask, hupd]
    refine coreRuns_of_coreIs h hi ?_
    rw [hrun, hamo]
    exact coreIs_retire_putReg (.refl u p) d _

/-- Settles O24: the adder's operation of each row, whose width is the access's. -/
theorem atomicResults : Obligations.AtomicResults := by
  intro s f g p d ra rb dbl h va n b c hcan hal hdrain
  have hadd : opSize (amoFmtAdd dbl) = n := by cases dbl <;> rfl
  have hbits : opSize (amoFmtBits dbl) = n := by cases dbl <;> rfl
  have hsum (old : Nat) : (adderOp 0 (amoFmtAdd dbl) old b c).v = (old + b) % 2 ^ (8 * n) := by cases dbl <;> rfl
  simp only [List.forall_mem_cons, List.not_mem_nil, false_implies, implies_true, and_true]
  refine ⟨?_, ?_, ?_⟩
  · exact atomic_runs (i := .amoadd p d ra rb dbl) h rfl hadd hsum hcan hal hdrain
  · exact atomic_runs (i := .amoswap p d ra rb dbl) h rfl hbits (fun _ => rfl) hcan hal hdrain
  · exact atomic_runs (i := .amocas p d ra rb dbl) h rfl hbits (fun _ => rfl) hcan hal hdrain

/-! ### The block CRC -/

/-- The pieces of a byte range end where the range does, at most. -/
theorem bytePieces_le {fuel va n : Nat} : ∀ x ∈ bytePieces fuel va n, x.1 + x.2 ≤ va + n := by
  induction fuel generalizing va n with
  | zero => exact fun x hx => absurd hx List.not_mem_nil
  | succ fuel ih =>
    intro x hx
    rw [bytePieces] at hx
    split at hx
    · exact absurd hx List.not_mem_nil
    · rcases List.mem_cons.1 hx with rfl | hx
      · exact Nat.add_le_add_left (Nat.min_le_left ..) va
      · have := ih x hx
        omega

theorem bytePieces_zero (fuel va : Nat) : bytePieces fuel va 0 = [] := by
  cases fuel <;> rfl

theorem bytePieces_ne_nil {fuel va n : Nat} (hfuel : fuel ≠ 0) (hn : n ≠ 0) : bytePieces fuel va n ≠ [] := by
  cases fuel with
  | zero => exact absurd rfl hfuel
  | succ fuel =>
    rw [bytePieces, if_neg hn]
    exact List.cons_ne_nil _ _

/-- CRCB past its checks: nothing for an empty range, else the CRC over what it reads. -/
theorem crcb_runs {i : Instr} {s f g u : State} {p poly : Nat} {d ra rb : Reg} {w : Word32} {ls : List (Loc × Nat)} {bs : List Byte}
    (h : Fetched s p f) (hi : exec i s = done (issue s p (doCrcb p d ra rb poly w))) :
    let c := core f p
    let va := (gpr c ra).toNat
    let n := min (gpr c rb).toNat 256
    let ps := bytePieces 40 va n
    (n = 0 → CoreRuns i s f p (past c)) ∧
      (n ≠ 0 → va + n ≤ 2 ^ 48 → placeAll f p 1 0 false ps false = (.ok ls, g) → readHalves g p false ls ps false = (.ok bs, u) →
        CoreRuns i s u p (wrote (core u p) d (BitVec.ofNat 64 (crcBytes poly ((gpr c d).toNat % 2 ^ 32) bs)))) := by
  intro c va n ps
  constructor
  · intro hn
    have hps : bytePieces 40 va n = [] := hn ▸ bytePieces_zero 40 va
    have hrun : doCrcb p d ra rb poly w f = retire f p := by
      simp only [doCrcb, show bytePieces 40 (gpr (core f p) ra).toNat (min (gpr (core f p) rb).toNat 256) = [] from hps,
        List.find?_nil, placeAll, readHalves, List.isEmpty_nil, if_true]
    exact coreRuns_of_coreIs h hi (hrun ▸ coreIs_retire (.refl f p))
  · intro hn hcan hplace hread
    have hfind : (ps.find? fun x => decide (2 ^ 48 < x.1 + x.2)) = none := by
      refine List.find?_eq_none.2 fun x hx => ?_
      have := bytePieces_le x hx
      simp only [decide_eq_true_eq]
      omega
    have hne : ps.isEmpty = false := List.isEmpty_eq_false_iff.2 (bytePieces_ne_nil (by decide) hn)
    have hrun : doCrcb p d ra rb poly w f = retire (putReg u p d (toW (crcBytes poly ((gpr c d).toNat % 2 ^ 32) bs))) p := by
      simp only [doCrcb, show bytePieces 40 (gpr (core f p) ra).toNat (min (gpr (core f p) rb).toNat 256) = ps from rfl, hfind,
        hplace, hread, hne]
      rfl
    exact coreRuns_of_coreIs h hi (hrun ▸ coreIs_retire_putReg (.refl u p) d _)

/-- Settles O25: each of the two polynomials. -/
theorem blockCrcResults : Obligations.BlockCrcResults := by
  intro s f g u p d ra rb ls bs h c va n ps
  simp only [List.forall_mem_cons, List.not_mem_nil, false_implies, implies_true, and_true]
  exact ⟨crcb_runs h rfl, crcb_runs h rfl⟩

/-! ### I/O space -/

section Io

variable {s f u : State} {p st : Nat} {w : Word32} {d ra rb : Reg}

/-- An access that may issue acts once the store buffer has drained, its tag taken and freed. -/
theorem ioCheck_passed {va size : Nat} (g : State → State) (htag : tagFor f (leadOf f p) (.core p) = true) (hdrain : mayDrain f p 8 = none)
    (hal : va % size = 0) (hmode : (core f p).user = false ∨ ioRange va = false) :
    ioCheck p va size w g f = g (tagPulse (leaveLine (drainAll f p) p) (leadOf f p)) := by
  have hfree : ((core f p).user && ioRange va) = false := Bool.and_eq_false_iff.2 hmode
  simp only [ioCheck, hfree, htag, drained, hdrain, if_true]
  rw [if_neg Bool.false_ne_true, if_neg (Classical.not_not.2 hal)]

theorem setGpr_iostat (c : Core) (r : Reg) (v : Word) (x : BitVec 8) :
    { setGpr c r v with iostat := x } = setGpr { c with iostat := x } r v := by
  unfold setGpr
  split <;> rfl

/-- The result and the status of an access reach the core. -/
theorem coreIs_ioEnd (u : State) (p : Nat) (d : Reg) (v : Word) (x : BitVec 8) :
    CoreIs u (retire (modCore (putReg u p d v) p fun c => { c with iostat := x }) p) p { wrote (core u p) d v with iostat := x } := by
  have hcore := coreIs_retire (onlyCore_modCore (onlyCore_modCore (.refl u p) fun c => setGpr c d v) fun c => { c with iostat := x })
  rw [core_modCore, core_modCore] at hcore
  exact hcore

/-- IN of a register that the mode may reach. -/
theorem in_runs {i : Instr} {disp : BitVec 16} {size v : Nat} (h : Fetched s p f)
    (hi : exec i s = done (issue s p (doIn p d ra disp size w)))
    (htag : tagFor f (leadOf f p) (.core p) = true) (hdrain : mayDrain f p 8 = none)
    (hal : (gpr (core f p) ra + disp.signExtend 64).toNat % size = 0)
    (hmode : (core f p).user = false ∨ ioRange (gpr (core f p) ra + disp.signExtend 64).toNat = false)
    (hread : ioRead (tagPulse (leaveLine (drainAll f p) p) (leadOf f p)) p (gpr (core f p) ra + disp.signExtend 64).toNat size = (st, v, u)) :
    CoreRuns i s u p { wrote (core u p) d (BitVec.ofNat 64 v) with iostat := BitVec.ofNat 8 st } := by
  refine coreRuns_of_coreIs h hi ?_
  rw [doIn, mAddr, ioCheck_passed _ htag hdrain hal hmode, hread]
  exact coreIs_ioEnd u p d _ _

/-- OUT to a register that the mode may reach. -/
theorem out_runs {i : Instr} {size : Nat} (h : Fetched s p f) (hi : exec i s = done (issue s p (doOut p d ra rb size w)))
    (htag : tagFor f (leadOf f p) (.core p) = true) (hdrain : mayDrain f p 8 = none)
    (hal : (gpr (core f p) ra).toNat % size = 0) (hmode : (core f p).user = false ∨ ioRange (gpr (core f p) ra).toNat = false)
    (hwrite : let g := tagPulse (leaveLine (drainAll f p) p) (leadOf f p)
      ioWrite g p (gpr (core f p) ra).toNat size (gpr (core g p) rb).toNat = (st, u)) :
    CoreRuns i s u p { wrote (core u p) d (BitVec.ofNat 64 st) with iostat := BitVec.ofNat 8 st } := by
  refine coreRuns_of_coreIs h hi ?_
  rw [doOut, ioCheck_passed _ htag hdrain hal hmode, hwrite]
  exact coreIs_ioEnd u p d _ _

end Io

/-- Settles O26: the sizes of the two rows of each direction. -/
theorem ioResults : Obligations.IoResults := by
  intro s f u p st v d ra rb disp h c g htag hdrain
  simp only [List.forall_mem_cons, List.not_mem_nil, false_implies, implies_true, and_true]
  refine ⟨⟨?_, ?_⟩, ?_, ?_⟩
  · exact fun hal hmode hread => in_runs h rfl htag hdrain hal hmode hread
  · exact fun hal hmode hread => in_runs h rfl htag hdrain hal hmode hread
  · exact fun hal hmode hwrite => out_runs h rfl htag hdrain hal hmode hwrite
  · exact fun hal hmode hwrite => out_runs h rfl htag hdrain hal hmode hwrite

/-- A row of a named register is the OUT that addresses it, aligned, with a value that the row admits. -/
theorem outRow_eq {s : State} {p : Nat} {o : OutOp} {at_ q : Nat → Bool} (hdbl : o.dbl = true) (hal : (gpr (core s p) o.ga).toNat % 8 = 0)
    (hat : at_ (gpr (core s p) o.ga).toNat = true) (hq : q (gpr (core s p) o.gb).toNat = true) : outRow s p o at_ q = issueOut s p o := by
  have hval : ((gpr (core s p) o.gb).toNat % 2 ^ (8 * 8)) <<< (8 * 0) = (gpr (core s p) o.gb).toNat :=
    Nat.mod_eq_of_lt (gpr (core s p) o.gb).isLt
  simp only [outRow, hdbl, if_true, hal, hat, hval, hq, decide_true, Bool.and_self]

theorem atReg_self (a : Nat) : atReg a a = true := by
  simp only [atReg, Nat.le_refl, Nat.lt_add_of_pos_right (show 0 < 8 by decide), decide_true, Bool.and_self]

/-- Settles O27: each row's test holds, so that the row is the OUT.D or IN.D of its address. -/
theorem ioRegisterRows : Obligations.IoRegisterRows := by
  intro s f u p st v d ra rb disp h hmode hra hrb va x g htag hdrain o
  have hrow {i : Instr} {at_ q : Nat → Bool} (hi : exec i s = done (outRow s p o at_ q)) (hal : va % 8 = 0) (hat : at_ va = true)
      (hq : q x = true) (hwrite : ioWrite g p va 8 (gpr (core g p) rb).toNat = (st, u)) :
      CoreRuns i s u p { wrote (core u p) d (BitVec.ofNat 64 st) with iostat := BitVec.ofNat 8 st } := by
    have heq : outRow s p o at_ q = issueOut s p o :=
      outRow_eq rfl (by rw [hra]; exact hal) (by rw [hra]; exact hat) (by rw [hrb]; exact hq)
    exact out_runs h (hi.trans (congrArg done heq)) htag hdrain hal (.inl hmode) hwrite
  have hreg {i : Instr} {a : Nat} {q : Nat → Bool} (hi : exec i s = done (outRow s p o (atReg a) q)) (hal : a % 8 = 0) (ha : va = a)
      (hq : q x = true) (hwrite : ioWrite g p va 8 (gpr (core g p) rb).toNat = (st, u)) :
      CoreRuns i s u p { wrote (core u p) d (BitVec.ofNat 64 st) with iostat := BitVec.ofNat 8 st } :=
    hrow hi (ha ▸ hal) (ha ▸ atReg_self a) hq hwrite
  simp only [List.forall_mem_cons, List.not_mem_nil, false_implies, implies_true, and_true]
  refine ⟨⟨?_, ?_, ?_, ?_, ?_, ?_, ?_, ?_⟩, ?_⟩
  · exact fun ha => hreg rfl (by decide) ha rfl
  · exact fun ⟨ha, hop⟩ => hreg (q := fun v => bits v 58 2 == 1) rfl (by decide) ha (beq_iff_eq.2 hop)
  · exact fun ⟨ha, hop⟩ => hreg (q := fun v => bits v 58 2 == 2) rfl (by decide) ha (beq_iff_eq.2 hop)
  · exact fun ha => hreg rfl (by decide) ha rfl
  · exact fun ⟨ha, hset⟩ => hreg (q := fun v => bit v 12) rfl (by decide) ha hset
  · exact fun ⟨ha, hclear⟩ => hreg (q := fun v => !bit v 12) rfl (by decide) ha (by rw [hclear]; rfl)
  · intro ⟨hlo, hhi, hal⟩
    have hrange : ioRange va = true := by
      simp only [ioRange, hlo, hhi, decide_true, Bool.and_self, Bool.or_true, Bool.true_or]
    have hat : (decide (0x10000 + 32 * ((va - 0x10000) / 32) ≤ va) && decide (va < 0x10000 + 32 * ((va - 0x10000) / 32) + 32) &&
        ioRange va) = true := by
      rw [hrange, decide_eq_true (by omega), decide_eq_true (by omega)]
      rfl
    exact hrow rfl hal hat rfl
  · exact fun ha => hreg rfl (by decide) ha rfl
  · intro ha hread
    have hs : exec (.bsfDataRead p { gd := d, ga := ra, disp := disp, dbl := true }) s =
        done (issueIn s p { gd := d, ga := ra, disp := disp, dbl := true }) := by
      have hat : atReg 0x4008 (mAddr (core s p) ra disp) = true := by
        rw [mAddr, hra, ha]
        exact atReg_self _
      exact congrArg done (if_pos hat)
    exact in_runs (size := 8) h hs htag hdrain (by rw [ha]) (.inl hmode) (by rw [ha]; exact hread)

end Sys2Proof.Machine

/-! PROOFS. Statements of the Coxel core (chapters 9, 11): system instructions and exception entry. -/

namespace Sys2Proof.Machine

/-! ### System instructions -/

/-- A further change of the core keeps the rest. -/
theorem coreIs_modCore {f u : State} {p : Nat} {c : Core} (h : CoreIs f u p c) (g : Core → Core) : CoreIs f (modCore u p g) p (g c) := by
  obtain ⟨hrest, hcores, hcore⟩ := h
  have hlead : leadOf u p = leadOf f p := by
    rw [hrest]
    rfl
  refine ⟨?_, fun n hn => ?_, ?_⟩
  · calc modCore u p g = { u with cores := (modCore u p g).cores } := rfl
      _ = { leaveLine f p with cores := (modCore u p g).cores } := by rw [hrest]
  · rw [coreAt_modCore_ne g (hlead ▸ hn), hcores n hn]
  · rw [core_modCore, hcore]

/-- A K-mode instruction in K mode has its own effect. -/
theorem kOnly_kernel {s : State} {p : Nat} (hu : (core s p).user = false) (w : Word32) (g : State → State) : kOnly p w g s = g s := by
  simp only [kOnly, hu, Bool.false_eq_true, if_false]

theorem drained_passed {s : State} {p : Nat} (hdrain : mayDrain s p 8 = none) (g : State → State) : drained p g s = g (drainAll s p) := by
  simp only [drained, hdrain]

/-- DC.INV's address lies below the core-local SRAM: its place is what its translation gives. -/
theorem place_ok {s g : State} {p va n access cls pa : Nat} {h2 : Bool} (hva : va < sramBase) (hw : bit access 1 = false)
    (ht : translate s { dReq s p va access cls (core s p).user with half2 := h2 } = (.ok pa, g)) :
    place s p va n access cls h2 = (.ok (.mem pa), g) := by
  simp only [place, if_neg (Nat.not_le.2 hva), ht, hw, Bool.false_and, Bool.false_eq_true, if_false]

theorem place_absent {s g : State} {p va n access cls pa lvl : Nat} {h2 : Bool} (hva : va < sramBase)
    (ht : translate s { dReq s p va access cls (core s p).user with half2 := h2 } = (.absent pa lvl, g)) :
    place s p va n access cls h2 = (.error (.wait { dReq s p va access cls (core s p).user with half2 := h2 } pa lvl), g) := by
  simp only [place, if_neg (Nat.not_le.2 hva), ht]

/-- One byte touches one line. -/
theorem dcInval_one (c : Core) (pa : Nat) : dcInval c pa 1 = { c with dcache := c.dcache.filter fun l => l.line != pa / 64 } := by
  have hline (n : Nat) : (!(decide (pa / 64 ≤ n) && decide (n ≤ pa / 64))) = (n != pa / 64) := by
    rw [← Bool.decide_and, bne, Bool.beq_eq_decide_eq]
    exact congrArg not (decide_eq_decide.2 ⟨fun h => Nat.le_antisymm h.2 h.1, fun h => ⟨Nat.le_of_eq h.symm, Nat.le_of_eq h⟩⟩)
  simp only [dcInval, Nat.add_sub_cancel, hline]

/-- Settles O33: each instruction's one change of the core, after the drain where it waits for one. -/
theorem systemResults : Obligations.SystemResults := by
  intro s f p h u
  refine ⟨fun hdrain => ?_, fun hmode => ⟨?_, ?_, fun hdrain => ⟨?_, ?_⟩⟩, fun ra g pa hva => ?_⟩
  · exact coreRuns_of_coreIs h rfl (by rw [drained_passed hdrain]; exact coreIs_retire (.refl u p))
  · exact coreRuns_of_coreIs h rfl (by
      rw [kOnly_kernel hmode]
      exact coreIs_modCore (coreIs_retire (.refl f p)) fun c => { c with waiting := true })
  · have hcore := coreIs_retire (onlyCore_modCore (.refl f p) fun c => { c with dcache := [] })
    rw [core_modCore] at hcore
    exact coreRuns_of_coreIs h rfl (by rw [kOnly_kernel hmode]; exact hcore)
  · have hcore := coreIs_retire (onlyCore_modCore (.refl u p) fun c => { c with icache := [], lineBuf := [] })
    rw [core_modCore] at hcore
    exact coreRuns_of_coreIs h rfl (by rw [kOnly_kernel hmode, drained_passed hdrain]; exact hcore)
  · rw [exec_of_fetched (g := kOnly p (wR 0x2D 0 0 0 0) (drained p (doSyncC p))) h rfl, kOnly_kernel hmode, drained_passed hdrain]
    rfl
  · have hcan : ¬ 2 ^ 48 ≤ (gpr (core f p) ra).toNat := Nat.not_le.2 (Nat.lt_trans hva (by decide))
    refine ⟨fun ht => ?_, fun lvl ht => ?_⟩
    · have hcore := coreIs_retire (onlyCore_modCore (.refl g p) fun c => { c with dcache := c.dcache.filter fun l => l.line != pa / 64 })
      rw [core_modCore] at hcore
      refine coreRuns_of_coreIs h rfl ?_
      rw [doDcInv, if_neg hcan, place_ok (pa := pa) (g := g) hva rfl ht]
      simp only [dcInval_one]
      exact hcore
    · refine coreRuns_of_coreIs h rfl ?_
      rw [doDcInv, if_neg hcan, place_absent (pa := pa) (lvl := lvl) (g := g) hva ht]
      exact coreIs_retire (.refl g p)

/-! ### Exception entry -/

theorem toW_sub {a : Word} {n : Nat} (hn : n ≤ a.toNat) : toW (a.toNat - n) = a - BitVec.ofNat 64 n := by
  have ha := a.isLt
  apply BitVec.eq_of_toNat_eq
  rw [BitVec.toNat_sub, toW, BitVec.toNat_ofNat, BitVec.toNat_ofNat, Nat.mod_eq_of_lt (show n < 2 ^ 64 by omega)]
  omega

theorem any_unbuffered {s : State} {p n : Nat} {l : Loc} (h : Unbuffered s p l n) :
    ((core s p).sb.any fun x => overlaps (sbKey x) x.data.length (locKey l) n) = false :=
  List.any_eq_false.2 fun x hx => Bool.not_eq_true _ ▸ h x hx

/-- A core that gets through exception entry leaves its frame at `loc` and stands behind the entry. -/
theorem enter_entryOk {f g : State} {p : Nat} {loc : Loc} {e : Exc} (hcause : e.cause < 64) (hok : EntryOk f p e.cause loc g)
    (hhalf : e.half2 = false) (hcode : e.code < 32) :
    let u := coreWrite g p loc (frameOf (core f p))
    CoreIs u (enter f p e) p (entered (core f p) (core u p) e.cause e.code e.epc e.addr e.inst.toNat) := by
  obtain ⟨hbreach, hml, hshadow, hal, hlo, hhi, hplace, hfree⟩ := hok
  intro u
  have hrun : enter f p e = modCore (leaveLine u p) p fun c =>
      entered (core f p) c e.cause e.code e.epc e.addr e.inst.toNat := by
    have hsp : toW ((gpr (core f p) g31).toNat - 32) = gpr (core f p) 31 - 32 := toW_sub hlo
    have hcond : ¬ ((decide ((gpr (core f p) g31).toNat % 32 ≠ 0) || decide ((gpr (core f p) g31).toNat < 32) ||
        decide (2 ^ 48 ≤ (gpr (core f p) g31).toNat - 32)) = true) := by
      have h1 : ¬ (gpr (core f p) g31).toNat < 32 := Nat.not_lt.2 hlo
      have h2 : ¬ 2 ^ 48 ≤ (gpr (core f p) g31).toNat - 32 := Nat.not_le.2 hhi
      simp only [show (gpr (core f p) g31).toNat % 32 = 0 from hal, h1, h2, ne_eq, not_true, decide_false, Bool.or_self,
        Bool.false_eq_true, not_false_eq_true]
    have hml' : (decide (e.cause < 64) && (core f p).ml == 7) = false := by
      rw [decide_eq_true hcause, Bool.true_and]
      exact beq_eq_false_iff_ne.2 (hml hcause)
    have hepc : e.epc / 4 * 4 = e.epc - e.epc % 4 := by omega
    have hstatus (c : Core) : c.ml <<< 8 + b2n c.user = c.ml * 256 + if c.user then 1 else 0 := by
      simp only [Nat.shiftLeft_eq, Nat.reducePow, b2n]
    have hecause : (e.code % 32) <<< 8 + b2n false <<< 7 + e.cause = e.code * 256 + e.cause := by
      simp only [Nat.mod_eq_of_lt hcode, b2n, Bool.false_eq_true, if_false, Nat.shiftLeft_eq, Nat.reducePow, Nat.zero_mul, Nat.add_zero]
    simp only [enter, hbreach, hml', Nat.not_le.2 hshadow, Bool.false_eq_true, if_false]
    rw [if_neg hcond, show framePlace f p ((gpr (core f p) g31).toNat - 32) 2 (core f p).user = (some loc, g) from hplace]
    simp only [any_unbuffered hfree, hsp, hepc, hstatus, hhalf, hecause, Bool.false_eq_true, if_false]
    rfl
  rw [hrun]
  exact coreIs_leaveLine (.refl u p) _

/-- Settles O34: the two causes, with the operands that each writes. -/
theorem trapEntry : Obligations.TrapEntry := by
  intro s f g p code w loc h
  constructor
  · intro hok u
    exact coreRuns_of_coreIs h rfl (enter_entryOk
      (e := { cause := cTrap, epc := (core f p).pc, code := code.toNat, word := wR 0x2D 0 code 0 5 }) (show 4 < 64 by decide) hok rfl code.isLt)
  · intro hok hname u
    refine coreRuns_of_coreIs (g := fun s => raiseExc s p cResop 0 0 false w) h ?_ (enter_entryOk (e := { cause := cResop, epc := (core f p).pc, inst := w, word := w }) (show 0 < 64 by decide)
      hok rfl (show 0 < 32 by decide))
    exact congrArg done (by rw [hname]; rfl)

end Sys2Proof.Machine

/-! PROOFS. Statements of the vector extension (chapter 10): how an instruction reaches the members and runs, and element-wise arithmetic. -/

namespace Sys2Proof.Machine

/-! ### Issue and broadcast -/

/-- R31, R472: an instruction that reaches the members acts on the state that its broadcast leaves. -/
theorem castInstr_of_reaches {f g : State} {p : Nat} (h : Reaches f p g) (F : State → State) : castInstr p F f = F g := by
  rcases h with ⟨hone, rfl⟩ | ⟨hmany, hub, n, u, hhub, hlost, htag, htake, rfl⟩
  · simp only [castInstr, hone, if_true]
  · have hfind : (members f p).find? (fun m => bundleLost f m hub) = none :=
      List.find?_eq_none.2 fun m hm => Bool.not_eq_true _ ▸ hlost m hm
    simp only [castInstr, Nat.not_le.2 hmany, if_false, hhub, hfind, htag, htake, Bool.not_true, Bool.false_eq_true]

section Vec

variable {i : Instr} {s f g : State} {p : Nat} {o : VOp} {maj func : BitVec 6}

/-- R346: with the members' queues empty an instruction runs at its issue. -/
theorem exec_vIssue (h : Issues s p f g) {body : VMode → State → State} (hi : exec i s = done (vIssue p body s)) :
    exec i s = .next (settle (body .issue f)) := by
  obtain ⟨hfetch, hqueue, _⟩ := h
  rw [hi, vIssue, issue_of_fetched hfetch, hqueue]
  rfl

/-- An instruction that passes its issue checks performs on the state that the broadcast leaves, and completes. -/
theorem doV_issue (h : Reaches f p g) {bad : VCtx → Bool} {body : VCtx → State → State} (hbad : bad (vctx f p) = false) :
    doV p ⟨maj, func, o, .issue⟩ bad body f = retire (body (vctx f p) g) p := by
  simp only [doV, hbad, Bool.and_false, Bool.false_eq_true, if_false, vGo]
  exact castInstr_of_reaches h _

theorem exec_doV {t : State} (h : Issues s p f g) {bad : VCtx → Bool} {body : VCtx → State → State}
    (hi : exec i s = done (vIssue p (fun m => doV p ⟨maj, func, o, m⟩ bad body) s)) (hbad : bad (vctx f p) = false)
    (ht : body (vctx f p) g = t) : exec i s = .next (settle (retire t p)) := by
  rw [exec_vIssue h hi, doV_issue h.2.2 hbad, ht]

/-! ### Element-wise instructions -/

/-- MK is unused where VM is 0. -/
theorem vmBad_allowed (h : o.vm = false → o.mreg = 0) : vmBad .allowed o = false := by
  cases hvm : o.vm
  · simp [vmBad, hvm, h hvm]
  · simp [vmBad, hvm]

theorem vmBad_must (h : o.vm = true) : vmBad .must o = false := by simp [vmBad, h]

theorem vmBad_never (h : o.vm = false) (hm : o.mreg = 0) : vmBad .never o = false := by simp [vmBad, h, hm]

theorem fpBad_of_on {x : VCtx} {fm : Nat} (hfp : x.fp = some fm) (hon : fmtOn x.po fm = true) : x.fpBad = false := by
  simp only [VCtx.fpBad, hfp, hon, Bool.not_true]

/-- R351: the results and the flags of a floating-point instruction whose operation is `op`. -/
theorem exec_vFp (h : Issues s p f g) (hvm : o.vm = false → o.mreg = 0) {fm : Nat} (hfp : (vctx f p).fp = some fm)
    (hon : fmtOn (vctx f p).po fm = true) {un : Bool} {F : Nat → Nat → Nat → Nat → Nat → FRes} {op : Nat → Nat → Nat → FRes}
    (hi : exec i s = done (vIssue p (fun m => vFp p ⟨maj, func, o, m⟩ o un F) s)) (hun : un = true → o.s = false ∧ o.vb = 0)
    (hF : ∀ a b d, F fm (rmOf (vctx f p).c.fpctl) a b d = op a b d) :
    let x := vctx f p
    let rs := (x.active o).map fun e => (e, op (x.get o.va e) (x.opB o e) (x.get o.vd e))
    exec i s = .next (settle (retire (raiseFlags (putElems g p x o.vd (rs.map fun r => (r.1, r.2.v))) p (flagsOf rs)) p)) := by
  have hbad : ((vctx f p).fpBad || vmBad .allowed o || (un && (o.s || decide (o.vb ≠ 0)))) = false := by
    rw [fpBad_of_on hfp hon, vmBad_allowed hvm]
    cases un
    · rfl
    · obtain ⟨hs, hvb⟩ := hun rfl
      simp [hs, hvb]
  refine exec_doV h hi hbad ?_
  simp only [hfp, Option.getD_some, hF]

/-- R352: the results of an integer instruction whose operation is `op`. -/
theorem exec_vInt (h : Issues s p f g) (hvm : o.vm = false → o.mreg = 0) {F : Nat → Nat → Nat → Nat} {op : Nat → Nat → Nat}
    (hi : exec i s = done (vIssue p (fun m => vInt p ⟨maj, func, o, m⟩ o F) s)) (hF : ∀ a b, F (vctx f p).sew a b = op a b) :
    let x := vctx f p
    exec i s = .next (settle (retire (putElems g p x o.vd ((x.active o).map fun e => (e, op (x.get o.va e) (x.opB o e)))) p)) := by
  refine exec_doV h hi (vmBad_allowed hvm) ?_
  simp only [hF]

end Vec

/-- A row of Table 10-7 whose operation is `op` at a format and a rounding mode. -/
def IsVFp (s : State) (p : Nat) (o : VOp) (un : Bool) (fm rm : Nat) (e : Instr × (Nat → Nat → Nat → FRes)) : Prop :=
  ∃ maj func F, exec e.1 s = done (vIssue p (fun m => vFp p ⟨maj, func, o, m⟩ o un F) s) ∧ ∀ a b d, F fm rm a b d = e.2 a b d

/-- A row of Table 10-8 whose operation is `op` at a width. -/
def IsVInt (s : State) (p : Nat) (o : VOp) (n : Nat) (e : Instr × (Nat → Nat → Nat)) : Prop :=
  ∃ maj func F, exec e.1 s = done (vIssue p (fun m => vInt p ⟨maj, func, o, m⟩ o F) s) ∧ ∀ a b, F n a b = e.2 a b

/-- Settles O39: the operation of each row, and the operands that the one-operand rows leave zero. -/
theorem vectorFloatResults : Obligations.VectorFloatResults := by
  intro s f g p fm o h hvm x rm hfp hon ends
  have hends {un : Bool} (hun : un = true → o.s = false ∧ o.vb = 0) {e : Instr × (Nat → Nat → Nat → FRes)}
      (he : IsVFp s p o un fm rm e) : ends e.1 e.2 := by
    obtain ⟨maj, func, F, hi, hF⟩ := he
    exact exec_vFp h hvm hfp hon hi hun hF
  constructor
  · intro e he
    refine hends (un := false) (fun h => nomatch h) ?_
    revert e
    simp only [List.forall_mem_cons, List.not_mem_nil, false_implies, implies_true, and_true]
    refine ⟨?_, ?_, ?_, ?_, ?_, ?_, ?_, ?_, ?_⟩ <;> exact ⟨_, _, _, rfl, fun _ _ _ => rfl⟩
  · intro hs hvb e he
    refine hends (un := true) (fun _ => ⟨hs, hvb⟩) ?_
    revert e
    simp only [List.forall_mem_cons, List.not_mem_nil, false_implies, implies_true, and_true]
    refine ⟨?_, ?_, ?_, ?_⟩ <;> exact ⟨_, _, _, rfl, fun _ _ _ => rfl⟩

/-- Settles O40: the operation of each row of Table 10-8. -/
theorem vectorIntegerResults : Obligations.VectorIntegerResults := by
  intro s f g p o h hvm x n ends
  refine ⟨fun e he => ?_, fun hm => exec_doV h rfl (vmBad_must hm) rfl, fun hzero => exec_doV h rfl ?_ rfl⟩
  · have hrow : IsVInt s p o n e := by
      revert e
      simp only [List.forall_mem_cons, List.not_mem_nil, false_implies, implies_true, and_true]
      refine ⟨?_, ?_, ?_, ?_, ?_, ?_, ?_, ?_, ?_, ?_, ?_, ?_, ?_, ?_, ?_, ?_, ?_, ?_, ?_⟩
      case refine_9 => exact ⟨_, _, iSll, rfl, fun a b => congrArg (· % 2 ^ n) (Nat.shiftLeft_eq ..)⟩
      case refine_10 => exact ⟨_, _, iSrl, rfl, fun a b => Nat.shiftRight_eq_div_pow ..⟩
      all_goals exact ⟨_, _, _, rfl, fun _ _ => rfl⟩
    obtain ⟨maj, func, F, hi, hF⟩ := hrow
    exact exec_vInt h hvm hi hF
  · rw [vmBad_allowed hvm]
    cases hs : o.s <;> simp_all

end Sys2Proof.Machine

/-! PROOFS. Statements of the vector extension (chapter 10): masks, permutes, reductions and scans. -/

namespace Sys2Proof.Machine

/-! ### Masks -/

section Vec

variable {i : Instr} {s f g : State} {p : Nat} {o : VOp} {maj func : BitVec 6}

/-- R352: an integer comparison writes a mask bit for each active element. -/
theorem exec_vIntCmp (h : Issues s p f g) (hvm : o.vm = false → o.mreg = 0) (hvd : o.vd.toNat < 8) {F : Nat → Nat → Nat → Bool}
    {op : Nat → Nat → Bool} (hi : exec i s = done (vIssue p (fun m => vIntCmp p ⟨maj, func, o, m⟩ o F) s))
    (hF : ∀ a b, F (vctx f p).sew a b = op a b) :
    let x := vctx f p
    exec i s = .next (settle (retire (putMask g p o.vd.toNat ((x.active o).map fun e => (e, op (x.get o.va e) (x.opB o e)))) p)) := by
  have hbad : (vmBad .allowed o || decide (7 < o.vd.toNat)) = false := by
    rw [vmBad_allowed hvm, decide_eq_false (Nat.not_lt.2 (Nat.le_of_lt_succ hvd))]
    rfl
  refine exec_doV h hi hbad ?_
  simp only [hF]

/-- R351: a floating-point comparison, with its flags. -/
theorem exec_vFpCmp (h : Issues s p f g) (hvm : o.vm = false → o.mreg = 0) (hvd : o.vd.toNat < 8) {fm kind : Nat}
    (hfp : (vctx f p).fp = some fm) (hon : fmtOn (vctx f p).po fm = true)
    (hi : exec i s = done (vIssue p (fun m => vFpCmp p ⟨maj, func, o, m⟩ o kind) s)) :
    let x := vctx f p
    let rs := (x.active o).map fun e => (e, fCmp fm kind (x.get o.va e) (x.opB o e))
    exec i s = .next (settle (retire (raiseFlags (putMask g p o.vd.toNat (rs.map fun r => (r.1, r.2.v == 1))) p (flagsOf rs)) p)) := by
  have hbad : ((vctx f p).fpBad || vmBad .allowed o || decide (7 < o.vd.toNat)) = false := by
    rw [fpBad_of_on hfp hon, vmBad_allowed hvm, decide_eq_false (Nat.not_lt.2 (Nat.le_of_lt_succ hvd))]
    rfl
  refine exec_doV h hi hbad ?_
  simp only [hfp, Option.getD_some]

/-- R363: a mask operation writes a bit for each element below VL. -/
theorem exec_vMaskOp (h : Issues s p f g) (hs : o.s = false) (hvm : o.vm = false) (hm : o.mreg = 0) (hvd : o.vd.toNat < 8)
    (hva : o.va.toNat < 8) (hvb : o.vb.toNat < 8) {F : Bool → Bool → Bool}
    (hi : exec i s = done (vIssue p (fun m => vMaskOp p ⟨maj, func, o, m⟩ o F) s)) :
    let x := vctx f p
    exec i s = .next (settle (retire (putMask g p o.vd.toNat
      ((List.range x.c.vl).map fun e => (e, F (mGet x.po o.va.toNat e) (mGet x.po o.vb.toNat e)))) p)) := by
  have hbad : (o.s || vmBad .never o || decide (7 < o.vd.toNat) || decide (7 < o.va.toNat) || decide (7 < o.vb.toNat)) = false := by
    rw [hs, vmBad_never hvm hm, decide_eq_false (Nat.not_lt.2 (Nat.le_of_lt_succ hvd)),
      decide_eq_false (Nat.not_lt.2 (Nat.le_of_lt_succ hva)), decide_eq_false (Nat.not_lt.2 (Nat.le_of_lt_succ hvb))]
    rfl
  exact exec_doV h hi hbad rfl

end Vec

/-- Settles O41: the comparison or the operation of each row. -/
theorem vectorMaskResults : Obligations.VectorMaskResults := by
  intro s f g p o h hvm hvd x n
  refine ⟨fun e he => ?_, fun fm hfp hon e he => ?_, fun hs hm hva hvb e he => ?_⟩
  · have hrow : ∃ maj func F, exec e.1 s = done (vIssue p (fun m => vIntCmp p ⟨maj, func, o, m⟩ o F) s) ∧ ∀ a b, F n a b = e.2 a b := by
      revert e
      simp only [List.forall_mem_cons, List.not_mem_nil, false_implies, implies_true, and_true]
      refine ⟨?_, ?_, ?_⟩ <;> exact ⟨_, _, _, rfl, fun _ _ => rfl⟩
    obtain ⟨maj, func, F, hi, hF⟩ := hrow
    exact exec_vIntCmp h hvm hvd hi hF
  · have hrow : ∃ maj func, exec e.1 s = done (vIssue p (fun m => vFpCmp p ⟨maj, func, o, m⟩ o e.2) s) := by
      revert e
      simp only [List.forall_mem_cons, List.not_mem_nil, false_implies, implies_true, and_true]
      refine ⟨?_, ?_, ?_⟩ <;> exact ⟨_, _, rfl⟩
    obtain ⟨maj, func, hi⟩ := hrow
    exact exec_vFpCmp h hvm hvd hfp hon hi
  · have hrow : ∃ maj func, exec e.1 s = done (vIssue p (fun m => vMaskOp p ⟨maj, func, o, m⟩ o e.2) s) := by
      revert e
      simp only [List.forall_mem_cons, List.not_mem_nil, false_implies, implies_true, and_true]
      refine ⟨?_, ?_, ?_, ?_⟩ <;> exact ⟨_, _, rfl⟩
    obtain ⟨maj, func, hi⟩ := hrow
    exact exec_vMaskOp h hs hm (hvm hm) hvd hva hvb hi

/-! ### Permutes -/

/-- R363: a permute that passes its checks writes its elements. -/
theorem exec_vMove {i : Instr} {s f g : State} {p : Nat} {o : VOp} {maj func : BitVec 6} (h : Issues s p f g) (hs : o.s = false)
    {rule : VmRule} {bad : Bool} {res : VCtx → List (Nat × Nat)} {l : List (Nat × Nat)}
    (hi : exec i s = done (vIssue p (fun m => vMove p ⟨maj, func, o, m⟩ o rule bad res) s)) (hvm : vmBad rule o = false)
    (hbad : bad = false) (hl : res (vctx f p) = l) :
    exec i s = .next (settle (retire (putElems g p (vctx f p) o.vd l) p)) := by
  refine exec_doV h hi ?_ ?_
  · simp only [hs, hvm, hbad, Bool.or_self]
  · simp only [hl]

/-- Settles O42: the checks and the elements of each row of Table 10-10. -/
theorem vectorPermuteResults : Obligations.VectorPermuteResults := by
  intro s f g p o h hs hvm x b vl ends
  refine ⟨fun ha hb => ?_, fun ha => ?_, fun ha => ?_, fun hm ha hb => ?_, fun hm ha hb => ?_, fun hm => ?_⟩
  · exact exec_vMove h hs rfl (vmBad_allowed hvm) (by simp [ha, hb]) rfl
  · exact exec_vMove h hs rfl (vmBad_allowed hvm) (by simp [ha]) rfl
  · exact exec_vMove h hs rfl (vmBad_allowed hvm) (by simp [ha]) rfl
  · exact exec_vMove h hs rfl (vmBad_must hm) (by simp [ha, hb]) rfl
  · exact exec_vMove h hs rfl (vmBad_must hm) (by simp [ha, hb]) rfl
  · exact exec_vMove h hs rfl (vmBad_never hm (hvm hm)) rfl rfl

/-! ### Reductions -/

section Comb

variable {x : VCtx} {fm : Nat} (hfp : x.fp = some fm)
include hfp

theorem cFadd_of_fp : cFadd x = fun a b => fAdd fm (fld x.c.fpctl 8 3) a b := by
  funext a b
  rw [cFadd, hfp]
  rfl

theorem cFmin_of_fp : cFmin x = fun a b => ⟨fMaxMin false fm a b, fSnanFlag fm a b⟩ := by
  funext a b
  rw [cFmin, hfp]
  rfl

theorem cFmax_of_fp : cFmax x = fun a b => ⟨fMaxMin true fm a b, fSnanFlag fm a b⟩ := by
  funext a b
  rw [cFmax, hfp]
  rfl

end Comb

section Red

variable {i : Instr} {s f g : State} {p : Nat} {o : VOp} {maj func : BitVec 6}

/-- R350: an instruction whose result returns later sends it on its way, once it reaches the members. -/
theorem exec_doVRed (h : Issues s p f g) {v : VI} {bad : VCtx → Bool} {res : VCtx → Reg × FRes} {d : Reg} {r : FRes}
    (hi : exec i s = done (vAlone p (doVRed p v bad res) s)) (hbad : bad (vctx f p) = false) (hr : res (vctx f p) = (d, r)) :
    exec i s = .next (settle (redStart g p d r.v r.fl)) := by
  obtain ⟨hfetch, hqueue, hreach⟩ := h
  have hrun : doVRed p v bad res f = redStart g p d r.v r.fl := by
    simp only [doVRed, hbad, Bool.false_eq_true, if_false, hr]
    exact castInstr_of_reaches hreach _
  rw [hi, vAlone, issue_of_fetched hfetch, hqueue, ← hrun]
  rfl

/-- R364: a reduction with its identity and its operation. -/
theorem exec_vRed (h : Issues s p f g) (hs : o.s = false) (hvm : o.vm = false → o.mreg = 0) {v : VI} {fp : Bool} {I : VCtx → Nat}
    {F : VCtx → Comb} {ident : Nat} {op : Comb} (hi : exec i s = done (vAlone p (vRed p v o fp I F) s))
    (hfp : (fp && (vctx f p).fpBad) = false) (hI : I (vctx f p) = ident) (hF : F (vctx f p) = op) :
    let x := vctx f p
    (x.c.vl = 0 → exec i s = .next (settle (redStart g p o.vd (gpr x.c o.vb).toNat 0))) ∧
      (x.c.vl ≠ 0 →
        let t := vTree op 22 ((List.range x.c.vl).map fun e => if !o.vm || mGet x.po o.mreg.toNat e then x.get o.va e else ident)
        let r := op (x.scalar o.vb) t.v
        exec i s = .next (settle (redStart g p o.vd r.v (t.fl ||| r.fl)))) := by
  have hbad : (o.s || vmBad .allowed o || (fp && (vctx f p).fpBad)) = false := by rw [hs, vmBad_allowed hvm, hfp]; rfl
  refine ⟨fun hvl => exec_doVRed (r := ⟨(gpr (vctx f p).c o.vb).toNat, 0⟩) h hi hbad (if_pos hvl), fun hvl => ?_⟩
  intro t r
  refine exec_doVRed (r := ⟨r.v, t.fl ||| r.fl⟩) h hi hbad ((if_neg hvl).trans ?_)
  simp only [hI, hF]
  rfl

/-- R363: a count or search over m[MK]. -/
theorem exec_vMaskRed (h : Issues s p f g) (hs : o.s = false) (hm : o.vm = true) (hva : o.va = 0) (hvb : o.vb = 0) {v : VI}
    {F : VCtx → Nat} {n : Nat} (hi : exec i s = done (vAlone p (vMaskRed p v o F) s)) (hF : F (vctx f p) = n) :
    exec i s = .next (settle (redStart g p o.vd n 0)) := by
  refine exec_doVRed (r := ⟨n, 0⟩) h hi ?_ ?_
  · simp only [hs, vmBad_must hm, hva, hvb, ne_eq, not_true, decide_false, Bool.or_self]
  · simp only [hF]

end Red

/-- Settles O43: the identity and the operation of each row of Table 10-9. -/
theorem vectorReductions : Obligations.VectorReductions := by
  intro s f g p o h hs hvm x n vl ends red
  refine ⟨fun e he => ?_, fun fm hfp hon e he => ?_, fun hm ha hb => ⟨?_, ?_⟩, fun hm => ?_⟩
  · have hrow : ∃ v I F, exec e.1 s = done (vAlone p (vRed p v o false I F) s) ∧ I x = e.2.1 ∧ F x = e.2.2 := by
      revert e
      simp only [List.forall_mem_cons, List.not_mem_nil, false_implies, implies_true, and_true]
      refine ⟨?_, ?_, ?_, ?_, ?_⟩ <;> exact ⟨_, _, _, rfl, rfl, rfl⟩
    obtain ⟨v, I, F, hi, hI, hF⟩ := hrow
    exact exec_vRed h hs hvm hi rfl hI hF
  · have hget : x.fp.getD 0 = fm := by rw [hfp]; rfl
    have hrow : ∃ v I F, exec e.1 s = done (vAlone p (vRed p v o true I F) s) ∧ I x = e.2.1 ∧ F x = e.2.2 := by
      revert e
      simp only [List.forall_mem_cons, List.not_mem_nil, false_implies, implies_true, and_true]
      refine ⟨?_, ?_, ?_⟩
      · exact ⟨_, _, cFadd, rfl, congrArg fSign hget, cFadd_of_fp hfp⟩
      · exact ⟨_, _, cFmin, rfl, congrArg fNan hget, cFmin_of_fp hfp⟩
      · exact ⟨_, _, cFmax, rfl, congrArg fNan hget, cFmax_of_fp hfp⟩
    obtain ⟨v, I, F, hi, hI, hF⟩ := hrow
    exact exec_vRed h hs hvm hi (by rw [fpBad_of_on hfp hon]; rfl) hI hF
  · exact exec_vMaskRed h hs hm ha hb rfl rfl
  · exact exec_vMaskRed h hs hm ha hb rfl (by
      have hact : x.active o = (List.range vl).filter fun i => mGet x.po o.mreg.toNat i := by
        simp only [VCtx.active, hm, Bool.not_true, Bool.false_or]
        rfl
      rw [hact])
  · exact exec_doVRed (r := ⟨if (gpr x.c o.vb).toNat < vl then x.get o.va (gpr x.c o.vb).toNat else 0, 0⟩) h rfl
      (by simp only [hs, vmBad_never hm (hvm hm), Bool.or_self]) rfl

theorem setGpr_redWait (c : Core) (r : Reg) (v : Word) (w : Option RedWait) :
    setGpr { c with redWait := w } r v = { setGpr c r v with redWait := w } := by
  unfold setGpr
  split <;> rfl

/-- Settles O44: the result and the flags return to the core that waits for them. -/
theorem reductionReturns : Obligations.ReductionReturns := by
  intro s p w hname hfree hwait
  have hgate : (named s p && (polder s p).frzCore.isNone) = true := by rw [hname, hfree]; rfl
  have hrun : exec (.reductionResultReturn p) s = .next (settle
      (retire (raiseFlags (putReg (modCore s p fun c => { c with redWait := none }) p w.gd w.value) p w.fl) p)) := by
    change done (match (core s p).redWait with | some r => _ | none => s) = _
    simp only [hwait, hgate, if_true]
    rfl
  have hcore := coreIs_retire (onlyCore_modCore (onlyCore_modCore (onlyCore_modCore (.refl s p) fun c => { c with redWait := none })
    fun c => setGpr c w.gd w.value) fun c => { c with fpctl := raise c.fpctl w.fl })
  simp only [core_modCore, setGpr_redWait, setGpr_fpctl] at hcore
  exact ⟨_, hrun, hcore⟩

/-! ### Scans -/

/-- R365: a scan writes each element's running result over its segment, with the flags. -/
theorem exec_vScan {i : Instr} {s f g : State} {p : Nat} {o : VOp} {maj func : BitVec 6} (h : Issues s p f g) (hs : o.s = false)
    (hvb : o.vb = 0) (hvm : o.vm = false → o.mreg = 0) {fp : Bool} {F : VCtx → Comb} {op : Comb}
    (hi : exec i s = done (vIssue p (fun m => vScan p ⟨maj, func, o, m⟩ o fp F) s)) (hfp : (fp && (vctx f p).fpBad) = false)
    (hF : F (vctx f p) = op) :
    let x := vctx f p
    let rs := (List.range x.c.vl).map fun e => (e, vPrefix op 21 none ((span (segHead x o e) (e - segHead x o e + 1)).map fun j => x.get o.va j))
    exec i s = .next (settle (retire (raiseFlags (putElems g p x o.vd (rs.map fun r => (r.1, r.2.v))) p (flagsOf rs)) p)) := by
  refine exec_doV h hi ?_ ?_
  · simp only [hs, vmBad_allowed hvm, hvb, hfp, ne_eq, not_true, decide_false, Bool.or_self]
  · simp only [hF]

/-- Settles O45: the operation of each row of Table 10-9. -/
theorem vectorScans : Obligations.VectorScans := by
  intro s f g p o h hs hvb hvm x n scan
  refine ⟨fun e he => ?_, fun fm hfp hon e he => ?_⟩
  · have hrow : ∃ maj func F, exec e.1 s = done (vIssue p (fun m => vScan p ⟨maj, func, o, m⟩ o false F) s) ∧ F x = e.2 := by
      revert e
      simp only [List.forall_mem_cons, List.not_mem_nil, false_implies, implies_true, and_true]
      refine ⟨?_, ?_, ?_, ?_, ?_⟩ <;> exact ⟨_, _, _, rfl, rfl⟩
    obtain ⟨maj, func, F, hi, hF⟩ := hrow
    exact exec_vScan h hs hvb hvm hi rfl hF
  · have hrow : ∃ maj func F, exec e.1 s = done (vIssue p (fun m => vScan p ⟨maj, func, o, m⟩ o true F) s) ∧ F x = e.2 := by
      revert e
      simp only [List.forall_mem_cons, List.not_mem_nil, false_implies, implies_true, and_true]
      refine ⟨?_, ?_, ?_⟩
      · exact ⟨_, _, cFadd, rfl, cFadd_of_fp hfp⟩
      · exact ⟨_, _, cFmin, rfl, cFmin_of_fp hfp⟩
      · exact ⟨_, _, cFmax, rfl, cFmax_of_fp hfp⟩
    obtain ⟨maj, func, F, hi, hF⟩ := hrow
    exact exec_vScan h hs hvb hvm hi (by rw [fpBad_of_on hfp hon]; rfl) hF

end Sys2Proof.Machine

/-! PROOFS. Statements of the vector extension (chapter 10): transcendental functions, conversions and MX. -/

namespace Sys2Proof.Machine

/-! ### Transcendental functions and conversions -/

section Fn

variable {i : Instr} {s f g : State} {p : Nat} {o : VOp} {maj func : BitVec 6}

/-- R367: a transcendental instruction at a width that its function has. -/
theorem exec_vTransc (h : Issues s p f g) (hs : o.s = false) (hvm : o.vm = false → o.mreg = 0) (hvb : o.vb = 0) {fm fn : Nat}
    (hfp : (vctx f p).fp = some fm) (hon : fmtOn (vctx f p).po fm = true) (hk : (vctx f p).k = 2 ∨ ((vctx f p).k = 3 ∧ fn < 3))
    (hi : exec i s = done (vIssue p (fun m => vTransc p ⟨maj, func, o, m⟩ o fn) s)) :
    let x := vctx f p
    let rs := (x.active o).map fun e => (e, transc fn fm (x.get o.va e))
    exec i s = .next (settle (retire (raiseFlags (putElems g p x o.vd (rs.map fun r => (r.1, r.2.v))) p (flagsOf rs)) p)) := by
  have hwidth : ((vctx f p).k == 2 || ((vctx f p).k == 3 && decide (fn < 3))) = true := by
    rcases hk with hk | ⟨hk, hfn⟩
    · rw [hk]
      rfl
    · rw [hk, decide_eq_true hfn]
      rfl
  refine exec_doV h hi ?_ ?_
  · simp only [hs, vmBad_allowed hvm, hvb, hwidth, fpBad_of_on hfp hon, ne_eq, not_true, decide_false, Bool.not_true, Bool.or_self]
  · simp only [hfp, Option.getD_some]

/-- R369: a conversion whose formats are on and whose source elements are VL at most. -/
theorem exec_vCvt (h : Issues s p f g) (hs : o.s = false) (hvm : o.vm = false → o.mreg = 0) {src : CvtSrc} (hsrc : cvtSrc o.vb.toNat = some src)
    (hon : fmtOn (vctx f p).po src.fmt = true) (hvl : (vctx f p).c.vl ≤ vlMax f p (sewOf src.bits)) {dst : VCtx → Option Nat}
    {F : VCtx → CvtSrc → Nat → FRes} {d : Nat} (hi : exec i s = done (vIssue p (fun m => vCvt p ⟨maj, func, o, m⟩ o dst F) s))
    (hdst : dst (vctx f p) = some d) (hd : fmtOn (vctx f p).po d = true) {op : Nat → FRes} (hF : ∀ v, F (vctx f p) src v = op v) :
    let x := vctx f p
    let rs := (x.active o).map fun e => (e, op (vGet x.po x.L (sewOf src.bits) o.va.toNat e))
    exec i s = .next (settle (retire (raiseFlags (putElems g p x o.vd (rs.map fun r => (r.1, r.2.v))) p (flagsOf rs)) p)) := by
  rw [exec_vIssue h hi, vCvt, hsrc]
  dsimp only
  rw [doV_issue h.2.2]
  · simp only [hF]
  · simp only [hs, vmBad_allowed hvm, hon, hdst, hd, Nat.not_lt.2 hvl, decide_false, Bool.not_true, Bool.or_self]

end Fn

/-- The exactly rounded result is within its own bound. -/
theorem transcNear_self {fn fm r a : Nat} (h : r % fSign fm < fInf fm) : transcNear fn fm r a r = true := by
  simp only [transcNear, h, Nat.sub_self, Nat.add_zero, Nat.zero_le, decide_true, beq_self_eq_true, Bool.true_or, Bool.and_self]

/-- Where the table states no value, the result is that of the finite operand. -/
theorem transc_finite {fn fm a m : Nat} {neg : Bool} {e : Int} (hsp : transcSpecial fn fm a = none) (hdec : fDec fm a = .fin neg m e) :
    transc fn fm a = transcFinite fn fm a neg m e := by
  simp only [transc, hsp, hdec]

/-- Settles O46: the functions and the conversions of each row; a free code counts only within the bound. -/
theorem vectorFunctions : Obligations.VectorFunctions := by
  intro s f g p fm o src h hs hvm x rm ends
  refine ⟨fun hvb hfp hon e he hk => ?_, fun fn a m neg e hsp hdec => ?_, fun hsrc hon hvl => ?_⟩
  · have hrow : ∃ maj func, exec e.1 s = done (vIssue p (fun m => vTransc p ⟨maj, func, o, m⟩ o e.2) s) := by
      clear hk
      revert e
      simp only [List.forall_mem_cons, List.not_mem_nil, false_implies, implies_true, and_true]
      refine ⟨?_, ?_, ?_, ?_, ?_, ?_, ?_, ?_⟩ <;> exact ⟨_, _, rfl⟩
    obtain ⟨maj, func, hi⟩ := hrow
    exact exec_vTransc h hs hvm hvb hfp hon hk hi
  · rw [transc_finite hsp hdec, transcFinite]
    refine ⟨fun hinf => if_pos hinf, fun hfin => ?_⟩
    rw [if_neg (Nat.ne_of_lt hfin)]
    refine ⟨?_, rfl⟩
    dsimp only
    split
    · assumption
    · exact transcNear_self hfin
  · intro v
    refine ⟨fun hfp hd => ?_, fun hd => ?_, fun hd => ?_⟩
    · have hget : x.fp.getD 0 = fm := by rw [hfp]; rfl
      exact ⟨exec_vCvt h hs hvm hsrc hon hvl (dst := fun x => x.fp) (F := fun x src v => cvtFlt (x.fp.getD 0) (rmOf x.c.fpctl) false src v) rfl hfp hd
          fun v => congrArg (cvtFlt · rm false src v) hget,
        exec_vCvt h hs hvm hsrc hon hvl (dst := fun x => x.fp) (F := fun x src v => cvtFlt (x.fp.getD 0) (rmOf x.c.fpctl) true src v) rfl hfp hd
          fun v => congrArg (cvtFlt · rm true src v) hget⟩
    · exact ⟨exec_vCvt h hs hvm hsrc hon hvl (dst := fun x => some (intFmt true x.sew))
          (F := fun x src v => cvtInt true x.sew (rmOf x.c.fpctl) src v) rfl rfl hd fun _ => rfl,
        exec_vCvt h hs hvm hsrc hon hvl (dst := fun x => some (intFmt true x.sew)) (F := fun x src v => cvtInt true x.sew 1 src v)
          rfl rfl hd fun _ => rfl⟩
    · exact ⟨exec_vCvt h hs hvm hsrc hon hvl (dst := fun x => some (intFmt false x.sew))
          (F := fun x src v => cvtInt false x.sew (rmOf x.c.fpctl) src v) rfl rfl hd fun _ => rfl,
        exec_vCvt h hs hvm hsrc hon hvl (dst := fun x => some (intFmt false x.sew)) (F := fun x src v => cvtInt false x.sew 1 src v)
          rfl rfl hd fun _ => rfl⟩

/-! ### MX -/

/-- An argument of Table 10-12 that names an MX format that is on. -/
theorem mxArgBad_of_on {x : VCtx} {b : Nat} (hb : b < 32) (hlo : 4 ≤ b % 16) (hhi : b % 16 ≤ 9) (hon : fmtOn x.po (b % 16) = true) :
    mxArgBad x b = false := by
  have hle : b % 16 ≤ 8 ∨ b % 16 = 9 := by omega
  simp only [mxArgBad, Nat.not_le.2 hb, fIsMx, hlo, hhi, hon, decide_true, decide_false, Bool.and_self, Bool.not_true, Bool.or_self]

/-- Settles O47: the checks of the two rows pass. -/
theorem vectorMxResults : Obligations.VectorMxResults := by
  intro s f g p o h hs hsew x b fm hb hlo hhi hon
  have hk : x.k = 2 := hsew
  have hmx : mxArgBad x b = false := mxArgBad_of_on hb hlo hhi hon
  refine ⟨fun hvm hm heven hne hne1 => ?_, fun hvm hva => ?_⟩
  · rw [exec_vIssue h (body := vqmxBody p o) rfl, vqmxBody, doVqmx, doV_issue h.2.2]
    have hvd : o.vd.toNat ≤ 30 := by
      have := o.vd.isLt
      omega
    have heq1 : (o.vd + 1 == o.va) = false := beq_eq_false_iff_ne.2 hne1
    simp only [hs, vmBad_never hvm hm, show (vctx f p).k = 2 from hk, show mxArgBad (vctx f p) (gpr (vctx f p).c o.vb).toNat = false from hmx,
      heven, Nat.not_lt.2 hvd, beq_eq_false_iff_ne.2 hne, heq1, ne_eq, not_true, Nat.zero_ne_one, decide_false, Bool.or_self]
  · rw [exec_vIssue h (body := vdqmxBody p o) rfl, vdqmxBody, doVdqmx, doV_issue h.2.2]
    have hva' : ¬ 30 < o.va.toNat := by omega
    simp only [hs, vmBad_allowed hvm, show (vctx f p).k = 2 from hk, hva',
      show mxArgBad (vctx f p) (gpr (vctx f p).c o.vb).toNat = false from hmx, ne_eq, not_true, decide_false, Bool.or_self]

end Sys2Proof.Machine

/-! PROOFS. Statements of the vector extension (chapter 10) and the matrix arrays (chapter 5): memory accesses, grist and wort queues, and the
matrix instructions. -/

namespace Sys2Proof.Machine

/-! ### Loads and stores -/

section Mem

variable {i : Instr} {s f g u : State} {p : Nat} {o : VOp} {maj func : BitVec 6} {l : VPlan}

theorem vViolation_of_placed (hl : ∀ a ∈ l, ∃ ls, a.2 = .ok ls) : vViolation l = none := by
  refine List.findSome?_eq_none_iff.2 fun a ha => ?_
  obtain ⟨ls, hls⟩ := hl a ha
  simp only [hls]

theorem vffCut_of_placed (hl : ∀ a ∈ l, ∃ ls, a.2 = .ok ls) : vffCut l = none := by
  refine List.findSome?_eq_none_iff.2 fun a ha => ?_
  obtain ⟨ls, hls⟩ := hl a ha
  simp only [hls]

/-- R358: with every element placed and none held, an instruction performs on the state that its broadcast leaves, and completes. -/
theorem vMem_issue {queues : Bool} {x : VCtx} {access : Nat} {els : List VEl} {step : VRun → VEl → List (Loc × Nat) → VRun}
    {cut : VPlan → VPlan} {fin : VPlan → State → State} (hplan : vPlanAll f p x access els = (l, g)) (hcut : cut l = l)
    (hfin : ∀ s, fin l s = s) (hplaced : ∀ a ∈ l, ∃ ls, a.2 = .ok ls) (hheld : ∀ a ∈ l, vHeld g p x a = none) (hreach : Reaches g p u) :
    vMem p ⟨maj, func, o, .issue⟩ queues x access els step cut fin f =
      retire (dropWaiterAll (vPerform p step { s := u, seen := [] } l).s (isVecReq p)) p := by
  have hwait : (l.any fun a => match a.2 with | .error (.wait ..) => true | _ => false) = false := by
    refine List.any_eq_false.2 fun a ha => ?_
    obtain ⟨ls, hls⟩ := hplaced a ha
    simp only [hls, Bool.false_eq_true, not_false_eq_true]
  have hnone : l.findSome? (vHeld g p x) = none := List.findSome?_eq_none_iff.2 hheld
  simp only [vMem, hplan, hcut, vViolation_of_placed hplaced]
  refine (if_neg (by decide)).trans ((if_neg (Bool.eq_false_iff.1 hwait)).trans ?_)
  simp only [hnone, hfin]
  exact (if_neg (by decide)).trans (castInstr_of_reaches hreach _)

section Plan

variable (h : Fetched s p f) (hqueue : (polder f p).vqueue = [])
include h hqueue

theorem exec_vIssue_of_fetched {body : VMode → State → State} (hi : exec i s = done (vIssue p body s)) :
    exec i s = .next (settle (body .issue f)) := by
  rw [hi, vIssue, issue_of_fetched h, hqueue]
  rfl

theorem exec_vAlone {body : State → State} (hi : exec i s = done (vAlone p body s)) : exec i s = .next (settle (body f)) := by
  rw [hi, vAlone, issue_of_fetched h, hqueue]
  rfl

variable (hplaced : ∀ a ∈ l, ∃ ls, a.2 = .ok ls) (hheld : ∀ a ∈ l, vHeld g p (vctx f p) a = none) (hreach : Reaches g p u)
include hplaced hheld hreach

/-- R353: a load or store past its issue checks. -/
theorem exec_vMemOp {m : VAddr} {store : Bool} (hi : exec i s = done (vIssue p (fun v => vMemOp p ⟨maj, func, o, v⟩ o m store) s))
    (hmem : (vctx f p).memBad o m = false) (haddr : (vctx f p).addrBad o m true = none)
    (hplan : vPlanAll f p (vctx f p) (if store then 2 else 1) (((vctx f p).active o).map ((vctx f p).el o m)) = (l, g)) :
    exec i s = .next (settle (retire (dropWaiterAll (vPerform p (if store then vStoreEl p (vctx f p) o.vd else vLoadEl p (vctx f p) o.vd)
      { s := u, seen := [] } l).s (isVecReq p)) p)) := by
  rw [exec_vIssue_of_fetched h hqueue hi]
  simp only [vMemOp, hmem, Bool.and_false, Bool.false_eq_true, if_false, haddr, ite_self]
  rw [vMem_issue hplan rfl (fun _ => rfl) hplaced hheld hreach]

/-- R355: a load or store of mask bits past its issue checks. -/
theorem exec_vMaskMem {store : Bool} (hi : exec i s = done (vIssue p (fun v => vMaskMem p ⟨maj, func, o, v⟩ o store) s))
    (hs : o.s = false) (hvm : vmBad .never o = false) (hvd : o.vd.toNat < 8) (hvb : o.vb = 0) (hmew : (vctx f p).mew ≤ (vctx f p).sew)
    (hga : (gpr (vctx f p).c o.va).toNat < 2 ^ 48) (hend : (gpr (vctx f p).c o.va).toNat + ((vctx f p).c.vl + 7) / 8 ≤ 2 ^ 48)
    (hplan : vPlanAll f p (vctx f p) (if store then 2 else 1) (maskEls (vctx f p) o) = (l, g)) :
    exec i s = .next (settle (retire (dropWaiterAll (vPerform p
      (if store then vStoreMaskEl p (vctx f p) o.vd.toNat else vLoadMaskEl p (vctx f p) o.vd.toNat)
      { s := u, seen := [] } l).s (isVecReq p)) p)) := by
  have hlast : ((vctx f p).c.vl ≠ 0 && decide (2 ^ 48 ≤ (gpr (vctx f p).c o.va).toNat + ((vctx f p).c.vl + 7) / 8 - 1)) = false := by
    by_cases hvl : (vctx f p).c.vl = 0
    · simp only [hvl, ne_eq, not_true, decide_false, Bool.false_and]
    · rw [decide_eq_false (p := 2 ^ 48 ≤ _) (by omega), Bool.and_false]
  have hbad : (o.s || vmBad .never o || decide (7 < o.vd.toNat) || decide (o.vb ≠ 0) || decide ((vctx f p).sew < (vctx f p).mew)) = false := by
    simp only [hs, hvm, Nat.not_lt.2 (Nat.le_of_lt_succ hvd), hvb, Nat.not_lt.2 hmew, ne_eq, not_true, decide_false, Bool.or_self]
  rw [exec_vIssue_of_fetched h hqueue hi]
  simp only [vMaskMem, hbad, Nat.not_le.2 hga, decide_false, Bool.and_assoc, hlast, Bool.and_false, Bool.false_eq_true, if_false]
  rw [vMem_issue hplan rfl (fun _ => rfl) hplaced hheld hreach]

end Plan

end Mem

/-- Settles O48: the place and the step of each row, whose checks pass. -/
theorem vectorMemoryResults : Obligations.VectorMemoryResults := by
  intro s f g u p o l h hqueue hs hvm x ga hplaced hheld hreach ends
  refine ⟨fun e he hmem haddr hplan => ?_, fun hmem haddr hplan => ?_, fun hm hvd hvb hmew hga hend => ⟨fun hplan => ?_, fun hplan => ?_⟩⟩
  · have hrow : ∃ maj func, ∃ store : Bool, exec e.1 s = done (vIssue p (fun v => vMemOp p ⟨maj, func, o, v⟩ o e.2.1 store) s) ∧
        e.2.2.1 = (if store then 2 else 1) ∧ e.2.2.2 = (if store then vStoreEl p x o.vd else vLoadEl p x o.vd) := by
      clear hmem haddr hplan
      revert e
      simp only [List.forall_mem_cons, List.not_mem_nil, false_implies, implies_true, and_true]
      refine ⟨?_, ?_, ?_, ?_, ?_, ?_⟩
      iterate 3 exact ⟨_, _, false, rfl, rfl, rfl⟩
      iterate 3 exact ⟨_, _, true, rfl, rfl, rfl⟩
    obtain ⟨maj, func, store, hi, haccess, hstep⟩ := hrow
    rw [haccess] at hplan
    rw [hstep]
    exact exec_vMemOp h hqueue hplaced hheld hreach hi hmem haddr hplan
  · have hrun := exec_vAlone h hqueue (i := .vldff p o) (body := vLoadFF p ⟨0x3B, 3, o, .issue⟩ o) rfl
    refine hrun.trans ?_
    simp only [vLoadFF, show (vctx f p).memBad o .unit = false from hmem, show (vctx f p).addrBad o .unit false = none from haddr,
      Bool.false_eq_true, if_false]
    rw [vMem_issue hplan (by rw [vffCut_of_placed hplaced]) (fun _ => by rw [vffCut_of_placed hplaced]) hplaced hheld hreach]
  · exact exec_vMaskMem (store := false) h hqueue hplaced hheld hreach rfl hs (vmBad_never hm (hvm hm)) hvd hvb hmew hga hend hplan
  · exact exec_vMaskMem (store := true) h hqueue hplaced hheld hreach rfl hs (vmBad_never hm (hvm hm)) hvd hvb hmew hga hend hplan

end Sys2Proof.Machine

/-! PROOFS. Statements of the vector extension (chapter 10) and the matrix arrays (chapter 5): grist and wort queues, queued instructions, and the
matrix instructions. -/

namespace Sys2Proof.Machine

/-! ### Grist and wort queues -/

section Unit

variable {i : Instr} {s f g : State} {p : Nat} {o : VOp} {maj func : BitVec 6}

/-- R360: a move between registers and grist past its checks. -/
theorem vGrist_issue {store : Bool} (hreach : Reaches f p g) (hbad : gristBad (vctx f p) o = false) (hwait : gristWaits (vctx f p) o = false) :
    let x := vctx f p
    let ga := (gpr x.c o.va).toNat
    vGrist p ⟨maj, func, o, .issue⟩ o store f =
      retire (if store then
        (x.active o).foldl (fun s e =>
          let a := x.gristOf ga e
          gristWrite s (cdOfRank s p a.1) a.2.1 a.2.2 (bytesLE (x.sew / 8) (x.get o.vd e))) g
      else
        putElems g p x o.vd ((x.active o).map fun e =>
          let a := x.gristOf ga e
          (e, natLE (gristRead g (cdOfRank g p a.1) a.2.1 a.2.2 (x.sew / 8))))) p := by
  intro x ga
  simp only [vGrist, hbad, hwait, Bool.and_false, Bool.false_eq_true, if_false, vGo]
  exact castInstr_of_reaches hreach _

section Wort

variable (hreach : Reaches f p g) (hs : o.s = false) (hm : o.vm = true) (hrun : (vctx f p).po.run = none) (v : VI)
include hreach hs hm hrun

/-- R372: VPOPW takes a tile from every queue, once each can give one. -/
theorem doVpopw_ready (hva : o.va = 0) (hvb : o.vb = 0) (hready : popReady f p (vctx f p) = true) (hmis : popMismatch f p (vctx f p) = false) :
    doVpopw p o v f = retire (popTiles g p (vctx f p) o.vd o.mreg.toNat) p := by
  have hchecks : (o.s || vmBad .must o || decide (o.va ≠ 0) || decide (o.vb ≠ 0) || (vctx f p).po.run.isSome) = false := by
    simp only [hs, vmBad_must hm, hva, hvb, hrun, ne_eq, not_true, decide_false, Option.isSome_none, Bool.or_self]
  simp only [doVpopw, hchecks, hmis, hready, Bool.not_true, Bool.false_eq_true, if_false]
  exact castInstr_of_reaches hreach _

/-- R373: VPOPW.NB takes a tile from every queue and reports 1, or 0 where some queue cannot give one. -/
theorem doVpopwNb_ready (hva : o.va = 0) (hready : popReady f p (vctx f p) = true) (hmis : popMismatch f p (vctx f p) = false) :
    doVpopwNb p o v f = retire (putReg (popTiles g p (vctx f p) o.vd o.mreg.toNat) p o.vb 1) p := by
  have hchecks : (o.s || vmBad .must o || decide (o.va ≠ 0) || (vctx f p).po.run.isSome) = false := by
    simp only [hs, vmBad_must hm, hva, hrun, ne_eq, not_true, decide_false, Option.isSome_none, Bool.or_self]
  simp only [doVpopwNb, hchecks, hmis, hready, Bool.not_true, Bool.false_eq_true, if_false]
  exact castInstr_of_reaches hreach _

theorem doVpopwNb_empty (hva : o.va = 0) (hready : popReady f p (vctx f p) = false) :
    doVpopwNb p o v f = retire (putReg g p o.vb 0) p := by
  have hchecks : (o.s || vmBad .must o || decide (o.va ≠ 0) || (vctx f p).po.run.isSome) = false := by
    simp only [hs, vmBad_must hm, hva, hrun, ne_eq, not_true, decide_false, Option.isSome_none, Bool.or_self]
  simp only [doVpopwNb, hchecks, hready, Bool.not_false, Bool.false_eq_true, if_false, if_true]
  exact castInstr_of_reaches hreach _

variable (hvd : o.vd = 0) (hvb : o.vb = 0) (hk : 2 ≤ (vctx f p).k)
include hvd hvb hk

omit hreach in
theorem vpushw_checks : (o.s || vmBad .must o || decide (o.vd ≠ 0) || decide (o.vb ≠ 0) || (vctx f p).po.run.isSome ||
    decide ((vctx f p).k < 2)) = false := by
  simp only [hs, vmBad_must hm, hvd, hvb, hrun, Nat.not_lt.2 hk, ne_eq, not_true, decide_false, Option.isSome_none, Bool.or_self]

/-- R374: VPUSHW puts a tile in every queue, once each has room and no group delivers to them. -/
theorem doVpushw_pushes (hvl : (vctx f p).c.vl ≠ 0) (hroom : ∀ q ∈ wortQueues f p, q.2.2.length + popNeeds (vctx f p) ≤ 64)
    (hdest : ∀ e ∈ (vctx f p).po.groups, cfgDest e.2.cfg0 ≠ 0) :
    doVpushw p o v f = retire (wortInt ((wortQueues g p).foldl (fun s q =>
      setWort s p q.1 q.2.1 (q.2.2 ++ pushEntries (vctx f p) o (1024 * q.1 + 64 * q.2.1))) g) p) p := by
  have hfree : ((wortQueues f p).any fun q => decide (wortSize < q.2.2.length + popNeeds (vctx f p))) = false :=
    List.any_eq_false.2 fun q hq => by
      rw [decide_eq_true_eq]
      exact Nat.not_lt.2 (hroom q hq)
  have hnone : ((vctx f p).po.groups.any fun e => cfgDest e.2.cfg0 == 0) = false :=
    List.any_eq_false.2 fun e he => by simpa only [beq_iff_eq] using hdest e he
  simp only [doVpushw, vpushw_checks hs hm hrun hvd hvb hk, hvl, hfree, hnone, Bool.or_self, Bool.false_eq_true, if_false]
  exact castInstr_of_reaches hreach _

theorem doVpushw_zero (hvl : (vctx f p).c.vl = 0) : doVpushw p o v f = retire g p := by
  simp only [doVpushw, vpushw_checks hs hm hrun hvd hvb hk, hvl, Bool.false_eq_true, if_false, if_true]
  exact castInstr_of_reaches hreach _

end Wort

/-! ### Instructions behind the members' queues -/

section Queue

variable (h : Fetched s p f) (hne : (polder f p).vqueue ≠ [])
include h hne

/-- R346: an instruction that runs alone waits for those before it. -/
theorem exec_vAlone_waits {body : State → State} (hi : exec i s = done (vAlone p body s)) : exec i s = .next (settle f) := by
  have hbusy : (polder f p).vqueue.isEmpty = false := List.isEmpty_eq_false_iff.2 hne
  rw [hi, vAlone, issue_of_fetched h, hbusy]
  rfl

/-- R346: another instruction joins the queues, or waits while they are full. -/
theorem exec_vIssue_queued {body : VMode → State → State} (hi : exec i s = done (vIssue p body s)) :
    exec i s = .next (settle (if (polder f p).vqueue.length < 32 then body .push f else f)) := by
  have hlen : (polder f p).vqueue.length ≠ 0 := fun hzero => hne (List.length_eq_zero_iff.1 hzero)
  rw [hi, vIssue, issue_of_fetched h]
  simp only [hlen, if_false, vqMax]
  rfl

end Queue

/-- An instruction that joins the queues does so through its broadcast. -/
theorem doV_push (hreach : Reaches f p g) {bad : VCtx → Bool} {body : VCtx → State → State} (hbad : bad (vctx f p) = false) :
    doV p ⟨maj, func, o, .push⟩ bad body f = vPush g p ⟨maj, func, o, .push⟩ := by
  simp only [doV, hbad, Bool.and_false, Bool.false_eq_true, if_false, vGo]
  exact castInstr_of_reaches hreach _

end Unit

/-- Settles O49: the checks of each row pass, and of queued instructions each outcome is one branch of their issue. -/
theorem vectorUnitResults : Obligations.VectorUnitResults := by
  intro s f g p o h x ga
  obtain ⟨hfetch, hqueue, hreach⟩ := id h
  have hend {i : Instr} {body : State → State} {t : State} (hi : exec i s = done (vAlone p body s)) (ht : body f = t) :
      exec i s = .next (settle t) := ht ▸ exec_vAlone hfetch hqueue hi
  refine ⟨fun hbad hwait => ⟨?_, ?_⟩, fun hs hm hva hrun => ⟨fun hready hmis => ⟨fun hvb => ?_, ?_⟩, fun hready => ?_⟩,
    fun hs hm hvd hvb hrun hk hvl hroom hdest => ?_, fun hs hm hvd hvb hrun hk hvl => ?_, ?_, fun t h' u ht hne hu => ⟨?_, fun hlt => ?_, fun hge => ?_⟩⟩
  · rw [exec_vIssue h (body := vldgBody p o) rfl, vldgBody, vGrist_issue hreach hbad hwait]
    rfl
  · rw [exec_vIssue h (body := vstgBody p o) rfl, vstgBody, vGrist_issue hreach hbad hwait]
    rfl
  · exact hend (body := doVpopw p o ⟨0x3E, 0, o, .issue⟩) rfl (doVpopw_ready hreach hs hm hrun _ hva hvb hready hmis)
  · exact hend (body := doVpopwNb p o ⟨0x3E, 1, o, .issue⟩) rfl (doVpopwNb_ready hreach hs hm hrun _ hva hready hmis)
  · exact ⟨_, hend (body := doVpopwNb p o ⟨0x3E, 1, o, .issue⟩) rfl (doVpopwNb_empty hreach hs hm hrun _ hva hready),
      coreIs_retire_putReg (.refl g p) o.vb 0⟩
  · exact hend (body := doVpushw p o ⟨0x3E, 2, o, .issue⟩) rfl (doVpushw_pushes hreach hs hm hrun _ hvd hvb hk hvl hroom hdest)
  · exact ⟨_, hend (body := doVpushw p o ⟨0x3E, 2, o, .issue⟩) rfl (doVpushw_zero hreach hs hm hrun _ hvd hvb hk hvl), coreIs_retire (.refl g p)⟩
  · exact ⟨_, hend (body := fun s => retire s p) rfl rfl, coreIs_retire (.refl f p)⟩
  · exact exec_vAlone_waits ht hne (body := fun s => retire s p) rfl
  · have hbad : vmBad .allowed { o with vm := false, mreg := 0 } = false := rfl
    rw [exec_vIssue_queued ht hne (body := vaddBody p { o with vm := false, mreg := 0 }) rfl, if_pos hlt, vaddBody, vInt, doV_push hu hbad]
  · rw [exec_vIssue_queued ht hne (body := vaddBody p o) rfl, if_neg (Nat.not_lt.2 hge)]

/-! ### Matrix instructions -/

section Matrix

variable {f v : State} {p : Nat} {gm ra rb : Reg} {g : Group} {w : OpWord} {a b : Word} {iw : Word32} (hreach : Reaches f p v)
  (hrun : (polder f p).run = none) (hgrp : (groupAt (polder f p) w.grp).state ≠ 2)
include hreach hrun hgrp

/-- R175–R177: MLDS loads the banks and opens its group. -/
theorem doMlds_loads (hw : opWord (gpr (core f p) gm) = w) (hb : gpr (core f p) rb = b) (hword : opWordBad (polder f p) { w with rows := 1 } = false)
    (hops : runBad w.fmtB w.depth (w.n * w.cols) (opndElem b) (opndScale b) = false)
    (hread : opndWaits (polder f p) w.fmtB w.depth (w.n * w.cols) (opndElem b) (opndScale b) = false)
    (hg : groupLds (polder f p) { w with rows := 1 } = some g) :
    doMlds p gm rb iw f = retire (setGroup (loadBanks v p { w with rows := 1 } (opndElem b) (opndScale b)) p w.grp g) p := by
  simp only [doMlds, hw, hb, hrun, hword, hops, hgrp, hread, hg, Option.isSome_none, decide_false, Bool.or_self, Bool.false_eq_true, if_false]
  exact castInstr_of_reaches hreach _

variable (hword : opWordBad (polder f p) w = false)
include hword

/-- R175: MSTREAM streams through banks that hold what it names. -/
theorem doMstream_streams (hw : opWord (gpr (core f p) gm) = w) (ha : gpr (core f p) ra = a)
    (hops : runBad w.fmtA w.depth w.rows (opndElem a) (opndScale a) = false) (hbanks : banksBad f p w = false)
    (hread : opndWaits (polder f p) w.fmtA w.depth w.rows (opndElem a) (opndScale a) = false) (hg : groupFor (polder f p) w = some g) :
    doMstream p gm ra iw f = streamInto v p w (opndElem a) (opndScale a) g := by
  simp only [doMstream, hw, ha, hrun, hword, hops, hbanks, hgrp, hread, hg, Option.isSome_none, decide_false, Bool.or_self, Bool.false_eq_true,
    if_false]
  exact castInstr_of_reaches hreach _

/-- R175: MMA8 loads and streams, for at most 8 rows and one depth group. -/
theorem doMma8_loads_streams (hw : opWord (gpr (core f p) gm) = w) (ha : gpr (core f p) ra = a) (hb : gpr (core f p) rb = b) (hrows : w.rows ≤ 8)
    (hdepth : w.depth ≤ ((pairing w.fmtA w.fmtB).map (·.2)).getD 0)
    (hopsA : runBad w.fmtA w.depth w.rows (opndElem a) (opndScale a) = false)
    (hopsB : runBad w.fmtB w.depth (w.n * w.cols) (opndElem b) (opndScale b) = false)
    (hreadA : opndWaits (polder f p) w.fmtA w.depth w.rows (opndElem a) (opndScale a) = false)
    (hreadB : opndWaits (polder f p) w.fmtB w.depth (w.n * w.cols) (opndElem b) (opndScale b) = false)
    (hg : groupFor (polder f p) w = some g) :
    doMma8 p gm ra rb iw f = streamInto (loadBanks v p w (opndElem b) (opndScale b)) p w (opndElem a) (opndScale a) g := by
  simp only [doMma8, hw, ha, hb, hrun, hword, Nat.not_lt.2 hrows, Nat.not_lt.2 hdepth, hopsA, hopsB, hgrp, hreadA, hreadB, hg, Option.isSome_none,
    decide_false, Bool.or_self, Bool.false_eq_true, if_false]
  exact castInstr_of_reaches hreach _

end Matrix

/-- Settles O50: the checks of each row pass, and the broadcast is done. -/
theorem matrixInstructionResults : Obligations.MatrixInstructionResults := by
  intro s f v p gm ra rb g h hreach c w w1 a b po reads hrun
  have hend {i : Instr} {body : State → State} {t : State} (hi : exec i s = done (issue s p body)) (ht : body f = t) :
      exec i s = .next (settle t) := ht ▸ exec_of_fetched h hi
  refine ⟨fun hword hops hgrp hread hg => ?_, fun hword hops hgrp hread hg => ⟨fun hbanks => ?_, fun hrows hdepth hopsB hreadB => ?_⟩⟩
  · exact hend (body := doMlds p gm rb (wR 0x30 gm 0 rb 1)) rfl (doMlds_loads hreach hrun hgrp rfl rfl hword hops hread hg)
  · exact hend (body := doMstream p gm ra (wR 0x30 gm ra 0 2)) rfl (doMstream_streams hreach hrun hgrp hword rfl rfl hops hbanks hread hg)
  · exact hend (body := doMma8 p gm ra rb (wR 0x30 gm ra rb 3)) rfl
      (doMma8_loads_streams hreach hrun hgrp hword rfl rfl rfl hrows hdepth hops hopsB hread hreadB hg)

end Sys2Proof.Machine

/-! PROOFS. Statements of the vector extension (chapter 10): the placement of elements in the vector registers. -/

namespace Sys2Proof.Machine

/-! ### Fields of a number -/

theorem bits_eq (w lo n : Nat) : bits w lo n = w / 2 ^ lo % 2 ^ n := by rw [bits, Nat.shiftRight_eq_div_pow]

/-- A field replaced: what lies above it, the field and what lies below it. -/
theorem setBits_eq (w lo n v : Nat) : setBits w lo n v = w / 2 ^ (lo + n) * 2 ^ (lo + n) + v % 2 ^ n * 2 ^ lo + w % 2 ^ lo := by
  have hlow : 2 ^ lo * (w / 2 ^ lo) + w % 2 ^ lo = w := Nat.div_add_mod w (2 ^ lo)
  have hmid : 2 ^ n * (w / 2 ^ lo / 2 ^ n) + w / 2 ^ lo % 2 ^ n = w / 2 ^ lo := Nat.div_add_mod (w / 2 ^ lo) (2 ^ n)
  rw [Nat.div_div_eq_div_mul, ← Nat.pow_add] at hmid
  have hw : w = w / 2 ^ (lo + n) * 2 ^ (lo + n) + w / 2 ^ lo % 2 ^ n * 2 ^ lo + w % 2 ^ lo := by
    calc w = 2 ^ lo * (w / 2 ^ lo) + w % 2 ^ lo := hlow.symm
      _ = 2 ^ lo * (2 ^ n * (w / 2 ^ (lo + n)) + w / 2 ^ lo % 2 ^ n) + w % 2 ^ lo := by rw [hmid]
      _ = _ := by rw [Nat.pow_add]; grind
  rw [setBits, bits_eq, Nat.shiftLeft_eq, Nat.shiftLeft_eq]
  omega

theorem bits_setBits_same (w lo n v : Nat) : bits (setBits w lo n v) lo n = v % 2 ^ n := by
  have hlow : w % 2 ^ lo < 2 ^ lo := Nat.mod_lt _ (Nat.two_pow_pos lo)
  have hdiv : setBits w lo n v / 2 ^ lo = v % 2 ^ n + w / 2 ^ (lo + n) * 2 ^ n := by
    rw [setBits_eq, show w / 2 ^ (lo + n) * 2 ^ (lo + n) + v % 2 ^ n * 2 ^ lo + w % 2 ^ lo =
      w % 2 ^ lo + 2 ^ lo * (v % 2 ^ n + w / 2 ^ (lo + n) * 2 ^ n) by rw [Nat.pow_add]; grind,
      Nat.add_mul_div_left _ _ (Nat.two_pow_pos lo), Nat.div_eq_of_lt hlow, Nat.zero_add]
  rw [bits_eq, hdiv, Nat.add_mul_mod_self_right, Nat.mod_mod]

theorem setBits_div_above (w lo n v : Nat) : setBits w lo n v / 2 ^ (lo + n) = w / 2 ^ (lo + n) := by
  have hlow : w % 2 ^ lo < 2 ^ lo := Nat.mod_lt _ (Nat.two_pow_pos lo)
  have hval : v % 2 ^ n < 2 ^ n := Nat.mod_lt _ (Nat.two_pow_pos n)
  have hrest : v % 2 ^ n * 2 ^ lo + w % 2 ^ lo < 2 ^ (lo + n) := by
    calc v % 2 ^ n * 2 ^ lo + w % 2 ^ lo < v % 2 ^ n * 2 ^ lo + 2 ^ lo := Nat.add_lt_add_left hlow _
      _ = (v % 2 ^ n + 1) * 2 ^ lo := by grind
      _ ≤ 2 ^ n * 2 ^ lo := Nat.mul_le_mul_right _ hval
      _ = 2 ^ (lo + n) := by rw [Nat.pow_add, Nat.mul_comm]
  rw [setBits_eq, Nat.add_assoc, Nat.add_comm, Nat.add_mul_div_right _ _ (Nat.two_pow_pos _), Nat.div_eq_of_lt hrest, Nat.zero_add]

theorem setBits_mod_below (w lo n v : Nat) : setBits w lo n v % 2 ^ lo = w % 2 ^ lo := by
  rw [setBits_eq, show w / 2 ^ (lo + n) * 2 ^ (lo + n) + v % 2 ^ n * 2 ^ lo + w % 2 ^ lo =
    w % 2 ^ lo + 2 ^ lo * (w / 2 ^ (lo + n) * 2 ^ n + v % 2 ^ n) by rw [Nat.pow_add]; grind, Nat.add_mul_mod_self_left, Nat.mod_mod]

/-- A field apart from the replaced one keeps its value. -/
theorem bits_setBits_apart {w lo lo' n n' v : Nat} (h : lo' + n' ≤ lo ∨ lo + n ≤ lo') : bits (setBits w lo n v) lo' n' = bits w lo' n' := by
  rcases h with h | h
  · have hbelow (x : Nat) : bits x lo' n' = x % 2 ^ lo / 2 ^ lo' % 2 ^ n' := by
      obtain ⟨k, rfl⟩ := Nat.exists_eq_add_of_le h
      rw [bits_eq, Nat.add_assoc, Nat.pow_add, Nat.mod_mul_right_div_self, Nat.pow_add, Nat.mod_mul_right_mod]
    rw [hbelow, hbelow, setBits_mod_below]
  · have habove (x : Nat) : bits x lo' n' = x / 2 ^ (lo + n) / 2 ^ (lo' - (lo + n)) % 2 ^ n' := by
      rw [bits_eq, Nat.div_div_eq_div_mul, ← Nat.pow_add, Nat.add_sub_cancel' h]
    rw [habove, habove, setBits_div_above]

/-- A number of `m` bits keeps them when a field of it is replaced. -/
theorem setBits_lt {w lo n v m : Nat} (hw : w < 2 ^ m) (h : lo + n ≤ m) : setBits w lo n v < 2 ^ m := by
  have hdiv := setBits_div_above w lo n v
  obtain ⟨k, rfl⟩ := Nat.exists_eq_add_of_le h
  rw [Nat.pow_add, Nat.mul_comm] at hw ⊢
  exact (Nat.div_lt_iff_lt_mul (Nat.two_pow_pos _)).1 (hdiv ▸ (Nat.div_lt_iff_lt_mul (Nat.two_pow_pos _)).2 hw)

/-! ### Elements -/

/-- The slots of a 64-bit word are as wide as an element and fill it. -/
theorem slots_fill {k : Nat} (hk : k < 4) : 0 < 8 <<< k ∧ (8 <<< k) * (64 / (8 <<< k)) = 64 := by
  obtain rfl | rfl | rfl | rfl : k = 0 ∨ k = 1 ∨ k = 2 ∨ k = 3 := by omega
  all_goals decide

/-- The word in which an element of a register lies. -/
def vWord (L per r e : Nat) : Nat := (r * 8 + e / L / per) * 24576 + e % L

section Elem

variable {L k : Nat} (hL : 0 < L) (hmax : L ≤ 24576)
include hL hmax

/-- Elements of one word belong to one register, one slot row and one lane. -/
theorem vWord_inj {per r q e i : Nat} (he : e < 8 * per * L) (hi : i < 8 * per * L) (h : vWord L per r e = vWord L per q i) :
    r = q ∧ e / L / per = i / L / per ∧ e % L = i % L := by
  have hrow {x : Nat} (hx : x < 8 * per * L) : x / L / per < 8 :=
    Nat.div_lt_of_lt_mul (Nat.mul_comm 8 per ▸ (Nat.div_lt_iff_lt_mul hL).2 hx)
  have hlane (x : Nat) : x % L < 24576 := Nat.lt_of_lt_of_le (Nat.mod_lt x hL) hmax
  have h1 := hrow he
  have h2 := hrow hi
  have h3 := hlane e
  have h4 := hlane i
  have hword : r * 8 + e / L / per = q * 8 + i / L / per := by
    have hdiv (a x : Nat) (hx : x < 24576) : (a * 24576 + x) / 24576 = a := by omega
    rw [← hdiv (r * 8 + e / L / per) _ h3, ← hdiv (q * 8 + i / L / per) _ h4]
    exact congrArg (· / 24576) h
  have hlane' : e % L = i % L := by
    rw [vWord, vWord, hword] at h
    exact Nat.add_left_cancel h
  generalize e / L / per = a at *
  generalize i / L / per = b at *
  omega

/-- R338, R339: an element written reads back at its width, and no other element changes. -/
theorem vGet_vPut (hk : k < 4) (po : Polder) (r q e i v : Nat) (he : e < 8 * (64 / (8 <<< k)) * L) (hi : i < 8 * (64 / (8 <<< k)) * L) :
    vGet (vPut L k r po e v) L k q i = if q = r ∧ i = e then v % 2 ^ (8 <<< k) else vGet po L k q i := by
  obtain ⟨hpos, hfill⟩ := slots_fill hk
  have hper : 0 < 64 / (8 <<< k) := by
    rcases Nat.eq_zero_or_pos (64 / (8 <<< k)) with h | h
    · rw [h] at hfill
      omega
    · exact h
  generalize hn : 8 <<< k = n at *
  generalize hp : 64 / n = per at *
  have hget (po : Polder) (r e : Nat) : vGet po L k r e = bits (tget 0 po.vregs (vWord L per r e)).toNat (n * (e / L % per)) n := by
    simp only [vGet, hn, hp]
    rfl
  have hput : (vPut L k r po e v).vregs = tset 0 po.vregs (vWord L per r e)
      (toW (setBits (tget 0 po.vregs (vWord L per r e)).toNat (n * (e / L % per)) n v)) := by
    simp only [vPut, hn, hp]
    rfl
  have hslot (x : Nat) : n * (x / L % per) + n ≤ 64 := by
    calc n * (x / L % per) + n = n * (x / L % per + 1) := by grind
      _ ≤ n * per := Nat.mul_le_mul_left _ (Nat.mod_lt _ hper)
      _ = 64 := hfill
  have hword : (toW (setBits (tget 0 po.vregs (vWord L per r e)).toNat (n * (e / L % per)) n v)).toNat =
      setBits (tget 0 po.vregs (vWord L per r e)).toNat (n * (e / L % per)) n v :=
    Nat.mod_eq_of_lt (setBits_lt (BitVec.isLt _) (hslot e))
  rw [hget, hget, hput, tget_tset]
  by_cases hsame : vWord L per q i = vWord L per r e
  · obtain ⟨rfl, hrow, hlane⟩ := vWord_inj hL hmax hi he hsame
    rw [if_pos hsame, hword]
    by_cases hie : i = e
    · subst hie
      rw [bits_setBits_same, if_pos ⟨rfl, rfl⟩]
    · have hdiff : i / L % per ≠ e / L % per := by
        intro heq
        refine hie ?_
        rw [← Nat.div_add_mod i L, ← Nat.div_add_mod e L, hlane, ← Nat.div_add_mod (i / L) per, ← Nat.div_add_mod (e / L) per, hrow, heq]
      rw [if_neg (fun h => hie h.2), bits_setBits_apart, hsame]
      rcases Nat.lt_or_gt_of_ne hdiff with hlt | hgt
      · refine .inl ?_
        calc n * (i / L % per) + n = n * (i / L % per + 1) := by grind
          _ ≤ n * (e / L % per) := Nat.mul_le_mul_left _ hlt
      · refine .inr ?_
        calc n * (e / L % per) + n = n * (e / L % per + 1) := by grind
          _ ≤ n * (i / L % per) := Nat.mul_le_mul_left _ hgt
  · rw [if_neg hsame, if_neg]
    rintro ⟨rfl, rfl⟩
    exact hsame rfl

end Elem

/-- Settles O37, by induction on the list of writes, of which at most one is of the element read. -/
theorem vectorRegisterFile : Obligations.VectorRegisterFile := by
  intro po L k r q l i hL hmax hk hl hnd hi
  induction l generalizing po with
  | nil => simp only [List.foldl_nil, List.find?_nil, ite_self]
  | cons e l ih =>
    have hput := vGet_vPut hL hmax hk po r.toNat q.toNat e.1 i e.2 (hl e List.mem_cons_self) hi
    have hrest := ih (vPut L k r.toNat po e.1 e.2) (fun x hx => hl x (List.mem_cons_of_mem _ hx)) (List.nodup_cons.1 hnd).2
    rw [List.foldl_cons, hrest, hput]
    by_cases hqr : q = r
    · subst hqr
      simp only [if_true, true_and, List.find?_cons]
      by_cases hie : i = e.1
      · have hnone : (l.find? fun x => x.1 == i) = none := by
          refine List.find?_eq_none.2 fun x hx hxi => (List.nodup_cons.1 hnd).1 ?_
          exact List.mem_map.2 ⟨x, hx, (beq_iff_eq.1 hxi).trans hie⟩
        rw [hnone, if_pos hie, beq_iff_eq.2 hie.symm]
      · rw [beq_eq_false_iff_ne.2 (Ne.symm hie), if_neg hie]
    · have hne : ¬ (q.toNat = r.toNat ∧ i = e.1) := fun h => hqr (BitVec.eq_of_toNat_eq h.1)
      rw [if_neg hqr, if_neg hqr, if_neg hne]

end Sys2Proof.Machine

/-! PROOFS. Memory at a sound home (chapter 12): what a read, a write and an update of one atom answer and leave. -/

namespace Sys2Proof.Machine

/-! ### What an access to memory may change -/

/-- `u` is `s` but for bytes, near caches, the health of memory, tags and free values. -/
def HomeOf (s u : State) : Prop :=
  ∃ n m c h o, u = { s with free := n, mem := m, cds := c, health := h, fabric := { s.fabric with owners := o } }

theorem HomeOf.refl (s : State) : HomeOf s s := ⟨_, _, _, _, _, rfl⟩

theorem HomeOf.trans {s t u : State} (h1 : HomeOf s t) (h2 : HomeOf t u) : HomeOf s u := by
  obtain ⟨_, _, _, _, _, rfl⟩ := h1
  obtain ⟨_, _, _, _, _, rfl⟩ := h2
  exact ⟨_, _, _, _, _, rfl⟩

theorem HomeOf.cores {s u : State} (h : HomeOf s u) : u.cores = s.cores := by
  obtain ⟨_, _, _, _, _, rfl⟩ := h
  rfl

theorem HomeOf.polders {s u : State} (h : HomeOf s u) : u.polders = s.polders := by
  obtain ⟨_, _, _, _, _, rfl⟩ := h
  rfl

theorem HomeOf.out {s u : State} (h : HomeOf s u) : u.out = s.out := by
  obtain ⟨_, _, _, _, _, rfl⟩ := h
  rfl

theorem HomeOf.core_eq {s u : State} (h : HomeOf s u) (p : Nat) : core u p = core s p := by
  obtain ⟨_, _, _, _, _, rfl⟩ := h
  rfl

theorem homeOf_modNc (s : State) (cd : Nat) (g : Nc → Nc) : HomeOf s (modNc s cd g) := ⟨_, _, _, _, _, rfl⟩

theorem homeOf_setBad (s : State) (cw n : Nat) : HomeOf s (setBad s cw n) := ⟨_, _, _, _, _, rfl⟩

theorem homeOf_withMem (s : State) (m : Memory) : HomeOf s { s with mem := m } := ⟨_, _, _, _, _, rfl⟩

theorem homeOf_tagPulse (s : State) (o : Nat) : HomeOf s (tagPulse s o) := by
  unfold tagPulse
  split
  · exact ⟨_, _, _, _, _, rfl⟩
  · exact .refl s

theorem homeOf_wakePackage (s : State) (pa : Nat) : HomeOf s (wakePackage s pa) := by
  unfold wakePackage
  split
  · exact ⟨_, _, _, _, _, rfl⟩
  · exact .refl s

/-- A change that memory accesses may make, and that leaves the bytes. -/
def Quiet (s u : State) : Prop := HomeOf s u ∧ u.mem = s.mem

theorem Quiet.refl (s : State) : Quiet s s := ⟨.refl s, rfl⟩

theorem Quiet.trans {s t u : State} (h1 : Quiet s t) (h2 : Quiet t u) : Quiet s u := ⟨h1.1.trans h2.1, h2.2.trans h1.2⟩

theorem quiet_foldl {α : Type} {g : State → α → State} (hg : ∀ s x, Quiet s (g s x)) (l : List α) (s : State) : Quiet s (l.foldl g s) := by
  induction l generalizing s with
  | nil => exact .refl s
  | cons x l ih => exact (hg s x).trans (ih _)

theorem quiet_modNc (s : State) (cd : Nat) (g : Nc → Nc) : Quiet s (modNc s cd g) := ⟨homeOf_modNc s cd g, rfl⟩

theorem quiet_setBad (s : State) (cw n : Nat) : Quiet s (setBad s cw n) := ⟨homeOf_setBad s cw n, rfl⟩

theorem quiet_tagPulse (s : State) (o : Nat) : Quiet s (tagPulse s o) := by
  refine ⟨homeOf_tagPulse s o, ?_⟩
  unfold tagPulse
  split <;> rfl

theorem quiet_wakePackage (s : State) (pa : Nat) : Quiet s (wakePackage s pa) := by
  refine ⟨homeOf_wakePackage s pa, ?_⟩
  unfold wakePackage
  split <;> rfl

theorem quiet_wbHealth (s : State) (l : NcLine) : Quiet s (wbHealth s l) := by
  unfold wbHealth
  split
  · exact quiet_foldl (fun s cw => quiet_setBad s cw 0) _ s
  · exact .refl s

theorem quiet_ncDrop (s : State) (cd : Nat) (q : NcLine → Bool) : Quiet s (ncDrop s cd q) := by
  have hwb := quiet_foldl quiet_wbHealth ((ncOf s cd).lines.filter q) s
  exact hwb.trans (quiet_modNc _ cd fun nc => { nc with lines := nc.lines.filter fun l => !q l })

theorem quiet_ncDirty (s : State) (pa : Nat) : Quiet s (ncDirty s pa) := by
  unfold ncDirty
  split
  · exact quiet_modNc ..
  · exact .refl s

/-! ### Near caches without damaged lines -/

theorem cdAt_modCd_same (s : State) (n : Nat) (f : Cd → Cd) : cdAt (modCd s n f) n = f (cdAt s n) := tget_tset_same Cd.reset s.cds n _

theorem ncOf_modNc (s : State) (cd : Nat) (g : Nc → Nc) : ncOf (modNc s cd g) cd = g (ncOf s cd) := by
  rw [ncOf, modNc, cdAt_modCd_same]
  rfl

/-- The line that a class replaces is one of the cache's. -/
theorem ncWay_mem {lines : List NcLine} {set mask w : Nat} {o : NcLine} (h : ncWay lines set mask = (w, some o)) : o ∈ lines := by
  unfold ncWay at h
  extract_lets inSet at h
  split at h
  · cases h
  · split at h
    · rename_i l hl
      cases h
      have hmem := List.mem_of_getLast? hl
      exact (List.mem_filter.1 (List.mem_filter.1 hmem).1).1
    · cases h

/-- Filling a cache whose lines can all be written back loses nothing. -/
theorem quiet_ncInsert {s : State} {cd mask : Nat} {l : NcLine} (hlines : ∀ x ∈ (ncOf s cd).lines, lineLost x = false)
    (hl : lineLost l = false) : Quiet s (ncInsert s cd mask l) := by
  simp only [ncInsert]
  split
  · exact quiet_modNc ..
  · rename_i o ho
    have hmem : o ∈ (ncOf s cd).lines := ncWay_mem (w := (ncWay (ncOf s cd).lines (l.atom % 16384) mask).1) (Prod.ext rfl ho)
    split
    · split
      · rename_i v hv
        have hsound : lineLost v = false := by
          have hin := List.mem_of_getLast? hv
          rcases List.mem_cons.1 (List.mem_filter.1 hin).1 with rfl | hin
          · exact hl
          · rcases List.mem_cons.1 hin with rfl | hin
            · exact hlines o hmem
            · exact hlines v (List.mem_filter.1 hin).1
        rw [hsound]
        exact (quiet_modNc ..).trans (quiet_ncDrop ..)
      · exact quiet_modNc ..
    · exact quiet_modNc ..

/-- A lookup in a cache without damage misses, with nothing changed, or hits. -/
theorem ncLookup_sound {s : State} {pa : Nat} (hsound : ∀ l ∈ (ncOf s (pa >>> 35)).lines, (l.atom = pa / 256 → l.perr = 0) ∧ lineLost l = false)
    (cls : Option Nat) (ls : LS) : ncLookup s pa cls ls = (.miss, s) ∨ ∃ u, ncLookup s pa cls ls = (.hit, u) ∧ Quiet s u := by
  unfold ncLookup
  extract_lets cd
  split
  · exact .inl rfl
  · split
    · exact .inl rfl
    · rename_i l hfind
      have hmem := List.mem_of_find?_eq_some hfind
      have hatom : l.atom = pa / 256 := beq_iff_eq.1 (List.find?_some (p := fun l : NcLine => l.atom == pa / 256) hfind)
      have hperr := (hsound l hmem).1 hatom
      rw [if_neg (Classical.not_not.2 hperr)]
      refine .inr ?_
      extract_lets s'
      split
      · refine ⟨_, rfl, (quiet_modNc ..).trans (quiet_ncInsert (fun x hx => ?_) (hsound l hmem).2)⟩
        rw [ncOf_modNc] at hx
        exact (hsound x (List.mem_filter.1 hx).1).2
      · exact ⟨_, rfl, .refl s⟩
      · exact ⟨_, rfl, (quiet_modNc ..).trans (quiet_modNc ..)⟩

theorem quiet_ncAlloc {s : State} {pa : Nat} (hsound : ∀ l ∈ (ncOf s (pa >>> 35)).lines, lineLost l = false) (cls : Option Nat) :
    Quiet s (ncAlloc s pa cls) := by
  unfold ncAlloc
  extract_lets cd
  split
  · split
    · exact quiet_ncInsert hsound rfl
    · exact .refl s
  · exact .refl s

/-! ### Sound homes -/

/-- Changes that leave paths, caches and codewords keep a home sound. -/
theorem memSound_tagPulse {s : State} {src pa : Nat} (o : Nat) (h : MemSound s src pa) : MemSound (tagPulse s o) src pa := by
  unfold tagPulse
  split <;> exact h

theorem memSound_wakePackage {s : State} {src pa : Nat} (pa' : Nat) (h : MemSound s src pa) : MemSound (wakePackage s pa') src pa := by
  unfold wakePackage
  split <;> exact h

/-- The codewords of a span of one atom are codewords of the atom. -/
theorem codewords_atom {pa len cw : Nat} (hlen : pa % 256 + len ≤ 256) (h : cw ∈ codewords pa len) : cw / 8 = pa / 256 := by
  unfold codewords at h
  split at h
  · exact absurd h List.not_mem_nil
  · obtain ⟨k, hk, rfl⟩ := List.mem_map.1 h
    have hk := List.mem_range.1 hk
    omega

theorem firstBad_none {s : State} {src pa : Nat} {cws : List Nat} (h : MemSound s src pa) (hcws : ∀ cw ∈ cws, cw / 8 = pa / 256) :
    firstBad s cws = none := by
  refine List.find?_eq_none.2 fun cw hcw => ?_
  rw [h.2.2 cw (hcws cw hcw)]
  decide

theorem correctAll_none {s : State} {src pa : Nat} {cws : List Nat} (h : MemSound s src pa) (m : MemCtx) (hcws : ∀ cw ∈ cws, cw / 8 = pa / 256) :
    correctAll s m cws = s := by
  have hnil : (cws.filter fun cw => badAt s (cw * 32) == 1) = [] := by
    refine List.filter_eq_nil_iff.2 fun cw hcw => ?_
    rw [h.2.2 cw (hcws cw hcw)]
    decide
  rw [correctAll, hnil]
  rfl

theorem span_atom {pa cw : Nat} (h : cw ∈ span (pa / 256 * 8) 8) : cw / 8 = pa / 256 := by
  obtain ⟨k, hk, rfl⟩ := List.mem_map.1 h
  have hk := List.mem_range.1 hk
  omega

section Home

variable {s : State} {m : MemCtx} {pa : Nat}

/-- R412: a read at a sound home gives the bytes there. -/
theorem readHome_sound {len : Nat} (h : MemSound s m.src pa) (hlen : pa % 256 + len ≤ 256) :
    ∃ u, readHome s m pa len = (.ok (mgetN s.mem pa len), u) ∧ Quiet s u := by
  have hw := memSound_wakePackage pa h
  have hq := quiet_wakePackage s pa
  simp only [readHome]
  generalize wakePackage s pa = w at *
  obtain ⟨hreach, hlines, hbad⟩ := id hw
  rw [hreach, ← hq.2]
  rcases ncLookup_sound hlines m.cls m.ls with hmiss | ⟨u, hhit, hu⟩
  · simp only [hmiss, firstBad_none hw fun cw => codewords_atom hlen, correctAll_none hw m fun cw => codewords_atom hlen,
      correctAll_none hw m fun cw => span_atom]
    split
    · contradiction
    · split
      · have hn := quiet_ncAlloc (fun l hl => (hlines l hl).2) m.cls
        exact ⟨_, by rw [hn.2], hq.trans hn⟩
      · exact ⟨_, rfl, hq⟩
  · simp only [hhit]
    split
    · contradiction
    · exact ⟨_, by rw [hu.2], hq.trans hu⟩

theorem readAtom_sound {len : Nat} (h : MemSound s m.src pa) (hlen : pa % 256 + len ≤ 256) :
    ∃ u, readAtom s m pa len = (.ok (mgetN s.mem pa len), u) ∧ Quiet s u := by
  obtain ⟨u, hu, hq⟩ := readHome_sound (memSound_tagPulse m.src h) hlen
  have ht := quiet_tagPulse s m.src
  exact ⟨u, by rw [readAtom, hu, ht.2], ht.trans hq⟩

/-- Bytes stored after a quiet change. -/
theorem homeOf_store {t u : State} (h : Quiet t u) (d : List Byte) : HomeOf t { u with mem := msetN u.mem pa d } ∧
    ({ u with mem := msetN u.mem pa d } : State).mem = msetN t.mem pa d :=
  ⟨h.1.trans (homeOf_withMem ..), congrArg (msetN · pa d) h.2⟩

/-- R402, R412: a write at a sound home stores its bytes. -/
theorem writeHome_sound {data : List Byte} (h : MemSound s m.src pa) (hlen : pa % 256 + data.length ≤ 256) :
    ∃ u, writeHome s m pa data = (none, u) ∧ HomeOf s u ∧ u.mem = msetN s.mem pa data := by
  have hw := memSound_wakePackage pa h
  have hq := quiet_wakePackage s pa
  simp only [writeHome]
  generalize wakePackage s pa = w at *
  have hend {u : State} (hu : Quiet w u) : HomeOf s { u with mem := msetN u.mem pa data } ∧ ({ u with mem := msetN u.mem pa data } : State).mem =
      msetN s.mem pa data := homeOf_store (hq.trans hu) data
  obtain ⟨hreach, hlines, hbad⟩ := id hw
  have hpart : ∀ cw ∈ (codewords pa data.length).filter fun cw => !coversCw pa data.length cw, cw / 8 = pa / 256 :=
    fun cw hcw => codewords_atom hlen (List.mem_filter.1 hcw).1
  have hfill : ∀ cw ∈ (span (pa / 256 * 8) 8).filter fun cw => !coversCw pa data.length cw, cw / 8 = pa / 256 :=
    fun cw hcw => span_atom (List.mem_filter.1 hcw).1
  rw [hreach]
  rcases ncLookup_sound hlines m.cls m.ls with hmiss | ⟨u, hhit, hu⟩
  · simp only [hmiss, firstBad_none hw hpart, correctAll_none hw m hpart, correctAll_none hw m hfill]
    split
    · contradiction
    · split
      · exact ⟨_, rfl, hend ((quiet_ncAlloc (fun l hl => (hlines l hl).2) m.cls).trans (quiet_ncDirty ..))⟩
      · exact ⟨_, rfl, hend (quiet_foldl (fun s cw => quiet_setBad s cw 0) _ w)⟩
  · simp only [hhit]
    split
    · contradiction
    · exact ⟨_, rfl, hend (hu.trans (quiet_ncDirty ..))⟩

theorem writeAtom_sound {data : List Byte} (h : MemSound s m.src pa) (hlen : pa % 256 + data.length ≤ 256) :
    ∃ u, writeAtom s m pa data = (none, u) ∧ HomeOf s u ∧ u.mem = msetN s.mem pa data := by
  obtain ⟨u, hu, hhome, hmem⟩ := writeHome_sound (memSound_tagPulse m.src h) hlen
  have ht := quiet_tagPulse s m.src
  exact ⟨u, hu, ht.1.trans hhome, by rw [hmem, ht.2]⟩

/-- R118, R425, R426: an update at a sound home answers the old elements and stores what the adder makes of them. -/
theorem updateHome_sound {op fmt c : Nat} {xs : List Nat} (h : MemSound s m.src pa) (hlen : pa % 256 + opSize fmt * xs.length ≤ 256) :
    let old := elemsOf (opSize fmt) xs.length (mgetN s.mem pa (opSize fmt * xs.length))
    ∃ r u, updateHome s m pa op fmt xs c = (.ok r, u) ∧ r.old = old ∧ HomeOf s u ∧
      u.mem = msetN s.mem pa ((old.zip xs).map fun e => bytesLE (opSize fmt) (adderOp op fmt e.1 e.2 c).v).flatten := by
  intro old
  have hw := memSound_wakePackage pa h
  have hq := quiet_wakePackage s pa
  simp only [updateHome]
  generalize wakePackage s pa = w at *
  obtain ⟨hreach, hlines, hbad⟩ := id hw
  rw [hreach]
  rcases ncLookup_sound hlines none m.ls with hmiss | ⟨u, hhit, hu⟩
  · simp only [hmiss, firstBad_none hw fun cw => codewords_atom hlen, correctAll_none hw m fun cw => codewords_atom hlen]
    split
    · contradiction
    · have hset := hq.trans (quiet_foldl (fun s cw => quiet_setBad s cw 0) (codewords pa (opSize fmt * xs.length)) w)
      refine ⟨_, _, rfl, ?_, (homeOf_store (pa := pa) hset _).1, ?_⟩
      · simp only [hset.2]
        rfl
      · simp only [hset.2, List.map_map]
        rfl
  · simp only [hhit]
    split
    · contradiction
    · have hset := hq.trans (hu.trans (quiet_ncDirty u pa))
      refine ⟨_, _, rfl, ?_, (homeOf_store (pa := pa) hset _).1, ?_⟩
      · simp only [hset.2]
        rfl
      · simp only [hset.2, List.map_map]
        rfl

end Home

end Sys2Proof.Machine

/-! PROOFS. Statements of the Coxel core (chapter 9): what a load reads and where a buffered store goes. -/

namespace Sys2Proof.Machine

/-! ### Lists of bytes -/

theorem mgetN_add (m : Memory) (a k j : Nat) : mgetN m a (k + j) = mgetN m a k ++ mgetN m (a + k) j := by
  induction k generalizing a with
  | zero => simp only [Nat.zero_add, mgetN, List.nil_append, Nat.add_zero]
  | succ k ih => rw [show k + 1 + j = (k + j) + 1 by omega, mgetN, mgetN, ih, List.cons_append, show a + 1 + k = a + (k + 1) by omega]

theorem slice_of_le {bs : List Byte} {off n : Nat} (h : off + n ≤ bs.length) : slice bs off n = (bs.drop off).take n := by
  have hlen : ((bs.drop off).take n).length = n := by
    rw [List.length_take, List.length_drop]
    omega
  rw [slice, hlen, Nat.sub_self, List.replicate_zero, List.append_nil]

/-! ### Halves of a load -/

/-- What is free of buffered stores has every part free of them. -/
theorem unbuffered_part {s : State} {p off n off' n' : Nat} (h : Unbuffered s p (.sram off) n) (hlo : off ≤ off') (hhi : off' + n' ≤ off + n) :
    Unbuffered s p (.sram off') n' := by
  intro x hx
  have hfree := h x hx
  simp only [overlaps, locKey, Bool.and_eq_false_iff] at hfree ⊢
  have hapart := hfree.imp of_decide_eq_false of_decide_eq_false
  exact Or.imp decide_eq_false decide_eq_false (by omega)

theorem find_unbuffered {s : State} {p n : Nat} {l : Loc} (h : Unbuffered s p l n) :
    ((core s p).sb.reverse.find? fun e => overlaps (sbKey e) e.data.length (locKey l) n) = none :=
  List.find?_eq_none.2 fun x hx => Bool.not_eq_true _ ▸ h x (List.mem_reverse.1 hx)

/-- A half in the core-local SRAM reads the bytes there. -/
theorem readHalf_sram {s : State} {p off n : Nat} (va : Nat) (h2 : Bool) (h : Unbuffered s p (.sram off) n) :
    readHalf s p (.sram off) n va h2 = (.ok (mgetN (core s p).localSram off n), s) := by
  simp only [readHalf, find_unbuffered h, readHalf.rd]

theorem place_sram {s : State} {p va n access cls : Nat} (h2 : Bool) (hu : (core s p).user = false) (hva : sramBase ≤ va) :
    place s p va n access cls h2 = (.ok (.sram (va - sramBase)), s) := by
  simp only [place, hva, if_true, hu, Bool.false_eq_true, if_false]

/-- Halves in the core-local SRAM, with no buffered store in the way. -/
theorem loadHalves_sram {s : State} {p : Nat} (hu : (core s p).user = false) {access cls : Nat} {nx : Bool} :
    ∀ (hs : List (Nat × Nat)) (h2 : Bool), (∀ x ∈ hs, sramBase ≤ x.1 ∧ Unbuffered s p (.sram (x.1 - sramBase)) x.2) →
      placeAll s p access cls nx hs h2 = (.ok (hs.map fun x => (.sram (x.1 - sramBase), x.2)), s) ∧
      readHalves s p nx (hs.map fun x => (.sram (x.1 - sramBase), x.2)) hs h2 =
        (.ok (hs.map fun x => mgetN (core s p).localSram (x.1 - sramBase) x.2).flatten, s)
  | [], _, _ => ⟨rfl, rfl⟩
  | (va, n) :: hs, h2, h => by
    obtain ⟨hva, hfree⟩ := h (va, n) List.mem_cons_self
    obtain ⟨hplace, hread⟩ := loadHalves_sram hu (access := access) (cls := cls) (nx := nx) hs nx fun x hx => h x (List.mem_cons_of_mem _ hx)
    constructor
    · simp only [placeAll, place_sram h2 hu hva, hplace, List.map_cons]
    · simp only [List.map_cons, readHalves, readHalf_sram va h2 hfree, hread, List.flatten_cons]

/-- R313: a load of the core-local SRAM reads the bytes there, lowest first. -/
theorem loadData_sram {f : State} {p va n : Nat} (hu : (core f p).user = false) (hva : sramBase ≤ va) (hend : va + n ≤ 2 ^ 48) (hn : 0 < n)
    (hn8 : n ≤ 8) (hfree : Unbuffered f p (.sram (va - sramBase)) n) :
    loadData f p va n = (.ok (natLE (mgetN (core f p).localSram (va - sramBase) n)), f) := by
  have hhalves : (∀ x ∈ halves va n, sramBase ≤ x.1 ∧ Unbuffered f p (.sram (x.1 - sramBase)) x.2) ∧
      ((halves va n).map fun x => mgetN (core f p).localSram (x.1 - sramBase) x.2).flatten = mgetN (core f p).localSram (va - sramBase) n := by
    rw [halves_eq]
    split
    · refine ⟨fun x hx => ?_, ?_⟩
      · obtain rfl := List.mem_singleton.1 hx
        exact ⟨hva, hfree⟩
      · simp only [List.map_cons, List.map_nil, List.flatten_cons, List.flatten_nil, List.append_nil]
    · refine ⟨fun x hx => ?_, ?_⟩
      · rcases List.mem_cons.1 hx with rfl | hx
        · exact ⟨hva, unbuffered_part hfree (Nat.le_refl _) (by dsimp only; omega)⟩
        · obtain rfl := List.mem_singleton.1 hx
          exact ⟨by dsimp only; omega, unbuffered_part hfree (by dsimp only; omega) (by dsimp only; omega)⟩
      · simp only [List.map_cons, List.map_nil, List.flatten_cons, List.flatten_nil, List.append_nil]
        rw [show va - va % 8 + 8 - sramBase = va - sramBase + (8 - va % 8) by omega, ← mgetN_add]
        congr 1
        omega
  obtain ⟨hparts, hbytes⟩ := hhalves
  obtain ⟨hplace, hread⟩ := loadHalves_sram hu (access := 1) (cls := 0) (nx := true) (halves va n) false hparts
  simp only [loadData, badHalf_halves hn hend, hplace, hread, hbytes]

/-- A load within one aligned doubleword has one half, at the place that its translation gives. -/
theorem loadData_half {f g : State} {p va n pa : Nat} (hva : va < sramBase) (hone : va % 8 + n ≤ 8) (hn : 0 < n)
    (ht : translate f (dReq f p va 1 0 (core f p).user) = (.ok pa, g)) :
    loadData f p va n = match readHalf g p (.mem pa) n va false with
      | (.error e, s) => (.error e, s)
      | (.ok d, s) => (.ok (natLE d), s) := by
  have hsram : sramBase + 8 ≤ 2 ^ 48 := by decide
  have hplace : place f p va n 1 0 false = (.ok (.mem pa), g) := place_ok hva rfl ht
  have hhalves : halves va n = [(va, n)] := if_pos hone
  have hbad : badHalf [(va, n)] = none := hhalves ▸ badHalf_halves hn (show va + n ≤ 2 ^ 48 by omega)
  simp only [loadData, hhalves, hbad, placeAll, hplace, readHalves]
  rcases readHalf g p (.mem pa) n va false with ⟨e | d, u⟩
  · rfl
  · simp only [List.append_nil]

/-- Settles O21: the halves in the core-local SRAM, the one half that a sound home answers, and the one that a buffered store holds. -/
theorem loadSources : Obligations.LoadSources := by
  refine ⟨fun f p va n hu hva hend hn hfree => ?_, fun f g p va n pa hva hone hn hpa ht hfree hdce hask hsound => ?_,
    fun f g p va n pa x hva hone hn ht hlast hlocal hlo hhi => ?_⟩
  · have hsize : 0 < n ∧ n ≤ 8 := by
      simp only [List.mem_cons, List.not_mem_nil, or_false] at hn
      omega
    exact loadData_sram hu hva hend hsize.1 hsize.2 hfree
  · obtain ⟨u, hread, hquiet⟩ := readAtom_sound (m := coreCtx g p 0 (.core p)) (len := n) hsound (by omega)
    have hhalf : readHalf g p (.mem pa) n va false = (.ok (mgetN g.mem pa n), u) := by
      simp only [readHalf, find_unbuffered hfree, readHalf.rd, hdce, hask, readLine, hread, Bool.false_and, Bool.false_eq_true, if_false]
    exact ⟨u, by rw [loadData_half hva hone hn ht, hhalf], hquiet.2⟩
  · have hkey : sbKey x = x.pa := by simp only [sbKey, hlocal, Bool.false_eq_true, if_false]
    have hover : overlaps (sbKey x) x.data.length (locKey (.mem pa)) n = true := by
      rw [hkey, overlaps, locKey, decide_eq_true (by omega), decide_eq_true (by omega)]
      rfl
    have hfind : ((core g p).sb.reverse.find? fun e => overlaps (sbKey e) e.data.length (locKey (.mem pa)) n) = some x := by
      obtain ⟨ys, hys⟩ := List.getLast?_eq_some_iff.1 hlast
      rw [hys, List.reverse_append, List.reverse_singleton, List.singleton_append, List.find?_cons, hover]
    have hwhole : (decide (sbKey x ≤ locKey (.mem pa)) && decide (locKey (.mem pa) + n ≤ sbKey x + x.data.length)) = true := by
      rw [hkey, decide_eq_true (show x.pa ≤ locKey (.mem pa) from hlo), decide_eq_true (show locKey (.mem pa) + n ≤ _ from hhi)]
      rfl
    have hhalf : readHalf g p (.mem pa) n va false = (.ok ((x.data.drop (pa - x.pa)).take n), g) := by
      simp only [readHalf, hfind, hwhole, if_true]
      rw [hkey, show locKey (.mem pa) = pa from rfl, slice_of_le (by omega)]
    rw [loadData_half hva hone hn ht, hhalf]

/-! ### The store buffer -/

/-- A change of the core alone, which leaves its line. -/
theorem coreIs_leaveLine_self {f u : State} {p : Nat} (h : OnlyCore f u p) : CoreIs f (leaveLine u p) p (core u p) := by
  refine ⟨?_, h.2, rfl⟩
  rw [h.1]
  rfl

/-- A drain of the core's stores that may begin. -/
theorem exec_storeBufferDrain {s : State} {p : Nat} (hname : named s p = true) (hmay : mayDrain s p 1 = none) :
    exec (.storeBufferDrain p) s = .next (settle (leaveLine (drainOne s p) p)) := by
  have hgate : (named s p && (mayDrain s p 1).isNone) = true := by rw [hname, hmay]; rfl
  exact congrArg done (if_pos hgate)

/-- Settles O23: the oldest entry leaves the buffer, and its home stores it. -/
theorem storeDrains : Obligations.StoreDrains := by
  intro s p x rest hname hsb
  have hone : (core s p).sb.take 1 = [x] := by rw [hsb]; rfl
  refine ⟨fun hlocal => ?_, fun hlocal hmay himage hsound hpa => ?_⟩
  · have hmay : mayDrain s p 1 = none := by
      rw [mayDrain, hone, List.filter_cons_of_neg (by rw [hlocal]; decide)]
      rfl
    have hdrain : drainOne s p = modCore (modCore s p fun c => { c with sb := rest }) p fun c =>
        { c with localSram := msetN c.localSram x.pa x.data } := by
      simp only [drainOne, hsb, hlocal, Bool.not_true, Bool.false_and, Bool.false_eq_true, if_false, if_true, coreWrite]
    have hcore := coreIs_leaveLine_self (onlyCore_modCore (onlyCore_modCore (.refl s p) fun c => { c with sb := rest }) fun c =>
      { c with localSram := msetN c.localSram x.pa x.data })
    simp only [core_modCore] at hcore
    exact ⟨_, exec_storeBufferDrain hname hmay, hdrain ▸ hcore⟩
  · generalize hu : (modCore (modCore s p fun c => { c with sb := rest }) p fun c => dcUpdate c x.pa x.data) = t
    have hmem : t.mem = s.mem := hu ▸ rfl
    have hrest : (core t p).sb = rest := by
      rw [← hu, core_modCore, core_modCore]
      rfl
    have hlen : x.pa % 256 + x.data.length ≤ 256 := by omega
    have hsound' : MemSound t (coreCtx t p 0 (.core p)).src x.pa := by
      rw [← hu]
      exact hsound
    obtain ⟨u, hwrite, hhome, hdata⟩ := writeAtom_sound (m := coreCtx t p 0 (.core p)) (data := x.data) hsound' hlen
    have hdrain : drainOne s p = u := by
      have himage' : imageHit (modCore s p fun c => { c with sb := rest }) [(x.pa, x.data.length)] = false := himage
      simp only [drainOne, hsb, hlocal, himage', Bool.not_false, Bool.and_false, Bool.false_eq_true, if_false, coreWrite, hu, hwrite]
    refine ⟨leaveLine (drainOne s p) p, exec_storeBufferDrain hname hmay, ?_, ?_⟩
    · rw [hdrain]
      exact (congrArg Core.sb (hhome.core_eq p)).trans hrest
    · rw [hdrain]
      exact hdata.trans (by rw [hmem])

end Sys2Proof.Machine

/-! PROOFS. The ring commands of the sequencer and of the core (O7): each command's own effect once its header passes. -/

namespace Sys2Proof.Machine

/-! ### A command that answers at once -/

/-- A command that answers at once completes with its answer, given what its effect is. -/
theorem done_quickCmd {s t : State} {h : CmdHdr} {sc : CmdScope} {opc : Nat} {f : State → Cpl × State} {x : Cpl}
    (k : CmdReady s h sc opc) (hf : f s = (x, t)) : done (quickCmd sc opc h f s) = .next (settle (complete t h opc x)) := by
  rw [quickCmd_ready k, hf]; rfl

/-! ### STATE of the members of a polder -/

/-- STATE as `setMembers` leaves it on one CD. -/
def stateSet (v : Nat) (c : Cd) : Cd := { c with state := if c.state = 3 then 3 else v }

theorem cdAt_modCd_ne (s : State) {n m : Nat} (f : Cd → Cd) (h : n ≠ m) : cdAt (modCd s m f) n = cdAt s n :=
  tget_tset_ne Cd.reset s.cds m n _ h

theorem cdAt_foldl_stateSet_state (v n : Nat) (l : List Nat) (s : State) :
    (cdAt (l.foldl (fun s cd => modCd s cd (stateSet v)) s) n).state = if n ∈ l ∧ (cdAt s n).state ≠ 3 then v else (cdAt s n).state := by
  induction l generalizing s with
  | nil => simp
  | cons cd l ih =>
    rw [List.foldl_cons, ih]
    by_cases hn : n = cd
    · subst hn
      rw [cdAt_modCd_same]
      by_cases h3 : (cdAt s n).state = 3 <;> simp [stateSet, h3]
    · simp [cdAt_modCd_ne s _ hn, hn]

/-- The members of a polder that are in service take STATE `v`, and no other CD changes it (R39, R40). -/
theorem cdAt_setMembers_state (s : State) (p v n : Nat) :
    (cdAt (setMembers s p v) n).state = if n ∈ members s p ∧ (cdAt s n).state ≠ 3 then v else (cdAt s n).state :=
  cdAt_foldl_stateSet_state v n (members s p) s

/-- An update of a polder that keeps its image section keeps its members. -/
theorem members_modPolder {s : State} {p : Nat} {f : Polder → Polder} (hf : (f (polder s p)).sec = (polder s p).sec) :
    members (modPolder s p f) p = members s p := by
  have hm : polder (modPolder s p f) p = f (polder s p) := tget_tset_same Polder.reset s.polders p _
  rw [members, hm, hf, members]

/-! ### The sequencer's commands -/

theorem startInv_ok {s : State} {p slot cookie : Nat} {pb : Option Nat} {rc : Recipe} (h16 : slot < 16)
    (hrc : tfind (polder s p).slots slot = some rc) (hb : s.phiro.busy = false) (hq : (polder s p).quies = [])
    (ha : admitting (polder s p) slot = false) (hf : (polder s p).frzQueue = []) (hp : (polder s p).pend.length < 16)
    (hpb : pbOk rc (pb.getD rc.pbVa) = true) :
    startInv s p slot pb true cookie =
      (stOk, setMembers (modPolder s p fun po => { po with pend := po.pend ++ [{ slot := slot, pb := pb.getD rc.pbVa, host := true, cookie := cookie }] }) p 2) := by
  simp only [startInv, hrc, hb, hq, ha, hf, hpb, Nat.not_le.mpr h16, Nat.not_le.mpr hp, List.isEmpty_nil, Bool.not_true, Bool.or_false, if_false,
    Bool.false_eq_true, if_true, modPolder]

theorem sluiceCtl_ok {s : State} {p n : Nat} (hn : n < (polder s p).sec.sluices) (hi : (internalNow s p).contains n = false) (v : Bool) :
    sluiceCtl s p n v =
      (stOk, if v then modPolder s p fun po => { po with sluices := tset false po.sluices n true } else clearSluice s p n) := by
  simp only [sluiceCtl, Nat.not_le.mpr hn, hi, if_false, Bool.false_eq_true]

theorem withdrawSlot_ok {s : State} {p k : Nat} (h16 : k < 16) (hk : (tfind (polder s p).slots k).isSome = true)
    (hu : slotInUse (polder s p) k = false) :
    withdrawSlot s p k =
      (stOk, setInt (modPolder s p fun po => { po with slots := tdel po.slots k, rcp := { RcpStatus.reset with code := 0x30 } }) p 4) := by
  have hn : (tfind (polder s p).slots k).isNone = false := by rw [← Option.not_isSome, hk]; rfl
  simp only [withdrawSlot, Nat.not_le.mpr h16, hn, hu, if_false, Bool.false_eq_true, if_true, modPolder, stOk]

theorem ttPut_ok {s : State} {p n : Nat} (e : TensorEntry) (hn : n < (polder s p).sec.ttEntries)
    (hl : ∀ r ∈ (polder s p).slots, n ∉ r.2.locked) :
    ttPut s p n e = (stOk, modPolder s p fun po => { po with tt := tset ttEmpty po.tt n e }) := by
  have ha : ((polder s p).slots.any fun r => r.2.locked.contains n) = false := by simpa using fun a b => hl (a, b)
  simp only [ttPut, Nat.not_le.mpr hn, ha, if_false, Bool.false_eq_true, modPolder]

theorem admitHost_ok {s : State} {h : CmdHdr} (slot va : Nat) (k : CmdReady s h .polder opAdmit) (ha : (polder s h.pol).adm = none)
    (hb : s.phiro.busy = false) :
    admitHost h slot va s =
      begin_ (modPolder s h.pol fun po => { po with adm := some { cmd := some h, slot := slot, va := va } }) h opAdmit := by
  have hr : adRequest s h.pol (some h) slot va =
      (true, modPolder s h.pol fun po => { po with adm := some { cmd := some h, slot := slot, va := va } }) := by
    simp only [adRequest, ha, hb, Option.isSome_none, Bool.or_self, Bool.false_eq_true, if_false, modPolder]
  rw [admitHost, hostCmd_ready k]
  simp only [hr]

/-! ### The core's commands -/

theorem setInt_eq {s : State} {p : Nat} (hn : named s p = true) (n : Nat) :
    setInt s p n = modCore s p fun c => { c with intPend := setBitV c.intPend n } := if_pos hn

/-- MASTER 0 of a polder's header is its lead core (Table 11-16). -/
theorem masterNamed_core {h : CmdHdr} (hp : h.pol < 24) : masterNamed h 0 = .core := by
  have : h.pol ≠ 0xFF := by omega
  simp [masterNamed, this]

/-- UNFREEZE of a frozen core without transactions in flight releases it, under the actions that Table 11-15 lists. -/
theorem done_unfreeze_core {s : State} {h : CmdHdr} {f : FreezeInfo} {act : Nat} (hp : h.pol < 24) (k : CmdReady s h .either 0x40)
    (hf : (polder s h.pol).frzCore = some f) (ht : coreTags s h.pol = false) (ha : act = 2 ∨ (act ≤ 1 ∧ f.vcode ≠ 8)) :
    done (unfreeze h 0 act s) = .next (settle (complete (releaseMaster s h.pol act .core) h 0x40 { status := 0x60 })) := by
  have hok : actionOk s h.pol act .core = true := by
    rw [actionOk, hf, Option.any_some, Bool.or_eq_true, Bool.and_eq_true, decide_eq_true_iff, decide_eq_true_iff]
    exact ha.imp_right fun h => ⟨h.1, decide_eq_true h.2⟩
  refine done_quickCmd k ?_
  simp only [masterNamed_core hp, isFrozen, hf, hok, masterBusy, ht, Option.isSome_some, Bool.not_true, Bool.false_eq_true, if_false, fzOk]

theorem releaseMaster_deliver {s : State} {p : Nat} {f : FreezeInfo} (hf : (polder s p).frzCore = some f) :
    releaseMaster s p 1 .core = enter (modPolder s p fun po => { po with frzCore := none }) p
      { cause := 6, epc := f.pc, addr := f.addr, inst := f.inst, code := f.vcode % 32, half2 := f.half2, word := f.inst } := by
  simp only [releaseMaster, deliverCore, hf, Nat.one_ne_zero, if_false, if_true, cViol]

theorem done_coreStart {s : State} {h : CmdHdr} {a : Nat} (k : CmdReady s h .polder 0x42) (hs : (core s h.pol).started = false)
    (h4 : a % 4 = 0) (ha : a < 2 ^ 48) :
    done (coreStart h a s) = .next (settle (complete
      (modCore s h.pol fun c => { c with started := true, pc := a, starts := c.starts + 1, mCoxel := sha256 (mgetN c.entrySram 0 16384 ++ bytesLE 8 a) })
      h 0x42 { status := 0x80 })) := by
  have hr : (decide (a % 4 ≠ 0) || decide (2 ^ 48 ≤ a)) = false := by
    rw [decide_eq_false (Nat.not_le.mpr ha), h4]; rfl
  refine done_quickCmd k ?_
  simp only [hs, hr, Bool.false_eq_true, if_false, cmOk, modCore]

/-! ### The fields of a polder -/

theorem done_bsFieldWrite {s t : State} {h : CmdHdr} {off : Nat} {v : Word} (k : CmdReady s h .polder 0x12) (hb : s.phiro.busy = false)
    (hw : fieldWrite s h.pol off v.toNat = (0, t)) :
    done (bsFieldWrite h off v s) = .next (settle (complete t h 0x12 { status := 0 })) := by
  refine done_quickCmd k ?_
  simp only [hb, hw, Bool.false_eq_true, if_false, bsOk, if_true]

theorem done_bsFieldRead {s : State} {h : CmdHdr} {off x : Nat} {sh : Bool} (k : CmdReady s h .polder 0x12)
    (hr : fieldRead s h.pol off sh = (0, x)) :
    done (bsFieldRead h off sh s) = .next (settle (complete s h 0x12 { status := 0, result := bytesLE 8 x })) := by
  refine done_quickCmd k ?_
  simp only [hr, bsOk, if_true]

/-- Settles O7: each command's own rule, once `CmdReady` takes its header away. -/
theorem hostCommandResults : Obligations.HostCommandResults := by
  unfold Obligations.HostCommandResults
  intro s h hp p po
  refine ⟨?start, ?sluice, ?withdraw, ?ttWrite, ?resume, ?admitHost, ?quiesce, ?fieldWrite, ?fieldRead, ?coreStart, ?breach, ?coreInt, ?unfreeze⟩
  case start =>
    intro slot pb rc k h16 hrc hb hq ha hf hl hpb u
    exact ⟨done_quickCmd k (by rw [startInv_ok h16 hrc hb hq ha hf hl hpb]; rfl),
      fun n => (cdAt_setMembers_state u p 2 n).trans (by rw [show members u p = members s p from members_modPolder rfl]; rfl)⟩
  case sluice =>
    intro n k hn hi
    exact ⟨done_quickCmd k (by rw [sluiceCtl_ok hn hi]; rfl), done_quickCmd k (by rw [sluiceCtl_ok hn hi]; rfl)⟩
  case withdraw => exact fun slot k h16 hk hu => done_quickCmd k (by rw [withdrawSlot_ok h16 hk hu]; rfl)
  case ttWrite => exact fun n w0 w1 w2 w3 k hn hl => done_quickCmd k (by rw [ttPut_ok _ hn hl]; rfl)
  case resume => exact fun k => done_quickCmd k rfl
  case admitHost => exact fun slot va k ha hb => congrArg done (admitHost_ok slot va k ha hb)
  case quiesce => exact fun k => ⟨congrArg done (hostCmd_ready k _), congrArg done (hostCmd_ready k _)⟩
  case fieldWrite => exact fun off v t k hb hw => done_bsFieldWrite k hb hw
  case fieldRead => exact fun off x sh k hr => done_bsFieldRead k hr
  case coreStart => exact fun a k hs h4 ha => done_coreStart k hs h4 ha
  case breach => exact fun k => done_quickCmd k rfl
  case coreInt => exact fun k => done_quickCmd k (by rw [setInt_eq (k.2.2.2 hp)]; rfl)
  case unfreeze =>
    intro f k hf ht
    refine ⟨fun h8 => ⟨done_unfreeze_core hp k hf ht (.inr ⟨by decide, h8⟩), ?_⟩, done_unfreeze_core hp k hf ht (.inl rfl)⟩
    exact (done_unfreeze_core hp k hf ht (.inr ⟨by decide, h8⟩)).trans (by rw [releaseMaster_deliver hf])

end Sys2Proof.Machine

/-! PROOFS. The ring commands of the device, UPDATE and translation (O8): each command's own effect once its header passes. -/

namespace Sys2Proof.Machine

/-! ### Loading and read-back -/

theorem bsLoad_read {s t u : State} {h : CmdHdr} {pa len st d : Nat} {b : List Byte} (k : CmdReady s h .device opBsLoad)
    (hb : s.phiro.busy = false) (h8 : pa % 8 = 0) (hl : len ≤ 65536) (hr : devRead s (lsCmd s h) pa len = (some b, t))
    (hi : loadImage t b = (st, d, u)) (hz : ∀ m, checkImage t b = .ok m → loadZeroes t m = false) :
    bsLoad h pa len s = complete u h opBsLoad { status := st, detail := d } := by
  rw [bsLoad, hostCmd_ready k]
  cases hc : checkImage t b with
  | error e => simp [hb, h8, hl, hr, hc, hi]
  | ok m => simp [hb, h8, hl, hr, hc, hi, hz m hc]

theorem zeroingDone_loading {s : State} {h : CmdHdr} (hl : s.phiro.loading = some h) :
    zeroingDone s = complete { s with phiro := { s.phiro with busy := false, loading := none, affects := [] } } h opBsLoad { status := 0 } := by
  simp only [zeroingDone, hl, bsOk]

theorem execLoadZeroingDone_idle {s : State} {h : CmdHdr} (hl : s.phiro.loading = some h) (hw : s.power.rstWait = []) :
    execLoadZeroingDone s = done (complete { s with phiro := { s.phiro with busy := false, loading := none, affects := [] } } h opBsLoad { status := 0 }) := by
  simp only [execLoadZeroingDone, hl, Option.isSome_some, if_true, zeroingDone_loading hl]
  congr 1
  simp only [complete, modRing]
  rw [hw]
  simp only [List.foldl_nil]
  rw [← hw]

theorem bsReadback_can {s : State} {h : CmdHdr} {hb off : Nat} (k : CmdReady s h .device 0x11) (hl : s.phiro.loaded = true)
    (hv : (hbuf s hb).valid = true) (hne : readbackImage s ≠ []) (hf : off + (readbackImage s).length ≤ (hbuf s hb).len)
    (hc : bufCan s hb = true) :
    bsReadback h hb off s = complete (hostWrite s hb off (readbackImage s) (lsCmd s h) (.ring h.ring)) h 0x11
      { status := 0, detail := (readbackImage s).length } := by
  rw [bsReadback, hostCmd_ready k]
  simp only [hl, Bool.not_true, Bool.false_eq_true, if_false]
  exact bufCmd_can hv hf hne hc

/-! ### The binding -/

theorem unbindCmd_idle {s : State} {h : CmdHdr} (k : CmdReady s h .device 0x50)
    (hr : ∀ p, p < 24 → named s p = true → polderRuns s p = false) :
    unbindCmd h s = endBinding (cplDeliver (complete s h 0x50 { status := 0x80 }) h.ring) := by
  have ha : (polderNums.any fun p => named s p && polderRuns s p) = false := by
    rw [List.any_eq_false]
    intro p hp
    rw [Bool.and_eq_true]
    exact fun hx => Bool.false_ne_true ((hr p (List.mem_range.mp hp) hx.1).symm.trans hx.2)
  rw [unbindCmd, hostCmd_ready k]
  simp only [ha, Bool.false_eq_true, if_false, completeSt, cmOk]

/-! ### UPDATE by a physical address -/

theorem updPlaceCmd_phys {s : State} {h : CmdHdr} {pa : Nat} (hp : h.pol = 0xFF) (ho : physOpen s pa 1 = true) :
    updPlaceCmd s h pa = (some pa, s) := by
  rw [updPlaceCmd, if_pos hp, if_pos ho]

theorem updateCmd_phys {s t : State} {h : CmdHdr} {pa op fmt : Nat} {x c : Word} {r : UpdRes} (k : CmdReady s h .either 0x30) (hp : h.pol = 0xFF)
    (hv : opValid op fmt = true) (hal : pa % opSize fmt = 0) (hpa : pa < 2 ^ 48) (ho : physOpen s pa 1 = true)
    (hi : imageHit s [(pa, opSize fmt)] = false) (ht : tagFor s 24 (.ring h.ring) = true)
    (hu : updateAtom (dropWaiter s 24 (· == .ring h.ring)) { src := 24, ls := lsCmd s h, cls := none, p := 0xFF, req := .ring h.ring } pa op fmt
      [x.toNat % 2 ^ (8 * opSize fmt)] (c.toNat % 2 ^ (8 * opSize fmt)) = (.ok r, t)) :
    updateCmd h pa op fmt x c s = complete t h 0x30
      { status := 0x80, result := (if op = 3 ∨ op = 4 then bytesLE 8 (r.old.headD 0) else bytesLE 8 0) ++ bytesLE 1 r.fl } := by
  have hl : lsCmd (dropWaiter s 24 (· == .ring h.ring)) h = lsCmd s h := rfl
  rw [updateCmd, hostCmd_ready k]
  simp only [hv, hal, Nat.not_le.mpr hpa, updPlaceCmd_phys hp ho, hi, ht, hp, hl, hu, Bool.not_true, ne_eq, not_true_eq_false, decide_false,
    Bool.or_self, Bool.false_eq_true, if_false, cmOk, Bool.or_eq_true, decide_eq_true_eq]

/-! ### Translation -/

theorem xltInv_applied {s : State} {h : CmdHdr} {v : InvScope} {gen : Nat} {force : Bool} (k : CmdReady s h .polder opXltInv) (hv : v.bad = false)
    (hg : force = true ∨ gen % 2 ^ 32 = ((polder s h.pol).xltGen + 1) % 2 ^ 32) :
    xltInv h v force gen s =
      let t := dropWalks (dropXlat (begin_ (modPolder s h.pol fun po => { po with xltGen := gen % 2 ^ 32 }) h opXltInv) h.pol v.covers) h.pol
      let l := tget [] t.xlat.invals h.pol ++ [{ cmd := h, held := v.holds (polder s h.pol) }]
      { t with xlat := { t.xlat with invals := tset [] t.xlat.invals h.pol l } } := by
  have hc : (!force && decide (gen % 2 ^ 32 ≠ ((polder s h.pol).xltGen + 1) % 2 ^ 32)) = false := by
    rcases hg with hf | hg
    · rw [hf]; rfl
    · rw [decide_eq_false (Classical.not_not.mpr hg), Bool.and_false]
  rw [xltInv, hostCmd_ready k]
  simp only [hv, hc, Bool.false_eq_true, if_false, modPolder]

/-- SCOPE 0 and 1 are never out of range (R454). -/
theorem invScope_ok {scope asid va len : Nat} (h : scope < 2) : ({ scope := scope, asid := asid, va := va, len := len } : InvScope).bad = false := by
  have h1 : ¬ 2 < scope := by omega
  have h2 : scope ≠ 2 := by omega
  simp [InvScope.bad, h1, h2]

theorem xltInvComplete_drained {s : State} {p : Nat} {v : Inval} {rest : List Inval} (hl : tget [] s.xlat.invals p = v :: rest)
    (ht : polderTags s p = false) (hd : mayDrain s p 8 = none) :
    xltInvComplete s p =
      let u := if named s p then drainAll s p else s
      complete { u with xlat := { u.xlat with invals := tset [] u.xlat.invals p rest } } v.cmd 0x38 { status := 0x70, flags := if v.held then 2 else 0 } := by
  have hf : 2 * b2n v.held = if v.held then 2 else 0 := by cases v.held <;> rfl
  simp only [xltInvComplete, hl, ht, hd, hf, Option.isSome_none, Bool.or_self, Bool.false_eq_true, if_false, opXltInv, xlOk]

/-- A fault on which nothing waits only closes. -/
theorem endFault_unwaited {s : State} {p : Nat} {f : NpFault} {serve : State → List XlatReq → State} (hw : f.waiters = [])
    (hq : (polder s p).vqueue = []) (hs : ∀ u, serve u [] = u) : endFault s p f serve = closeFault s f := by
  have hq' : (polder (closeFault s f) p).vqueue = [] := hq
  have hd : faultDescs f = [] := by rw [faultDescs, hw]; rfl
  simp only [endFault, hw, hd, List.any_nil, Bool.false_eq_true, if_false, Bool.false_and, hs, List.foldl_nil, vqGo, hq', List.length_nil, vqRun]

theorem xltResume_unwaited {s : State} {p fid : Nat} {f : NpFault} (hf : faultOf s p fid = some f) (hw : f.waiters = [])
    (hq : (polder s p).vqueue = []) :
    xltResume s p fid = (xlOk, closeFault s f) ∧ xltResumeFail s p fid = (xlOk, closeFault s f) := by
  constructor
  · simp only [xltResume, hf]
    rw [endFault_unwaited hw hq fun u => rfl]
  · simp only [xltResumeFail, hf]
    rw [endFault_unwaited hw hq fun u => rfl]

theorem xltResume_stale {s : State} {p fid : Nat} (hf : faultOf s p fid = none) :
    xltResume s p fid = (xlStale, s) ∧ xltResumeFail s p fid = (xlStale, s) := by
  simp only [xltResume, xltResumeFail, hf, and_self]

/-- XLT_RESUME completes with what the resume answers, with FAIL or without. -/
theorem done_xltResumeCmd {s t : State} {h : CmdHdr} {fid st : Nat} {fail : Bool} (k : CmdReady s h .polder 0x39)
    (hr : (if fail then xltResumeFail s h.pol fid else xltResume s h.pol fid) = (st, t)) :
    done (xltResumeCmd h fid fail s) = .next (settle (complete t h 0x39 { status := st })) := by
  refine done_quickCmd k ?_
  simp only [hr]

/-! ### Commands that are undefined -/

theorem undefinedCmd_violates {s : State} {h : CmdHdr} {opc : Nat} {rsv : Bool} (hr : ringReady s h.ring = true)
    (hd : opcDefined opc = false ∨ rsv = true) :
    undefinedCmd h opc rsv s = violateRing s h opc (if opcDefined opc then 2 else 1) := by
  cases ho : opcDefined opc with
  | false => simp [undefinedCmd, hr, ho]
  | true => simp [undefinedCmd, hr, ho, hd.resolve_left (by simp [ho])]

/-- Settles O8: each command's own rule, once `CmdReady` takes its header away. -/
theorem deviceCommandResults : Obligations.DeviceCommandResults := by
  unfold Obligations.DeviceCommandResults
  intro s h
  refine ⟨?nop, ?regw, ?load, ?zeroed, ?readback, ?unbind, ?update, ?inv, ?invEnd, ?resume, ?stale, ?undef⟩
  case nop => exact fun k => done_quickCmd k rfl
  case regw => exact fun off st v t k hw => done_quickCmd k (by simp only [hw, noteAsk])
  case load => exact fun pa len st d b t u k hb h8 hl hr hi hz => congrArg done (bsLoad_read k hb h8 hl hr hi hz)
  case zeroed => exact fun h' hl hw => execLoadZeroingDone_idle hl hw
  case readback => exact fun hb off k hl hv hne hf hc => congrArg done (bsReadback_can k hl hv hne hf hc)
  case unbind => exact fun k hr => congrArg done (unbindCmd_idle k hr)
  case update => exact fun pa op fmt x c r t k hp hv hal hpa ho hi ht hu => congrArg done (updateCmd_phys k hp hv hal hpa ho hi ht hu)
  case inv => exact fun asid va len scope gen force k h2 hg => congrArg done (xltInv_applied k (invScope_ok h2) hg)
  case invEnd => exact fun p v rest hl ht hd => congrArg done (xltInvComplete_drained hl ht hd)
  case resume =>
    intro fid f k hf hw hq
    obtain ⟨hr, hr'⟩ := xltResume_unwaited hf hw hq
    exact ⟨done_xltResumeCmd (fail := false) k hr, done_xltResumeCmd (fail := true) k hr'⟩
  case stale =>
    intro fid k hf
    obtain ⟨hr, hr'⟩ := xltResume_stale hf
    exact ⟨done_xltResumeCmd (fail := false) k hr, done_xltResumeCmd (fail := true) k hr'⟩
  case undef => exact fun opc rsv hr hd => congrArg done (undefinedCmd_violates hr hd)

end Sys2Proof.Machine

/-! PROOFS. The management commands and the ends of what they begin (O9). -/

namespace Sys2Proof.Machine

/-! ### Writes of MRAM areas -/

/-- A write of an area that is sound succeeds and spends no spare (R560). -/
theorem nvWrite_sound {s : State} {area : Nat} (h : s.reeve.nvBad.contains area = false) : nvWrite s area false = (true, s) := by
  simp only [nvWrite, h, Bool.or_self, Bool.not_false, if_true]

/-! ### Settings -/

theorem setWrite_staged {s : State} {h : CmdHdr} {ty : Nat} {v d : List Byte} (k : MgmtReady s h 0x61) (hd : setValue ty v = some d) :
    setWrite h ty v s = complete
      { s with reeve := if ty = 1 then { s.reeve with stagedNet4 := some d } else { s.reeve with stagedNet6 := some d } } h 0x61
      { status := 0x90 } := by
  rw [setWrite, mgmt_ready k]
  simp only [hd]
  rfl

/-- Where a management command may act and neither an update nor a load runs, Reeve is not busy (Table 18-2). -/
theorem mgIsBusy_free {s : State} {h : CmdHdr} {opc : Nat} (k : MgmtReady s h opc) (hu : s.reeve.update = none) (hb : s.phiro.busy = false) :
    mgIsBusy s = false := by
  obtain ⟨-, hm, -⟩ := k
  rw [mgRuns, Bool.or_eq_false_iff] at hm
  rw [mgIsBusy, hm.1, hu, hb]; rfl

theorem storeCmd_begins {s : State} {h : CmdHdr} {bs : BitVec 2} (k : MgmtReady s h 0x60) (h3 : bs ≠ 3) (hb : s.phiro.busy = false)
    (hu : s.reeve.update = none) (hl : bs = 1 → s.phiro.loaded = true) :
    storeCmd h bs s = { begin_ s h 0x60 with reeve := { s.reeve with store := some (h, !newerIsB s.reeve, storeSet s bs) } } := by
  have hl' : (decide (bs = 1) && !s.phiro.loaded) = false := by
    by_cases h1 : bs = 1
    · rw [hl h1, Bool.not_true, Bool.and_false]
    · rw [decide_eq_false h1, Bool.false_and]
  rw [storeCmd, mgmt_ready k]
  simp only [h3, mgIsBusy_free k hu hb, hl', Bool.false_eq_true, if_false]
  rfl

theorem storeEnd_ok {s : State} {h : CmdHdr} {toB : Bool} {b : SetBank} (hs : s.reeve.store = some (h, toB, b))
    (hn : s.reeve.nvBad.contains (if toB then 1 else 0) = false) :
    storeEnd s true = complete
      { s with reeve := { s.reeve with store := none, stagedNet4 := none, stagedNet6 := none, bankA := if toB then s.reeve.bankA else setBytes b,
                                       bankB := if toB then setBytes b else s.reeve.bankB } } h 0x60 { status := 0x90 } := by
  have hw : nvWrite (modReeve s fun v => { v with store := none }) (if toB then 1 else 0) false = (true, modReeve s fun v => { v with store := none }) :=
    nvWrite_sound hn
  simp only [storeEnd, hs, Bool.not_true, hw]
  rfl

/-! ### Reports into a host buffer -/

/-- A report of no bytes completes without a transfer. -/
theorem bufCmd_empty {s : State} {h : CmdHdr} {opc hb off : Nat} {d : List Byte} {c : Cpl} (hv : (hbuf s hb).valid = true)
    (hl : off + d.length ≤ (hbuf s hb).len) (hd : d = []) : bufCmd s h opc hb off d c = complete s h opc c := by
  simp only [bufCmd, hv, decide_eq_false (Nat.not_lt.mpr hl), List.isEmpty_iff.mpr hd, Bool.not_true, Bool.or_self, Bool.false_eq_true, if_false,
    if_true]

theorem idRead_can {s : State} {h : CmdHdr} {hb off : Nat} (k : MgmtReady s h 0x63) (hv : (hbuf s hb).valid = true) (hc : bufCan s hb = true)
    (hl : off + Config.certChain.length ≤ (hbuf s hb).len) :
    idRead h hb off s = complete (if Config.certChain = [] then s else hostWrite s hb off Config.certChain (lsCmd s h) (.ring h.ring)) h 0x63
      { status := 0x90, detail := Config.certChain.length } := by
  rw [idRead, mgmt_ready k]
  by_cases he : Config.certChain = []
  · rw [if_pos he]; exact bufCmd_empty hv hl he
  · rw [if_neg he]; exact bufCmd_can hv hl he hc

/-- Every record of a sensor report has 16 bytes. -/
theorem length_sensorRecord (s : State) (id : Nat) : (sensorRecord s id).length = 16 := by
  simp only [sensorRecord, List.length_append, length_bytesLE]

theorem length_sensorReport (s : State) : (sensorIds.flatMap (sensorRecord s)).length = 2112 := by
  have hn : sensorIds.length = 132 := by rfl
  rw [List.length_flatMap, List.map_congr_left (fun id _ => length_sensorRecord s id), List.map_const', List.sum_replicate_nat]
  exact congrArg (· * 16) hn

theorem sensorRead_can {s : State} {h : CmdHdr} {hb off : Nat} (k : MgmtReady s h 0x6A) (hv : (hbuf s hb).valid = true)
    (hc : bufCan s hb = true) (hl : off + 2112 ≤ (hbuf s hb).len) :
    sensorRead h hb off s = complete (hostWrite s hb off (sensorIds.flatMap (sensorRecord s)) (lsCmd s h) (.ring h.ring)) h 0x6A
      { status := 0x90, detail := 132 } := by
  have hne : sensorIds.flatMap (sensorRecord s) ≠ [] := fun he => absurd (length_sensorReport s) (by rw [he]; decide)
  rw [sensorRead, mgmt_ready k]
  exact bufCmd_can hv (by rw [length_sensorReport]; exact hl) hne hc

/-- Every record of the log has 64 bytes. -/
theorem length_recordBytes (r : Record) : r.bytes.length = 64 := by
  simp only [Record.bytes, List.length_append, length_bytesLE, length_slice]

theorem length_logBytes (v : Reeve) (a n : Nat) : (logBytes v a n).length = 64 * n := by
  rw [logBytes, List.length_flatMap, List.map_congr_left (fun k _ => length_recordBytes (tget Record.none v.log (k % logMax))), List.map_const',
    List.sum_replicate_nat, span, List.length_map, List.length_range, Nat.mul_comm]

theorem logReadCmd_can {s : State} {h : CmdHdr} {hb off first n : Nat} (k : MgmtReady s h 0x69) (hv : (hbuf s hb).valid = true)
    (hc : bufCan s hb = true) (h0 : 0 < n) (h4 : n ≤ 4096) (hk : 0 < (logSpan s.reeve first n).2)
    (hl : off + 64 * (logSpan s.reeve first n).2 ≤ (hbuf s hb).len) :
    logReadCmd h hb off first n s =
      complete (hostWrite s hb off (logBytes s.reeve (logSpan s.reeve first n).1 (logSpan s.reeve first n).2) (lsCmd s h) (.ring h.ring)) h 0x69
        { status := 0x90, detail := (logSpan s.reeve first n).2,
          result := bytesLE 8 ((logSpan s.reeve first n).1 + (logSpan s.reeve first n).2) } := by
  have hr : (decide (n = 0) || decide (4096 < n)) = false := by simp; omega
  have hne : logBytes s.reeve (logSpan s.reeve first n).1 (logSpan s.reeve first n).2 ≠ [] := by
    rw [← List.length_pos_iff, length_logBytes]; omega
  rw [logReadCmd, mgmt_ready k]
  simp only [hr, Bool.false_eq_true, if_false]
  exact bufCmd_can hv (by rw [length_logBytes]; exact hl) hne hc

theorem length_bytesBE (n v : Nat) : (bytesBE n v).length = n := by
  rw [bytesBE, List.length_reverse, length_bytesLE]

theorem attestCmd_can {s : State} {h : CmdHdr} {hb off : Nat} {n : List Byte} (k : MgmtReady s h 0x62) (hv : (hbuf s hb).valid = true)
    (hc : bufCan s hb = true)
    (hl : off + (attestBody s n ++ sigBytes (Config.identitySign s.free (sha256 (attestBody s n)))).length ≤ (hbuf s hb).len) :
    attestCmd h hb off n s =
      complete (hostWrite { s with free := s.free + 1 } hb off
        (attestBody s n ++ sigBytes (Config.identitySign s.free (sha256 (attestBody s n)))) (lsCmd s h) (.ring h.ring)) h 0x62 { status := 0x90 } := by
  have hne : attestBody s n ++ sigBytes (Config.identitySign s.free (sha256 (attestBody s n))) ≠ [] := by
    rw [← List.length_pos_iff, List.length_append, sigBytes, List.length_append, length_bytesBE]; omega
  rw [attestCmd, mgmt_ready k]
  exact bufCmd_can (s := { s with free := s.free + 1 }) hv hl hne hc

theorem nonceCmd_can {s : State} {h : CmdHdr} {hb off : Nat} (k : MgmtReady s h 0x66) (hv : (hbuf s hb).valid = true) (hc : bufCan s hb = true)
    (hl : off + 32 ≤ (hbuf s hb).len) :
    nonceCmd h hb off s =
      complete (hostWrite { s with free := s.free + 1, reeve := { s.reeve with nonce := some (slice (Config.freeBytes s.free) 0 32, s.dt) } } hb off
        (slice (Config.freeBytes s.free) 0 32) (lsCmd s h) (.ring h.ring)) h 0x66 { status := 0x90 } := by
  have hlen : (slice (Config.freeBytes s.free) 0 32).length = 32 := length_slice _ _ _
  have hlt : decide ((hbuf s hb).len < off + 32) = false := decide_eq_false (Nat.not_lt.mpr hl)
  have hne : slice (Config.freeBytes s.free) 0 32 ≠ [] := by rw [← List.length_pos_iff, hlen]; omega
  rw [nonceCmd, mgmt_ready k]
  simp only [hv, hlt, hc, Bool.not_true, Bool.or_self, Bool.false_eq_true, if_false]
  exact bufCmd_can (s := { s with free := s.free + 1, reeve := { s.reeve with nonce := some (slice (Config.freeBytes s.free) 0 32, s.dt) } })
    hv (hlen.symm ▸ hl) hne hc

theorem nonceEnd_written {s : State} {b : List Byte} {t : Nat} (hn : s.reeve.nonce = some (b, t)) :
    nonceEnd s = { advanceTo s (t + 60 * dtS) with reeve := { s.reeve with nonce := none } } := by
  simp only [nonceEnd, hn]
  rfl

/-! ### The owner key -/

theorem ownerEnrol_first {s t : State} {h : CmdHdr} {pa : Nat} {b n : List Byte} (k : MgmtReady s h 0x64)
    (hd : devRead s (lsCmd s h) pa 160 = (some b, t)) (hn : nonceNow t = some n) (hv : t.reeve.nvBad.contains 4 = false)
    (ho : s.reeve.owner = none) (hz : natLE (slice b 0x40 32) = 0) :
    ownerEnrol h pa s =
      if ecVerify (natBE (slice b 0 32), natBE (slice b 32 32)) (ownerDigest t n tagEnrl) (ecSigAt b 0x60) then
        complete { t with reeve := { t.reeve with owner := some (natBE (slice b 0 32), natBE (slice b 32 32)),
                                                  ownerEnrols := (t.reeve.ownerEnrols + 1) % 2 ^ 32, nonce := none } } h 0x64 { status := 0x90 }
      else complete t h 0x64 { status := 0x92 } := by
  rw [ownerEnrol, mgmt_ready k]
  simp only [ho, hd, hn, hz, nvWrite_sound hv, Option.isSome_none, Bool.false_eq_true, if_false, ne_eq, not_true_eq_false, decide_false, Bool.false_or]
  cases ecVerify (natBE (slice b 0 32), natBE (slice b 32 32)) (ownerDigest t n tagEnrl) (ecSigAt b 0x60) <;> rfl

theorem ownerWithdraw_own {s t : State} {h : CmdHdr} {pa : Nat} {b n : List Byte} {own : Nat × Nat} (k : MgmtReady s h 0x65)
    (hd : devRead s (lsCmd s h) pa 160 = (some b, t)) (hn : nonceNow t = some n) (hv : t.reeve.nvBad.contains 4 = false)
    (ho : s.reeve.owner = some own) (h2 : leAt b 0x40 1 = 2) (hz : natLE (slice b 0 64) = 0) (hz' : natLE (slice b 0x41 31) = 0) :
    ownerWithdraw h pa s =
      if ecVerify own (ownerDigest t n tagWdrw) (ecSigAt b 0x60) then
        complete { t with reeve := { t.reeve with owner := none, nonce := none } } h 0x65 { status := 0x90 }
      else complete t h 0x65 { status := 0x92 } := by
  have h21 : ¬ (2 : Nat) = 1 := by decide
  rw [ownerWithdraw, mgmt_ready k]
  simp only [ho, hd, hn, h2, h21, hz, hz', nvWrite_sound hv, if_false, if_true, ne_eq, not_true_eq_false, decide_false,
    Bool.false_or]
  cases ecVerify own (ownerDigest t n tagWdrw) (ecSigAt b 0x60) <;> rfl

/-! ### Firmware -/

theorem fwUpdate_read {s t : State} {h : CmdHdr} {pa len : Nat} {b : List Byte} (k : MgmtReady s h 0x67) (hu : s.reeve.update = none)
    (hb : s.phiro.busy = false) (h8 : pa % 8 = 0) (hl : len ≤ 12 * 2 ^ 20) (hd : devRead s (lsCmd s h) pa len = (some b, t)) :
    fwUpdate h pa len s =
      if fwCheck t b = 0x90 then
        { begin_ t h 0x67 with reeve := { t.reeve with
            upd := 1, updPath := 1
            update := some (some h, { image := b, svn := leAt b 0x10 4, sigOk := true, seq := (otherSlot t.reeve).seq, active := false }) } }
      else complete t h 0x67 { status := fwCheck t b } := by
  have hlen : decide (12 * 2 ^ 20 < len) = false := decide_eq_false (Nat.not_lt.mpr hl)
  rw [fwUpdate, mgmt_ready k]
  simp only [mgIsBusy_free k hu hb, h8, hlen, hd, ne_eq, not_true_eq_false, decide_false, Bool.or_self, Bool.false_eq_true, if_false, mgOk]
  rfl

theorem putOther_eq (v : Reeve) (f : FwSlot) :
    putOther v f = { v with slotA := if v.runSlot then f else v.slotA, slotB := if v.runSlot then v.slotB else f } := by
  unfold putOther; split <;> rfl

theorem fwWritten_ok {s : State} {h : CmdHdr} {f : FwSlot} (hu : s.reeve.update = some (some h, f))
    (hv : s.reeve.nvBad.contains (if s.reeve.runSlot then 2 else 3) = false) :
    fwWritten s true = complete
      { s with reeve := { s.reeve with
          slotA := if s.reeve.runSlot then f else s.reeve.slotA, slotB := if s.reeve.runSlot then s.reeve.slotB else f, upd := 2, update := none } }
      h 0x67 { status := 0x90 } := by
  have hw : nvWrite s (otherArea s.reeve) false = (true, s) := nvWrite_sound hv
  simp only [fwWritten, hu, Bool.not_true, hw, if_true, modReeve, putOther_eq]
  rfl

theorem fwActivate_ok {s : State} (hu : s.reeve.upd = 2) (hr : s.reeve.recovery = false)
    (hv : s.reeve.nvBad.contains (if s.reeve.runSlot then 2 else 3) = false) :
    let v := s.reeve
    let f := { (if v.runSlot then v.slotA else v.slotB) with
      seq := ((if v.runSlot then v.slotB else v.slotA).seq + 1) % 2 ^ 32, active := true }
    fwActivate s = (mgOk, { s with reeve := { v with
      slotA := if v.runSlot then f else v.slotA, slotB := if v.runSlot then v.slotB else f, upd := 3 } }) := by
  have hw : nvWrite s (otherArea s.reeve) false = (true, s) := nvWrite_sound hv
  simp only [fwActivate, hu, hw, ne_eq, not_true_eq_false, if_false, modReeve, putOther_eq, otherSlot, ownSlot, hr, Bool.false_eq_true]

/-- Settles O9: each management command's own rule, once `MgmtReady` takes its header away. -/
theorem managementResults : Obligations.ManagementResults := by
  unfold Obligations.ManagementResults
  intro s h
  refine ⟨?setWrite, ?store, ?storeEnd, ?reports, ?nonceEnd, ?owner, ?update, ?written, ?activate⟩
  case setWrite => exact fun ty v d k hd => congrArg done (setWrite_staged k hd)
  case store => exact fun bs k h3 hb hu hl => congrArg done (storeCmd_begins k h3 hb hu hl)
  case storeEnd => exact fun h' toB b hs hn => congrArg done (storeEnd_ok hs hn)
  case reports =>
    intro hb off hv hc put
    refine ⟨fun k hl => congrArg done (idRead_can k hv hc hl), fun k hl => congrArg done (sensorRead_can k hv hc hl), ?_, ?_, ?_⟩
    · intro first n k h0 h4 a m hm hl
      exact congrArg done (logReadCmd_can k hv hc h0 h4 hm hl)
    · intro n k b hl
      exact congrArg done (attestCmd_can k hv hc hl)
    · intro k hl b
      exact congrArg done (nonceCmd_can k hv hc hl)
  case nonceEnd => exact fun b t hn => congrArg done (nonceEnd_written hn)
  case owner =>
    intro pa b n t hd hn hv
    refine ⟨?_, ?_⟩
    · intro key k ho hz
      have he := congrArg done (ownerEnrol_first k hd hn hv ho hz)
      split <;> rename_i hc
      · exact he.trans (congrArg done (if_pos hc))
      · exact he.trans (congrArg done (if_neg hc))
    · intro own k ho h2 hz hz'
      have he := congrArg done (ownerWithdraw_own k hd hn hv ho h2 hz hz')
      split <;> rename_i hc
      · exact he.trans (congrArg done (if_pos hc))
      · exact he.trans (congrArg done (if_neg hc))
  case update =>
    intro pa len b t k hu hb h8 hl hd
    have he := congrArg done (fwUpdate_read k hu hb h8 hl hd)
    split <;> rename_i hc
    · exact he.trans (congrArg done (if_pos hc))
    · exact he.trans (congrArg done (if_neg hc))
  case written => exact fun h' f hu hv => congrArg done (fwWritten_ok hu hv)
  case activate =>
    intro k hu hr hv v f
    have ha : fwActivateCmd h s = _ := (mgmt_ready k _).trans (by simp only [fwActivate_ok hu hr hv]; rfl)
    exact congrArg done ha

end Sys2Proof.Machine

/-! PROOFS. Requests at their homes, frames, refresh and scrubs (O54). -/

namespace Sys2Proof.Machine

/-! ### What a record, a tag and a line leave of the state -/

/-- `u` is `s` but for what records and their counts touch: free values, the error scopes, Reeve, the port, and interrupts pending in cores. -/
def PostOf (s u : State) : Prop :=
  ∃ n e v o c, u = { s with free := n, errors := e, reeve := v, port := o, cores := c }

theorem PostOf.refl (s : State) : PostOf s s := ⟨_, _, _, _, _, rfl⟩

theorem PostOf.trans {s t u : State} (h1 : PostOf s t) (h2 : PostOf t u) : PostOf s u := by
  obtain ⟨_, _, _, _, _, rfl⟩ := h1
  obtain ⟨_, _, _, _, _, rfl⟩ := h2
  exact ⟨_, _, _, _, _, rfl⟩

theorem PostOf.mem {s u : State} (h : PostOf s u) : u.mem = s.mem := by
  obtain ⟨_, _, _, _, _, rfl⟩ := h
  rfl

theorem PostOf.health {s u : State} (h : PostOf s u) : u.health = s.health := by
  obtain ⟨_, _, _, _, _, rfl⟩ := h
  rfl

theorem postOf_setInt (s : State) (p n : Nat) : PostOf s (setInt s p n) := by
  unfold setInt
  split
  · exact ⟨_, _, _, _, _, rfl⟩
  · exact .refl s

theorem postOf_postPlain (s : State) (r : Record) : PostOf s (postPlain s r).2 := by
  simp only [postPlain]
  split
  · split
    · exact PostOf.trans ⟨_, _, _, _, _, rfl⟩ (postOf_setInt ..)
    · exact ⟨_, _, _, _, _, rfl⟩
  · exact ⟨_, _, _, _, _, rfl⟩

theorem postOf_leftByte (s : State) (n : Nat) : PostOf s (leftByte s n).2 := by
  unfold leftByte
  split <;> exact ⟨_, _, _, _, _, rfl⟩

theorem postOf_nvSpare (s : State) (area : Nat) : PostOf s (nvSpare s area).2 := by
  simp only [nvSpare, drawFree]
  exact PostOf.trans ⟨_, _, _, _, _, rfl⟩ (postOf_leftByte ..)

theorem postOf_post (s : State) (r : Record) : PostOf s (post s r) := by
  have hp := postOf_postPlain s r
  have hn := postOf_nvSpare s areaLog
  unfold post postR
  split
  · exact hp
  · split
    · generalize postPlain s r = x at hp ⊢
      exact hp.trans ⟨_, _, _, _, _, rfl⟩
    · generalize nvSpare s areaLog = x at hn ⊢
      exact (hn.trans (postOf_postPlain x.2 r)).trans (postOf_postPlain ..)

theorem postOf_postCoalesced (s : State) (r : Record) (addr : Nat) : PostOf s (postCoalesced s r addr) := by
  unfold postCoalesced
  extract_lets k
  split
  · exact ⟨_, _, _, _, _, rfl⟩
  · exact (postOf_post s r).trans ⟨_, _, _, _, _, rfl⟩

/-! ### Scrubs (R552) -/

/-- A codeword that reads corrected leaves the bytes and the damage of every codeword. -/
theorem corrected_mem_bad (s : State) (m : MemCtx) (cw : Nat) : (corrected s m cw).mem = s.mem ∧ (corrected s m cw).health.bad = s.health.bad := by
  unfold corrected
  extract_lets pa frame h h1 key h2 u
  have hp := postOf_postCoalesced u (mkRec u m.ls 0x10 0 (homeDie pa) 0 (errBytes { addr := pa, reqClass := m.cls.getD 0xFF, symbols := 1 })) pa
  have h1' : h1.bad = s.health.bad := by
    simp only [h1]
    split <;> rfl
  have h2' : h2.bad = s.health.bad := by
    simp only [h2]
    split
    · exact h1'
    · exact h1'
  exact ⟨hp.mem, by rw [hp.health]; exact h2'⟩

/-- A scrub of one codeword. -/
def scrubWord (m : MemCtx) (s : State) (cw : Nat) : State :=
  if badAt s (cw * 32) = 1 then setBad (corrected s m cw) cw 0
  else if 2 ≤ badAt s (cw * 32) then post s (mkRec s m.ls 0x11 0 m.src 0 (errBytes { addr := cw * 32, symbols := 2 }))
  else s

theorem badAt_mul (s : State) (cw : Nat) : badAt s (cw * 32) = tget 0 s.health.bad cw := by
  rw [badAt, Nat.mul_div_cancel _ (by decide : 0 < 32)]

/-- A scrub corrects its codeword where one symbol is damaged, and leaves the bytes and every other codeword. -/
theorem scrubWord_mem_bad (m : MemCtx) (s : State) (cw : Nat) : (scrubWord m s cw).mem = s.mem ∧
    ∀ c, badAt (scrubWord m s cw) (c * 32) = if c = cw ∧ badAt s (c * 32) = 1 then 0 else badAt s (c * 32) := by
  unfold scrubWord
  split
  · rename_i h1
    obtain ⟨hm, hb⟩ := corrected_mem_bad s m cw
    refine ⟨hm, fun c => ?_⟩
    have hset : badAt (setBad (corrected s m cw) cw 0) (c * 32) = if c = cw then 0 else badAt s (c * 32) := by
      rw [badAt_mul, badAt_mul, setBad, tget_tset, hb]
    rw [hset]
    by_cases hc : c = cw
    · rw [if_pos hc, hc, if_pos ⟨rfl, h1⟩]
    · rw [if_neg hc, if_neg fun h => hc h.1]
  · rename_i h1
    have hid (u : State) (hu : u.health = s.health) (c : Nat) :
        badAt u (c * 32) = if c = cw ∧ badAt s (c * 32) = 1 then 0 else badAt s (c * 32) := by
      rw [if_neg fun hc : c = cw ∧ badAt s (c * 32) = 1 => h1 (hc.1 ▸ hc.2), badAt, badAt, hu]
    split
    · have hp := postOf_post s (mkRec s m.ls 0x11 0 m.src 0 (errBytes { addr := cw * 32, symbols := 2 }))
      exact ⟨hp.mem, hid _ hp.health⟩
    · exact ⟨rfl, hid s rfl⟩

theorem foldl_scrubWord (m : MemCtx) (l : List Nat) (s : State) : (l.foldl (scrubWord m) s).mem = s.mem ∧
    ∀ c, badAt (l.foldl (scrubWord m) s) (c * 32) = if c ∈ l ∧ badAt s (c * 32) = 1 then 0 else badAt s (c * 32) := by
  induction l generalizing s with
  | nil => simp
  | cons cw l ih =>
    obtain ⟨hm, hb⟩ := scrubWord_mem_bad m s cw
    obtain ⟨hm', hb'⟩ := ih (scrubWord m s cw)
    refine ⟨hm'.trans hm, fun c => ?_⟩
    rw [List.foldl_cons, hb', hb]
    by_cases hc : c = cw
    · subst hc
      by_cases h1 : badAt s (c * 32) = 1 <;> simp [h1]
    · simp [hc]

theorem mem_span_atom {pa cw : Nat} : cw ∈ span (pa / 256 * 8) 8 ↔ cw / 8 = pa / 256 := by
  refine ⟨span_atom, fun h => List.mem_map.2 ⟨cw % 8, List.mem_range.2 (by omega), by omega⟩⟩

/-- R552: a scrub of an atom corrects the codewords that one symbol damages. -/
theorem scrubAtom_corrects {s : State} {pa : Nat} (he : s.kiln.en = true) (hpa : isNear pa = true ∨ isFar pa = true)
    (ht : s.power.trip = false) (hr : s.power.rstLow = false) : (scrubAtom s pa).mem = s.mem ∧
    ∀ cw, badAt (scrubAtom s pa) (cw * 32) = if cw / 8 = pa / 256 ∧ badAt s (cw * 32) = 1 then 0 else badAt s (cw * 32) := by
  let m : MemCtx := { src := homeDie pa, ls := lsDevice (homeDie pa), cls := none, p := 0xFF, req := .reeve }
  have hpa' : (isNear pa || isFar pa) = true := Bool.or_eq_true _ _ ▸ hpa
  have hs : scrubAtom s pa = (span (pa / 256 * 8) 8).foldl (scrubWord m) (wakePackage s pa) := by
    simp only [scrubAtom, he, hpa', ht, hr, Bool.not_true, Bool.or_self, Bool.false_eq_true, if_false]
    rfl
  have hw : ∀ cw, badAt (wakePackage s pa) (cw * 32) = badAt s (cw * 32) := by
    intro cw
    unfold wakePackage
    split <;> rfl
  obtain ⟨hm, hb⟩ := foldl_scrubWord m (span (pa / 256 * 8) 8) (wakePackage s pa)
  rw [hs]
  refine ⟨hm.trans (quiet_wakePackage s pa).2, fun cw => ?_⟩
  rw [hb, hw]
  simp only [mem_span_atom]

/-! ### Frames and refresh (R407–R410) -/

theorem fmRetire_begins {s : State} {pa l : Nat} {u : State} (hfar : isFar pa = true) (h16 : 16 ≤ tget 0 s.health.frameErr (pa / 4096))
    (hc : s.health.copying.contains (pa / 4096) = false)
    (hu : tget 0 s.health.reserveUsed (homeDie pa) + 1 < reserveFrames)
    (hl : leftByte { s with health := { s.health with
        copying := insertNat s.health.copying (pa / 4096), retired := tins s.health.retired (pa / 4096) (tget 0 s.health.reserveUsed (homeDie pa)),
        reserveUsed := tset 0 s.health.reserveUsed (homeDie pa) (tget 0 s.health.reserveUsed (homeDie pa) + 1),
        frameErr := tset 0 s.health.frameErr (pa / 4096) 0 } } (reserveFrames - tget 0 s.health.reserveUsed (homeDie pa) - 1) = (l, u)) :
    fmRetire s pa = post u (mkRec u (lsDevice (homeDie pa)) 0x13 0 (homeDie pa) 0xB000 (errBytes { addr := pa / 4096 * 4096, reason := 1, left := l })) := by
  have hr : decide (reserveFrames ≤ tget 0 s.health.reserveUsed (homeDie pa)) = false := decide_eq_false (by omega)
  have hlast : decide (tget 0 s.health.reserveUsed (homeDie pa) + 1 = reserveFrames) = false := decide_eq_false (by omega)
  have h16' : decide (tget 0 s.health.frameErr (pa / 4096) < 16) = false := decide_eq_false (by omega)
  simp only [fmRetire, hfar, h16', hc, hr, hl, hlast, Bool.not_true, Bool.or_self, Bool.false_and, Bool.false_eq_true, if_false]

theorem leftByte_small {s : State} {n : Nat} (h : n < 256) : leftByte s n = (n, s) := if_pos h

theorem leftByte_large {s : State} {n : Nat} (h : 256 ≤ n) :
    leftByte s n = ((Config.freeWord s.free).toNat % 256, { s with free := s.free + 1 }) := if_neg (by omega)

theorem heldRelease_none {s : State} (h : s.health.heldAcc = []) : heldRelease s = s := by
  simp only [heldRelease, h, List.filter_nil, List.foldl_nil]
  rw [← h]

theorem vqGoAll_idle {s : State} (h : ∀ q, (polder s q).vqueue = []) : vqGoAll s = s := by
  have hf (l : List Nat) : l.foldl (fun s p => if (polder s p).vqueue.isEmpty then s else vqGo s p) s = s := by
    induction l with
    | nil => rfl
    | cons p l ih => rw [List.foldl_cons, h p]; exact ih
  exact hf polderNums

theorem heldRelease_read {s : State} {n : Nat} {r : MemReq} (h : s.health.heldAcc = [(n, .read r)]) (hf : frameHeld s r.pa = false) :
    heldRelease s = readGo r { s with health := { s.health with heldAcc := [] } } := by
  simp only [heldRelease, h, hf, List.filter_cons, List.filter_nil, Bool.not_false, if_true, Bool.false_eq_true, if_false, List.foldl_cons,
    List.foldl_nil, heldGo]

end Sys2Proof.Machine

/-! PROOFS. Requests, updates and ordered windows at their homes (O54). -/

namespace Sys2Proof.Machine

/-! ### Tags and lines leave memory -/

theorem HomeOf.applied {s u : State} (h : HomeOf s u) : u.fabric.applied = s.fabric.applied := by
  obtain ⟨_, _, _, _, _, rfl⟩ := h
  rfl

theorem HomeOf.flight {s u : State} (h : HomeOf s u) : u.fabric.flight = s.fabric.flight := by
  obtain ⟨_, _, _, _, _, rfl⟩ := h
  rfl

theorem quiet_takeTag {s u : State} {o n : Nat} {q : TagReq} (h : takeTag s o q = some (n, u)) : Quiet s u := by
  unfold takeTag at h
  split at h
  · cases h
  · cases h
    exact ⟨⟨_, _, _, _, _, rfl⟩, rfl⟩

theorem quiet_tookTag (s : State) (o : Nat) (q : TagReq) : Quiet s (((takeTag s o q).map (·.2)).getD s) := by
  cases h : takeTag s o q with
  | none => exact .refl s
  | some x => exact quiet_takeTag h

theorem quiet_keepTag (s : State) (kind : Nat) (r : MemReq) : Quiet s (keepTag s kind r) := quiet_tookTag ..

theorem quiet_lateTag (s : State) (kind : Nat) (r : MemReq) : Quiet s (lateTag s kind r) := quiet_tookTag ..

theorem quiet_modOwner (s : State) (o : Nat) (f : Owner → Owner) : Quiet s (modOwner s o f) := ⟨⟨_, _, _, _, _, rfl⟩, rfl⟩

/-! ### Arrival at a home -/

theorem arrive_taken {s : State} {kind : Nat} {r : MemReq} {held : HeldAcc} {go : State → State} (h : Arrives s r (decide (kind ≠ 0))) :
    arrive s kind r held go =
      let left := dropWaiter s r.src (· == r.req)
      if frameHeld s r.pa then { left with health := { left.health with heldAcc := left.health.heldAcc ++ [(s.dt, held)] } } else go left := by
  obtain ⟨hatom, hlive, hshut, hbroken, hmem, htag⟩ := h
  have hmem' : (isNear r.pa || isFar r.pa) = true := Bool.or_eq_true _ _ ▸ hmem
  simp only [arrive, hatom, hlive, hshut, hbroken, hmem', htag, Bool.not_true, Bool.or_self, Bool.false_eq_true, if_false]
  rfl

theorem inAtom_le {pa len : Nat} (h : inAtom pa len = true) : pa % 256 + len ≤ 256 := by
  simp only [inAtom, Bool.and_eq_true, decide_eq_true_eq] at h
  exact h.1.2

/-- A read at a sound home: its tag gets the bytes, a host gets them sent. -/
theorem readGo_sound {s : State} {r : MemReq} (h : MemSound s r.src r.pa) (hatom : inAtom r.pa r.len = true) :
    ∃ t, Quiet s t ∧ readGo r s = if r.held then answerTag t r (mgetN s.mem r.pa r.len)
      else match r.req with
        | .hostRead c => send t (.readResp c (mgetN s.mem r.pa r.len))
        | _ => t := by
  obtain ⟨t, ht, hq⟩ := readAtom_sound (m := reqCtx s r) h (inAtom_le hatom)
  refine ⟨t, hq, ?_⟩
  simp only [readGo, ht] <;> rfl

theorem writtenBy_kept (s : State) (q : Requester) (pa len : Nat) :
    (writtenBy s q pa len).mem = s.mem ∧ (writtenBy s q pa len).out = s.out ∧ (writtenBy s q pa len).fabric = s.fabric := by
  unfold writtenBy
  split <;> exact ⟨rfl, rfl, rfl⟩

theorem writeGo_sound {s : State} {r : MemReq} {d : List Byte} (h : MemSound s r.src r.pa) (hatom : inAtom r.pa r.len = true)
    (hd : d.length = r.len) (ht : r.age + 8 < s.phiro.txnTimeout * dtUs) :
    (writeGo r d s).mem = msetN s.mem r.pa d ∧ (writeGo r d s).out = s.out := by
  obtain ⟨t, hw, hhome, hmem⟩ := writeAtom_sound (m := reqCtx s r) h (hd ▸ inAtom_le hatom)
  obtain ⟨hm, ho, -⟩ := writtenBy_kept t r.req r.pa r.len
  have hin : inTime s r.age = true := decide_eq_true ht
  simp only [writeGo, hin, hw, Bool.not_true, Bool.false_eq_true, if_false]
  split
  · have hk := quiet_keepTag (writtenBy t r.req r.pa r.len) 1 r
    exact ⟨(hk.2.trans hm).trans hmem, (hk.1.out.trans ho).trans hhome.out⟩
  · exact ⟨hm.trans hmem, ho.trans hhome.out⟩

theorem writeGo_late {s : State} {r : MemReq} (d : List Byte) (ht : s.phiro.txnTimeout * dtUs ≤ r.age + 8) : writeGo r d s = lateTag s 1 r := by
  have hin : inTime s r.age = false := decide_eq_false (Nat.not_lt.mpr ht)
  simp only [writeGo, hin, Bool.not_false, if_true]

theorem memWrite_arrives {s : State} {r : MemReq} {d : List Byte} (hd : d.length = r.len) :
    memWrite s r d = arrive s 1 r (.write r d) (writeGo r d) := by
  simp only [memWrite, hd, ne_eq, not_true_eq_false, if_false]

theorem arrive_broken {s : State} {kind v : Nat} {r : MemReq} {held : HeldAcc} {go : State → State} (hatom : inAtom r.pa r.len = true)
    (hlive : reqLive s r.req = true) (hshut : stackShut s r.pa r.req = false) (hb : reqBroken s r.pa r.len (decide (kind ≠ 0)) r.req = some v) :
    arrive s kind r held go = breakReq s r.src r.va r.inst r.req v := by
  simp only [arrive, hatom, hlive, hshut, hb, Bool.not_true, Bool.or_self, Bool.false_eq_true, if_false]

/-! ### Updates -/

/-- The bytes that an update leaves over its span. -/
def updBytes (s : State) (u : MemUpdate) : List Byte :=
  (((elemsOf (opSize u.fmt) u.elems.length (mgetN s.mem u.pa (opSize u.fmt * u.elems.length))).zip
    (u.elems.map fun w => w.toNat % 2 ^ (8 * opSize u.fmt))).map fun e => bytesLE (opSize u.fmt) (adderOp u.op u.fmt e.1 e.2 u.cmp.toNat).v).flatten

theorem updOk_atom {u : MemUpdate} (h : updOk u = true) : u.pa % 256 + opSize u.fmt * u.elems.length ≤ 256 := by
  simp only [updOk, Bool.and_eq_true, decide_eq_true_eq] at h
  exact h.2

/-- An update that its adder performs answers, stores what the adder makes, and leaves windows and items in flight. -/
theorem updPerform_ok {s v : State} {m : MemCtx} {u : MemUpdate} {r : UpdRes}
    {upd : State → MemCtx → Nat → Nat → Nat → List Nat → Nat → Except MemErr UpdRes × State}
    (hu : upd s m u.pa u.op u.fmt (updElems u) u.cmp.toNat = (.ok r, v)) (hhome : HomeOf s v) :
    ∃ w, updPerform s m u upd = (some r, w) ∧ w.mem = v.mem ∧ w.fabric.applied = s.fabric.applied ∧ w.fabric.flight = s.fabric.flight := by
  have hrun (w : State) : ∃ x, (match m.req with
      | .descUpdate p _ | .descriptor p _ => modRun w p fun v => { v with flags := v.flags ||| BitVec.ofNat 5 r.fl }
      | _ => w) = x ∧ x.mem = w.mem ∧ x.fabric = w.fabric := by
    split <;> exact ⟨_, rfl, rfl, rfl⟩
  obtain ⟨x, hx, hxm, hxf⟩ := hrun v
  obtain ⟨hm, -, hf⟩ := writtenBy_kept x m.req u.pa (updLen u)
  refine ⟨writtenBy x m.req u.pa (updLen u), ?_, hm.trans hxm, ?_, ?_⟩
  · simp only [updPerform, hu]
    exact congrArg (fun y => (some r, writtenBy y m.req u.pa (updLen u))) hx
  · rw [hf, hxf, hhome.applied]
  · rw [hf, hxf, hhome.flight]

theorem updateHome_stores {s : State} {m : MemCtx} {u : MemUpdate} (h : MemSound s m.src u.pa) (hok : updOk u = true) :
    ∃ r v, updateHome s m u.pa u.op u.fmt (updElems u) u.cmp.toNat = (.ok r, v) ∧ HomeOf s v ∧ v.mem = msetN s.mem u.pa (updBytes s u) := by
  have hlen : (updElems u).length = u.elems.length := by rw [updElems, List.length_map]
  obtain ⟨r, v, hv, -, hhome, hmem⟩ := updateHome_sound (m := m) (op := u.op) (fmt := u.fmt) (c := u.cmp.toNat) (xs := updElems u) h
    (by rw [hlen]; exact updOk_atom hok)
  rw [hlen] at hmem
  exact ⟨r, v, hv, hhome, hmem⟩

theorem updGo_applies {s : State} {q : Requester} {u : MemUpdate} {age : Nat} {held : Bool} (hok : updOk u = true)
    (hnew : s.fabric.applied.contains (homeDie u.pa, u.tag) = false) (ht : age + 8 < s.phiro.txnTimeout * dtUs)
    (h : MemSound s (reqSrc s q) u.pa) :
    (updGo q u age held s).fabric.applied = s.fabric.applied ++ [(homeDie u.pa, u.tag)] ∧
      (updGo q u age held s).mem = msetN s.mem u.pa (updBytes s u) := by
  have hin : inTime s age = true := decide_eq_true ht
  let m := reqCtx s (updReq s q u age held)
  have hp := quiet_tagPulse s m.src
  obtain ⟨r, v, hv, hhome, hmem⟩ := updateHome_stores (m := m) (memSound_tagPulse m.src h) hok
  have hb : updBytes (tagPulse s m.src) u = updBytes s u := by rw [updBytes, updBytes, hp.2]
  rw [hb, hp.2] at hmem
  have hat : updateAtom s m u.pa u.op u.fmt (updElems u) u.cmp.toNat = (.ok r, v) := hv
  obtain ⟨w, hw, hwm, hwa, -⟩ := updPerform_ok hat (hp.1.trans hhome)
  have hgo : updGo q u age held s = if held then keepTag (markApplied w (homeDie u.pa) u.tag) 2 (updReq s q u age held)
      else markApplied w (homeDie u.pa) u.tag := by
    have hw' : updPerform s (reqCtx s (updReq s q u age held)) u updateAtom = (some r, w) := hw
    simp only [updGo, hnew, hin, hw', Option.isSome_some, Bool.and_true, Bool.not_true, Bool.false_eq_true, if_false, if_true]
  have hmark : (markApplied w (homeDie u.pa) u.tag).fabric.applied = s.fabric.applied ++ [(homeDie u.pa, u.tag)] := congrArg (· ++ _) hwa
  rw [hgo]
  split
  · have hk := quiet_keepTag (markApplied w (homeDie u.pa) u.tag) 2 (updReq s q u age held)
    exact ⟨hk.1.applied.trans hmark, (hk.2.trans hwm).trans hmem⟩
  · exact ⟨hmark, hwm.trans hmem⟩

theorem updGo_late {s : State} {q : Requester} {u : MemUpdate} {age : Nat} {held : Bool}
    (hnew : s.fabric.applied.contains (homeDie u.pa, u.tag) = false) (ht : s.phiro.txnTimeout * dtUs ≤ age + 8) :
    updGo q u age held s = lateTag s 2 (updReq s q u age held) := by
  have hin : inTime s age = false := decide_eq_false (Nat.not_lt.mpr ht)
  simp only [updGo, hnew, hin, Bool.not_false, Bool.false_eq_true, if_false, if_true]

theorem updGo_again {s : State} {q : Requester} {u : MemUpdate} {age : Nat} {held : Bool}
    (hold : s.fabric.applied.contains (homeDie u.pa, u.tag) = true) : updGo q u age held s = s := if_pos hold

theorem unorderedUpd_arrives {s : State} {q : Requester} {u : MemUpdate} {age : Nat} {held : Bool} (hok : updOk u = true)
    (h : Arrives s (updReq s q u age held) true) (hf : frameHeld s u.pa = false) :
    unorderedUpd s q u age held = updGo q u age held (dropWaiter s (reqSrc s q) (· == q)) := by
  have hf' : frameHeld s (updReq s q u age held).pa = false := hf
  have ha := arrive_taken (kind := 2) (held := .update q u age held) (go := updGo q u age held) h
  simp only [unorderedUpd, hok, Bool.not_true, Bool.false_eq_true, if_false, ha, hf']
  rfl

/-! ### Ordered windows (R111–R116) -/

/-- An update takes effect in its turn: it leaves its list and its bytes are stored. -/
theorem winApply_update {s : State} {f : Flight} {u : MemUpdate} (hu : f.upd = some u) (hret : f.ret = .none) (hok : updOk u = true)
    (h : MemSound s f.win.src u.pa) :
    (winApply s f).mem = msetN s.mem u.pa (updBytes s u) ∧ (winApply s f).fabric.flight = s.fabric.flight.erase f ∧
      (winApply s f).fabric.applied = s.fabric.applied ++ [(f.win.adder, u.tag)] := by
  have hfree : Quiet s (freeFlight s f) ∧ MemSound (freeFlight s f) f.win.src u.pa := by
    unfold freeFlight
    split
    · exact ⟨quiet_modOwner .., h⟩
    · exact ⟨.refl s, h⟩
  obtain ⟨⟨hhome, hmem⟩, hsound⟩ := hfree
  have hput : MemSound (putFlight (freeFlight s f) f none) (winCtx (putFlight (freeFlight s f) f none) f.win).src u.pa := hsound
  obtain ⟨r, v, hv, hvh, hvm⟩ := updateHome_stores hput hok
  obtain ⟨w, hw, hwm, hwa, hwf⟩ := updPerform_ok hv hvh
  have hb : updBytes (putFlight (freeFlight s f) f none) u = updBytes s u := by
    rw [updBytes, updBytes, show (putFlight (freeFlight s f) f none).mem = s.mem from hmem]
  have hgo : winApply s f = markApplied w f.win.adder u.tag := by
    simp only [winApply, hu, hw, hret, putOld]
  rw [hgo]
  refine ⟨?_, ?_, ?_⟩
  · exact hwm.trans (hvm.trans (by rw [hb]; exact congrArg (msetN · u.pa (updBytes s u)) hmem))
  · exact hwf.trans (congrArg (List.erase · f) hhome.flight)
  · exact congrArg (· ++ _) (hwa.trans hhome.applied)

section Arrival

variable {s t' : State} {w : UpdWindow} {f g : Flight}

/-- What an arriving item meets, in the order of R113–R115. -/
theorem winArrive_eq (hw : f.win = w) (hsrc : (winSources s w.p w.i).contains w.src = true) (hg : flightTag s f = (g, t'))
    (hin : flightInTime (putFlight t' f (some g)) g = true) :
    winArrive s f =
      let srcs := winSources s w.p w.i
      let t := putFlight t' f (some g)
      if !winRoom s w then s
      else if f.upd.isSome && g.tag.isNone then t'
      else if f.upd.any fun u => frameHeld t u.pa then t
      else if winReady t srcs g then
        let v := winApply (winOpen t w) g
        winClose (winDrain w srcs v.fabric.flight.length v) w srcs
      else if f.upd.isSome && 4096 ≤ winBuffered t w.adder then t
      else putFlight (freeFlight (winOpen t w) g) g (some { g with tag := none, early := true }) := by
  subst hw
  simp only [winArrive, hsrc, hg, hin, Bool.not_true, Bool.false_or]

/-- The item that takes a tag carries the same update. -/
theorem flightTag_upd (hg : flightTag s f = (g, t')) : g.upd = f.upd := by
  unfold flightTag at hg
  split at hg
  · extract_lets r ls at hg
    split at hg
    · cases hg; rfl
    · cases hg; rfl
  · cases hg; rfl

/-- An end marker needs no tag. -/
theorem flightTag_marker (hu : f.upd = none) : flightTag s f = (f, s) := by
  simp only [flightTag, hu]

/-- An update that a source has sent arrives: it is stalled, applied in its turn with what waited for it, buffered, or waits (R113–R115). -/
theorem ordered_arrives {u : MemUpdate} (hsrc : (winSources s w.p w.i).contains w.src = true) (hg : flightTag s f = (g, t'))
    (hin : flightInTime (putFlight t' f (some g)) g = true)
    (hf : s.fabric.flight.find? (fun f => f.win == w && !f.early && f.upd.any fun x => { x with tag := u.tag } == u) = some f) :
    let srcs := winSources s w.p w.i
    let t := putFlight t' f (some g)
    let turn := let v := winApply (winOpen t w) g; winClose (winDrain w srcs v.fabric.flight.length v) w srcs
    let early := putFlight (freeFlight (winOpen t w) g) g (some { g with tag := none, early := true })
    (winRoom s w = false → ordered s w u = s) ∧
    (winRoom s w = true → g.tag = none → ordered s w u = t') ∧
    (winRoom s w = true → g.tag ≠ none → (∀ x, g.upd = some x → frameHeld t x.pa = false) →
      (winReady t srcs g = true → ordered s w u = turn) ∧
      (winReady t srcs g = false → winBuffered t w.adder < 4096 → ordered s w u = early) ∧
      (winReady t srcs g = false → 4096 ≤ winBuffered t w.adder → ordered s w u = t)) := by
  intro srcs t turn early
  have hp := List.find?_some (p := fun f : Flight => f.win == w && !f.early && f.upd.any fun x => { x with tag := u.tag } == u) hf
  simp only [Bool.and_eq_true, beq_iff_eq] at hp
  obtain ⟨⟨hw, -⟩, hupd⟩ := hp
  obtain ⟨x, hx⟩ : ∃ x, f.upd = some x := by
    cases hfu : f.upd with
    | none => rw [hfu] at hupd; cases hupd
    | some x => exact ⟨x, rfl⟩
  have heq : ordered s w u = winArrive s f := by simp only [ordered, hf]
  rw [heq, winArrive_eq hw hsrc hg hin, hx]
  refine ⟨fun hr => by simp only [hr, Bool.not_false, if_true],
    fun hr ht => by simp only [hr, ht, Option.isSome_some, Option.isNone_none, Bool.not_true, Bool.and_self, Bool.false_eq_true, if_false, if_true],
    fun hr ht hheld => ?_⟩
  have htag : g.tag.isNone = false := Option.isNone_eq_false_iff.2 (Option.isSome_iff_ne_none.2 ht)
  have hfree : frameHeld (putFlight t' f (some g)) x.pa = false := hheld x ((flightTag_upd hg).trans hx)
  simp only [hr, htag, hfree, Option.isSome_some, Option.any_some, Bool.not_true, Bool.and_false, Bool.true_and, Bool.false_eq_true, if_false,
    decide_eq_true_eq]
  exact ⟨fun hready => if_pos hready, fun hready hb => (if_neg (Bool.eq_false_iff.1 hready)).trans (if_neg (Nat.not_le.mpr hb)),
    fun hready hb => (if_neg (Bool.eq_false_iff.1 hready)).trans (if_pos hb)⟩

/-- The end marker of a source arrives: it takes effect once the source's updates have, or is kept (R112). -/
theorem endMark_arrives (hsrc : (winSources s w.p w.i).contains w.src = true) (hg : flightTag s f = (g, t'))
    (hin : flightInTime (putFlight t' f (some g)) g = true)
    (hf : s.fabric.flight.find? (fun f => f.win == w && !f.early && f.upd.isNone) = some f) (hr : winRoom s w = true) :
    let srcs := winSources s w.p w.i
    let t := putFlight t' f (some g)
    let turn := let v := winApply (winOpen t w) g; winClose (winDrain w srcs v.fabric.flight.length v) w srcs
    let early := putFlight (freeFlight (winOpen t w) g) g (some { g with tag := none, early := true })
    (winReady t srcs g = true → endMark s w = turn) ∧ (winReady t srcs g = false → endMark s w = early) := by
  intro srcs t turn early
  have hp := List.find?_some (p := fun f : Flight => f.win == w && !f.early && f.upd.isNone) hf
  simp only [Bool.and_eq_true, beq_iff_eq, Option.isNone_iff_eq_none] at hp
  obtain ⟨⟨hw, -⟩, hupd⟩ := hp
  have heq : endMark s w = winArrive s f := by simp only [endMark, hf]
  rw [heq, winArrive_eq hw hsrc hg hin, hupd]
  simp only [hr, Option.isSome_none, Option.any_none, Bool.not_true, Bool.false_and, Bool.false_eq_true, if_false]
  exact ⟨fun hready => if_pos hready, fun hready => if_neg (Bool.eq_false_iff.1 hready)⟩

end Arrival

theorem fmCopyDone_copying {s : State} {pa : Nat} (hc : s.health.copying.contains (pa / 4096) = true) :
    fmCopyDone s pa = vqGoAll (heldRelease { s with health := { s.health with
      copying := s.health.copying.filter (· ≠ pa / 4096)
      bad := s.health.bad.filter fun e => !(e.1 / 128 == pa / 4096 && e.2 == 1) } }) := if_pos hc

/-- Settles O54: reads, writes and updates by `MemSound`, windows by the order of `winArrive_eq`, frames and scrubs by their own rules. -/
theorem memoryResults : Obligations.MemoryResults := by
  unfold Obligations.MemoryResults
  intro s
  refine ⟨?request, ?update, ?window, ?turn, ?retire, ?copied, ?temp, ?sleep, ?scrub⟩
  case request =>
    intro r left
    refine ⟨fun ha hf hs => ?_, fun ha hf => ?_, fun d hd => ⟨fun ha hf ht hs => ?_, fun ha hf ht => ?_, fun v hatom hlive hshut hb => ?_⟩⟩
    · obtain ⟨t, hq, ht⟩ := readGo_sound (s := left) (r := r) hs ha.1
      have hgo := arrive_taken (kind := 0) (held := .read r) (go := readGo r) ha
      rw [hf] at hgo
      exact ⟨t, hq.2, hq.1.out, congrArg done (hgo.trans ht)⟩
    · have hgo := arrive_taken (kind := 0) (held := .read r) (go := readGo r) ha
      rw [hf] at hgo
      exact congrArg done hgo
    · have hgo := arrive_taken (kind := 1) (held := .write r d) (go := writeGo r d) ha
      rw [hf] at hgo
      obtain ⟨hm, ho⟩ := writeGo_sound (s := left) (r := r) hs ha.1 hd ht
      exact ⟨writeGo r d left, hm, ho, congrArg done ((memWrite_arrives hd).trans hgo)⟩
    · have hgo := arrive_taken (kind := 1) (held := .write r d) (go := writeGo r d) ha
      rw [hf] at hgo
      exact ⟨congrArg done ((memWrite_arrives hd).trans (hgo.trans (writeGo_late d ht))), (quiet_lateTag left 1 r).2⟩
    · exact congrArg done ((memWrite_arrives hd).trans (arrive_broken hatom hlive hshut hb))
  case update =>
    intro q u age held sz n xs left hok ha hf
    have hgo := unorderedUpd_arrives hok ha hf
    refine ⟨fun hnew ht hs => ?_, fun hnew ht => ?_, fun hold => ?_⟩
    · obtain ⟨happ, hmem⟩ := updGo_applies (s := left) (held := held) hok hnew ht hs
      exact ⟨updGo q u age held left, congrArg done hgo, happ, hmem⟩
    · exact congrArg done (hgo.trans (updGo_late (s := left) hnew ht))
    · exact congrArg done (hgo.trans (updGo_again (s := left) hold))
  case window =>
    intro w u f g t' srcs t turn early hsrc hg hin
    refine ⟨fun hf => ?_, fun hf hr => ?_⟩
    · obtain ⟨hfull, hline, hrest⟩ := ordered_arrives hsrc hg hin hf
      refine ⟨fun hr => congrArg done (hfull hr), fun hr ht => congrArg done (hline hr ht), fun hr ht hheld => ?_⟩
      obtain ⟨hturn, hearly, hstall⟩ := hrest hr ht hheld
      exact ⟨fun h => congrArg done (hturn h), fun h hb => congrArg done (hearly h hb), fun h hb => congrArg done (hstall h hb)⟩
    · obtain ⟨hturn, hearly⟩ := endMark_arrives hsrc hg hin hf hr
      exact ⟨fun h => congrArg done (hturn h), fun h => congrArg done (hearly h)⟩
  case turn => exact fun f u hu hret hok hs => winApply_update hu hret hok hs
  case retire =>
    intro pa f die used t hfar h16 hc
    refine ⟨fun hu => ?_, fun hu hu' => ?_⟩
    · have hlow : used + 1 < reserveFrames := by omega
      have hleft : 256 ≤ reserveFrames - used - 1 := by omega
      exact congrArg done (fmRetire_begins hfar h16 hc hlow (leftByte_large hleft))
    · have hleft : reserveFrames - used - 1 < 256 := by omega
      exact congrArg done (fmRetire_begins hfar h16 hc hu' (leftByte_small hleft))
  case copied =>
    intro pa hc t
    refine ⟨congrArg done (fmCopyDone_copying hc), fun hh hq => ?_, fun n r hh hf => heldRelease_read (s := t) hh hf⟩
    exact (congrArg vqGoAll (heldRelease_none (s := t) hh)).trans (vqGoAll_idle (s := t) hq)
  case temp => exact fun unit m hu => congrArg done (if_neg (Nat.not_le.mpr hu))
  case sleep => exact fun pkg hp => congrArg done (if_pos hp)
  case scrub => exact fun pa he hpa ht hr => ⟨scrubAtom s pa, rfl, scrubAtom_corrects he hpa ht hr⟩

end Sys2Proof.Machine

/-! PROOFS. The control of the near caches, and how a translation request is answered (O55). -/

namespace Sys2Proof.Machine

/-! ### Control of a near cache (R419–R422) -/

/-- `u` is `f` but for the near cache of one CD, which is `nc`. -/
def NcOnly (f u : State) (cd : Nat) (nc : Nc) : Prop :=
  u = { f with cds := u.cds } ∧ (∀ n, n ≠ cd → cdAt u n = cdAt f n) ∧ cdAt u cd = { cdAt f cd with nc := nc }

theorem ncOnly_modNc (f : State) (cd : Nat) (g : Nc → Nc) : NcOnly f (modNc f cd g) cd (g (ncOf f cd)) :=
  ⟨rfl, fun _ hn => cdAt_modCd_ne f _ hn, cdAt_modCd_same f cd _⟩

theorem NcOnly.modNc {f u : State} {cd : Nat} {nc : Nc} (h : NcOnly f u cd nc) (g : Nc → Nc) : NcOnly f (modNc u cd g) cd (g nc) := by
  obtain ⟨hu, hne, hcd⟩ := h
  refine ⟨?_, fun n hn => (cdAt_modCd_ne u _ hn).trans (hne n hn), ?_⟩
  · rw [hu]; rfl
  · rw [Machine.modNc, cdAt_modCd_same, hcd]

/-- An event of a near cache that changes nothing else. -/
theorem NcOnly.runs {i : Instr} {s f u : State} {cd : Nat} {nc nc' : Nc} (h : NcOnly f u cd nc') (he : exec i s = .next (settle u)) (hn : nc' = nc) :
    NcRuns i s f cd nc := by
  subst hn
  exact ⟨u, he, h⟩

theorem foldl_wbHealth_cds (l : List NcLine) (s : State) : (l.foldl wbHealth s).cds = s.cds := by
  induction l generalizing s with
  | nil => rfl
  | cons x l ih =>
    rw [List.foldl_cons, ih]
    unfold wbHealth
    split
    · generalize span (x.atom * 8) 8 = cws
      induction cws generalizing s with
      | nil => rfl
      | cons c cws ih => exact ih (setBad s c 0)
    · rfl

theorem ncOf_foldl_wbHealth (l : List NcLine) (s : State) (cd : Nat) : ncOf (l.foldl wbHealth s) cd = ncOf s cd := by
  rw [ncOf, ncOf, cdAt, cdAt, foldl_wbHealth_cds]

/-- Stored bytes of an atom back in the stack where a discarded line held them dirty. -/
def unwritten (s : State) (l : NcLine) : State := if l.dirty then { s with mem := putAtom s.mem l.atom l.stale } else s

theorem foldl_unwritten_cds (l : List NcLine) (s : State) : (l.foldl unwritten s).cds = s.cds := by
  induction l generalizing s with
  | nil => rfl
  | cons x l ih =>
    rw [List.foldl_cons, ih]
    unfold unwritten
    split <;> rfl

section NearCache

variable {s : State} {cd : Nat}

/-- An event of a near cache on a CD that exists. -/
theorem done_onCd (hcd : cd < 24) (f : State → State) : done (onCd cd f s) = .next (settle (f s)) := congrArg done (if_pos hcd)

theorem ncMeetsLost_false {q : NcLine → Bool} (h : ∀ l ∈ (ncOf s cd).lines, q l = true → lineLost l = false) : ncMeetsLost s cd q = false := by
  refine List.any_eq_false.2 fun l hl => ?_
  rw [Bool.and_eq_true]
  exact fun hq => Bool.false_ne_true ((h l hl hq.1).symm.trans hq.2)

theorem ncRuns_flush {nc : Nc} (hcd : cd < 24) (hn : (if (ncOf s cd).state = 2 then { ncOf s cd with
      flushBusy := true, flushSet := (((ncOf s cd).lines.filter (·.dirty)).map (·.atom)).foldl insertNat (ncOf s cd).flushSet } else ncOf s cd) = nc) :
    NcRuns (.ncFlush cd) s s cd nc := (ncOnly_modNc s cd _).runs (done_onCd hcd _) hn

theorem ncRuns_inv {nc : Nc} (hcd : cd < 24)
    (hn : (if (ncOf s cd).state = 0 then { ncOf s cd with state := 1 } else { ncOf s cd with invIgn := true }) = nc) :
    NcRuns (.ncInv cd) s s cd nc := (ncOnly_modNc s cd _).runs (done_onCd hcd _) hn

theorem ncRuns_enable {nc : Nc} (hcd : cd < 24) (hn : (if (ncOf s cd).state = 2 then ncOf s cd
      else if (ncOf s cd).state = 0 && (ncOf s cd).invOk then { ncOf s cd with state := 2, invOk := false }
      else { ncOf s cd with enRefused := true }) = nc) :
    NcRuns (.ncEnable cd) s s cd nc := (ncOnly_modNc s cd _).runs (done_onCd hcd _) hn

theorem ncRuns_disable {nc : Nc} (hcd : cd < 24) (hn : (if (ncOf s cd).state = 2 then { ncOf s cd with state := 3 } else ncOf s cd) = nc) :
    NcRuns (.ncDisable cd) s s cd nc := (ncOnly_modNc s cd _).runs (done_onCd hcd _) hn

theorem ncRuns_invDone (hcd : cd < 24) (h1 : (ncOf s cd).state = 1) :
    NcRuns (.ncInvDone cd) s ((ncOf s cd).lines.foldl unwritten s) cd { ncOf s cd with state := 0, invOk := true, lines := [] } := by
  have hnc : ncOf ((ncOf s cd).lines.foldl unwritten s) cd = ncOf s cd := by rw [ncOf, cdAt, foldl_unwritten_cds]; rfl
  have hrun := ((ncOnly_modNc ((ncOf s cd).lines.foldl unwritten s) cd fun nc => { nc with lines := [] }).modNc
    fun nc => { nc with state := 0, invOk := true })
  exact hrun.runs ((done_onCd hcd _).trans (congrArg done (if_pos h1))) (by rw [hnc])

theorem ncRuns_disableDone (hcd : cd < 24) (h3 : (ncOf s cd).state = 3) (hl : ∀ l ∈ (ncOf s cd).lines, lineLost l = false) :
    NcRuns (.ncDisableDone cd) s ((ncOf s cd).lines.foldl wbHealth s) cd
      { ncOf s cd with state := 0, flushBusy := false, flushSet := [], lines := [] } := by
  have hm : ncMeetsLost s cd (fun _ => true) = false := ncMeetsLost_false fun l h _ => hl l h
  have hd : ncDrop s cd (fun _ => true) = modNc ((ncOf s cd).lines.foldl wbHealth s) cd fun nc => { nc with lines := [] } := by
    have hall (l : List NcLine) : (l.filter fun _ => true) = l := List.filter_eq_self.2 fun _ _ => rfl
    have hnone (l : List NcLine) : (l.filter fun _ => false) = [] := List.filter_eq_nil_iff.2 fun _ _ => Bool.false_ne_true
    simp only [ncDrop, hall, Bool.not_true, hnone]
  have hgo : ncDisableDone s cd = modNc (ncDrop s cd fun _ => true) cd fun nc => { nc with state := 0, flushBusy := false, flushSet := [] } :=
    (if_neg (Classical.not_not.2 h3)).trans (if_neg (Bool.eq_false_iff.1 hm))
  have hrun := (ncOnly_modNc ((ncOf s cd).lines.foldl wbHealth s) cd fun nc => { nc with lines := [] }).modNc
    fun nc => { nc with state := 0, flushBusy := false, flushSet := [] }
  rw [hd] at hgo
  exact hrun.runs ((done_onCd hcd _).trans (congrArg done hgo)) (by rw [ncOf_foldl_wbHealth])

theorem ncRuns_flushDone (hcd : cd < 24) (hb : (ncOf s cd).flushBusy = true)
    (hl : ∀ l ∈ (ncOf s cd).lines, (ncOf s cd).flushSet.contains l.atom = true → lineLost l = false) :
    NcRuns (.ncFlushDone cd) s (((ncOf s cd).lines.filter fun l => (ncOf s cd).flushSet.contains l.atom).foldl wbHealth s) cd
      { ncOf s cd with
          flushBusy := false, flushSet := []
          lines := (ncOf s cd).lines.map fun l => if (ncOf s cd).flushSet.contains l.atom then { l with dirty := false, stale := [] } else l } := by
  have hm := ncMeetsLost_false hl
  have hgo : ncFlushDone s cd = modNc (ncClean s cd fun l => (ncOf s cd).flushSet.contains l.atom) cd
      fun nc => { nc with flushBusy := false, flushSet := [] } := by
    simp only [ncFlushDone, hb, hm, Bool.not_true, Bool.false_eq_true, if_false]
  have hrun := (ncOnly_modNc (((ncOf s cd).lines.filter fun l => (ncOf s cd).flushSet.contains l.atom).foldl wbHealth s) cd
    fun nc => { nc with lines := nc.lines.map fun l => if (ncOf s cd).flushSet.contains l.atom then { l with dirty := false, stale := [] } else l }).modNc
    fun nc => { nc with flushBusy := false, flushSet := [] }
  exact hrun.runs ((done_onCd hcd _).trans (congrArg done hgo)) (by rw [ncOf_foldl_wbHealth])

end NearCache

/-! ### Requests at the CTU (R439–R441) -/

section Ctu

variable {s : State} {q : XlatReq}

/-- The state with a request no longer at its local walker. -/
def leftLocal (s : State) (q : XlatReq) : State := { s with xlat := { s.xlat with local_ := s.xlat.local_.filter (· ≠ q) } }

/-- One request on a leaf: the structures are filled, then it proceeds or is refused. -/
theorem serveLeaf_one (e : Word) (lvl : Nat) (l1 : Option Word) : serveLeaf s e lvl l1 [q] =
    match judge (fillWalked s q e lvl l1) q e lvl with
    | .perm => refuseReq (fillWalked s q e lvl l1) q vPerm
    | .outside => refuseReq (fillWalked s q e lvl l1) q vOutside
    | _ => fillWalked s q e lvl l1 := rfl

theorem ctuWalk_off (h : spaceOn s q = false) : ctuWalk s q = refuseReq (leftLocal s q) q 2 := by
  simp only [ctuWalk, h, Bool.not_false, if_true]
  rfl

theorem ctuWalk_hit {e : Tlb} {l : List Tlb} (h : spaceOn s q = true) (hf : tlbFind q s.xlat.central = some (e, l)) :
    ctuWalk s q = serveLeaf { leftLocal s q with xlat := { (leftLocal s q).xlat with central := l } } e.pte e.level none [q] := by
  simp only [ctuWalk, h, hf, Bool.not_true, Bool.false_eq_true, if_false]
  rfl

/-- A request that misses the central TLB joins its walk, or waits for one while the list has room. -/
theorem ctuWalk_miss (h : spaceOn s q = true) (hf : (tlbFind q s.xlat.central).isNone = true) : ctuWalk s q =
    if !(s.xlat.walks.any fun w => w.reqs.any (sameMiss q)) && waitFull s then s
    else startWalks (joinMiss (leftLocal s q) q).xlat.waiting.length (joinMiss (leftLocal s q) q) := by
  rw [Option.isNone_iff_eq_none] at hf
  simp only [ctuWalk, h, hf, Bool.not_true, Bool.false_eq_true, if_false]
  rfl

theorem sameMiss_self (q : XlatReq) : sameMiss q q = true := by simp [sameMiss]

theorem samePage_self (q : XlatReq) : samePage q q = true := by simp [samePage, sameMiss]

theorem joinMiss_walk (hw : ∃ w ∈ s.xlat.walks, w.reqs.any (sameMiss q) = true) (hn : ∀ w ∈ s.xlat.walks, q ∉ w.reqs) :
    joinMiss s q = { s with xlat := { s.xlat with
      walks := s.xlat.walks.map fun w => if w.reqs.any (sameMiss q) then { w with reqs := w.reqs ++ [q] } else w } } := by
  have h1 : (s.xlat.walks.any fun w => w.reqs.contains q) = false := by
    refine List.any_eq_false.2 fun w hmem hc => hn w hmem ?_
    simpa using hc
  have h2 : (s.xlat.walks.any fun w => w.reqs.any (sameMiss q)) = true := List.any_eq_true.2 hw
  simp only [joinMiss, h1, h2, Bool.false_eq_true, if_false, if_true]

theorem joinMiss_waits (ha : ∀ w ∈ s.xlat.walks, w.reqs.any (sameMiss q) = false) (hf : waitFull s = false) (hw : s.xlat.waiting = []) :
    joinMiss s q = { s with xlat := { s.xlat with waiting := [q] } } := by
  have h2 : (s.xlat.walks.any fun w => w.reqs.any (sameMiss q)) = false := List.any_eq_false.2 fun w hmem => Bool.eq_false_iff.1 (ha w hmem)
  have h1 : (s.xlat.walks.any fun w => w.reqs.contains q) = false := by
    refine List.any_eq_false.2 fun w hmem hc => Bool.eq_false_iff.1 (ha w hmem) (List.any_eq_true.2 ⟨q, ?_, sameMiss_self q⟩)
    simpa using hc
  simp only [joinMiss, h1, h2, hf, hw, List.contains_nil, Bool.or_self, Bool.false_eq_true, if_false, List.nil_append]

/-- The one request that waits takes a free walker, with a tag of NW. -/
theorem startWalks_takes {u : State} (hw : s.xlat.waiting = [q]) (hf : s.xlat.walks.length < walkersMax s)
    (ht : walkTag s q (freeWalk s) = some u) :
    startWalks 1 s =
      let v := kilnRelease u fun x => x.type == 10 && x.index == freeWalk s
      { v with xlat := { v.xlat with waiting := [], walks := v.xlat.walks ++ [{ id := freeWalk s, reqs := [q] }] } } := by
  simp only [startWalks, hw, hf, ht, List.filter_nil, if_true]

/-- Where NW has no tag for its walk it stands first in line. -/
theorem startWalks_lines (hw : s.xlat.waiting = [q]) (hf : s.xlat.walks.length < walkersMax s) (ht : walkTag s q (freeWalk s) = none) :
    startWalks 1 s = addWaiter s 24
      { kind := 4, dest := homeDie (rootTable s q), addr := rootTable s q, ls := xreqLs s q, req := .walker q.p, first := true, granted := false } := by
  simp only [startWalks, hw, hf, ht, if_true]

theorem startWalks_busy (hw : s.xlat.waiting = [q]) (hf : walkersMax s ≤ s.xlat.walks.length) : startWalks 1 s = s := by
  simp only [startWalks, hw, Nat.not_lt.mpr hf, if_false]

/-- The state in which a request has left its local walker and waits alone for the CTU's. -/
def waitsAlone (s : State) (q : XlatReq) : State := { leftLocal s q with xlat := { (leftLocal s q).xlat with waiting := [q] } }

/-- What a request meets that misses the central TLB while none other waits and no walk in flight takes it (R440, R441). -/
theorem ctuWalk_alone (h : spaceOn s q = true) (hf : (tlbFind q s.xlat.central).isNone = true) (hw : s.xlat.waiting = [])
    (ha : ∀ w ∈ s.xlat.walks, w.reqs.any (sameMiss q) = false) (hfull : waitFull s = false) :
    ctuWalk s q = startWalks 1 (waitsAlone s q) := by
  rw [ctuWalk_miss h hf, hfull, Bool.and_false, if_neg Bool.false_ne_true, joinMiss_waits (s := leftLocal s q) ha hfull hw]
  rfl

theorem ctuWalk_full (h : spaceOn s q = true) (hf : (tlbFind q s.xlat.central).isNone = true)
    (ha : ∀ w ∈ s.xlat.walks, w.reqs.any (sameMiss q) = false) (hfull : waitFull s = true) : ctuWalk s q = s := by
  have h2 : (s.xlat.walks.any fun w => w.reqs.any (sameMiss q)) = false := List.any_eq_false.2 fun w hmem => Bool.eq_false_iff.1 (ha w hmem)
  rw [ctuWalk_miss h hf, h2, hfull]
  rfl

/-! ### Requests at a local walker (R439) -/

/-- A request that misses its nearest copy, at a walker with nothing else to do. -/
theorem localWalk_free (hcd : q.cd < 24) (hn : (tlbFind q (nearCopy s q)).isNone = true) (hl : s.xlat.local_ = []) :
    (24 ≤ q.cd || (spaceOn s q && (tlbFind q (nearCopy s q)).isSome) ||
      (4 ≤ (localMisses s q.cd).length && !(localMisses s q.cd).any (sameMiss q))) = false := by
  have hs : (tlbFind q (nearCopy s q)).isSome = false := by rw [← Option.not_isNone, hn]; rfl
  have hm : localMisses s q.cd = [] := by rw [localMisses, hl]; rfl
  rw [hs, hm, decide_eq_false (Nat.not_le.mpr hcd)]
  simp

theorem localWalk_cold (hcd : q.cd < 24) (hn : (tlbFind q (nearCopy s q)).isNone = true) (hl : s.xlat.local_ = []) (hfull : waitFull s = false)
    (hc : tget [] s.xlat.walkCache q.cd = []) : localWalk s q = ctuWalk s q := by
  have hh : walkHit s q = (none, s) := by rw [walkHit, hc]; rfl
  simp only [localWalk, localWalk_free hcd hn hl, hh, hfull, Bool.and_false, Bool.false_and, Bool.false_eq_true, if_false]

theorem localWalk_leaf {w : WalkEntry} {e : Word} {g h : State} {pa : Nat} (hcd : q.cd < 24) (hn : (tlbFind q (nearCopy s q)).isNone = true)
    (hl : s.xlat.local_ = []) (hon : spaceOn h q = true) (hh : walkHit s q = (some w, h))
    (hr : readPte h q q.cd (pteAddr w.pte + 8 * vaIndex q.va 2) = (some e, g)) (hv : pteV e = true) (hm : malformed g q.p e 2 = false)
    (hleaf : pteLeaf e = true) (had : admits e 2 q.access q.user q.cls = true) (hj : judge (fillLeaf g q e 2 false) q e 2 = .ok pa) :
    localWalk s q = fillLeaf g q e 2 false := by
  simp only [localWalk, localWalk_free hcd hn hl, hh, hon, hr, hv, hm, hleaf, had, hj, Bool.not_true, Bool.not_false, Bool.and_self,
    Bool.false_eq_true, if_false, if_true]

/-! ### The end of a walk (R442) -/

theorem PostOf.xlat {s u : State} (h : PostOf s u) : u.xlat = s.xlat := by
  obtain ⟨_, _, _, _, _, rfl⟩ := h
  rfl

/-- The walk of one request ends: its end is served. -/
theorem serveWalk_one {t : State} {x : Walked} (hr : walkRoot s q = (x, t)) : serveWalk s [q] = serveEnd t x [q] := by
  have hmine : served x.fin q [q] = [q] := by
    unfold served
    split
    · simp [samePage_self]
    · rfl
  simp only [serveWalk, hr, hmine, List.length_nil, serveRest]
  cases x.l2 <;> rfl

/-- A walk of one request leaves its walker; where none waits for the walker, its queue goes on. -/
theorem walkComplete_one {w : Walk} {v : State} (hw : s.xlat.walks.find? (fun x => x.id == w.id) = some w) (hq : w.reqs = [q])
    (hs : let r := ((owner s 24).tags.filter fun t => t.work == .walk w.id).foldl (fun s t => releaseTag s 24 t.num) s
      serveWalk { r with xlat := { r.xlat with walks := r.xlat.walks.filter fun x => x.id ≠ w.id } } [q] = v)
    (hv : v.xlat.waiting = []) : walkComplete s w.id = vqGo v q.p := by
  simp only [walkComplete, walkOver, hw, hq]
  rw [hs, hv]
  rfl

theorem serveEnd_leaf {x : Walked} {e : Word} {lvl : Nat} (hx : x.fin = .leaf e lvl) :
    ((∃ pa, judge (fillWalked s q e lvl x.l1) q e lvl = .ok pa) → serveEnd s x [q] = fillWalked s q e lvl x.l1) ∧
      (judge (fillWalked s q e lvl x.l1) q e lvl = .perm → serveEnd s x [q] = refuseReq (fillWalked s q e lvl x.l1) q 2) := by
  have heq : serveEnd s x [q] = serveLeaf s e lvl x.l1 [q] := by rw [serveEnd, hx]
  rw [heq, serveLeaf_one]
  refine ⟨fun ⟨pa, hj⟩ => ?_, fun hj => ?_⟩
  · rw [hj]
  · rw [hj]; rfl

theorem fillWalked_waiting (e : Word) (lvl : Nat) (l1 : Option Word) : (fillWalked s q e lvl l1).xlat.waiting = s.xlat.waiting := by
  have hleaf : (fillLeaf s q e lvl true).xlat.waiting = s.xlat.waiting := by
    unfold fillLeaf
    extract_lets t x x1 x2 x3
    have h1 : x1.waiting = s.xlat.waiting := rfl
    have h2 : x2.waiting = s.xlat.waiting := by
      simp only [x2]
      split
      · exact h1
      · exact h1
    simp only [x3]
    split
    · split
      · exact h2
      · exact h2
    · exact h2
  unfold fillWalked
  split
  · unfold fillWalk
    extract_lets w l
    split
    · exact hleaf
    · exact hleaf
  · exact hleaf

theorem serveEnd_absent_host {x : Walked} {pa lvl c : Nat} (hx : x.fin = .absent pa lvl) (hq : q.req = .hostRead c) :
    serveEnd s x [q] = send s (.nak c nakAccess) := by
  simp only [serveEnd, hx, walkAbsent, hq, List.filter_cons, List.filter_nil, Bool.false_eq_true, if_false, List.foldl_cons, List.foldl_nil]

theorem serveEnd_absent_desc {x : Walked} {pa lvl p i : Nat} (hx : x.fin = .absent pa lvl) (hq : q.req = .descriptor p i) :
    serveEnd s x [q] = holdReq (openFault s q (xreqLs s q) pa lvl).2 q := by
  simp only [serveEnd, hx, walkAbsent, hq, List.filter_cons, List.filter_nil, if_true, List.foldl_cons, List.foldl_nil, openFault]

theorem openFault_waiting (ls : LS) (pa lvl : Nat) : (openFault s q ls pa lvl).2.xlat.waiting = s.xlat.waiting := by
  unfold openFault openFaults
  split
  · rfl
  · dsimp only
    rw [(postOf_post ..).xlat]

theorem holdReq_desc_waiting {p i : Nat} (hq : q.req = .descriptor p i) : (holdReq s q).xlat.waiting = s.xlat.waiting := by
  rw [holdReq, hq]
  dsimp only
  split <;> rfl

end Ctu

/-- Settles O55: the near caches by `NcOnly`, the CTU by `ctuWalk_miss`, the walkers by `localWalk_free` and `walkComplete_one`. -/
theorem nearCacheAndWalkResults : Obligations.NearCacheAndWalkResults := by
  unfold Obligations.NearCacheAndWalkResults
  intro s
  refine ⟨?cache, ?request, ?walk⟩
  case cache =>
    intro cd hcd nc
    refine ⟨fun h2 => ⟨ncRuns_flush hcd (if_pos h2), ncRuns_enable hcd (if_pos h2), ncRuns_disable hcd (if_pos h2)⟩,
      fun h2 => ⟨ncRuns_flush hcd (if_neg h2), ncRuns_disable hcd (if_neg h2)⟩, fun h0 => ncRuns_inv hcd (if_pos h0),
      fun h0 => ncRuns_inv hcd (if_neg h0), fun h0 hok => ?_, fun h2 h0 => ?_, fun h1 => ncRuns_invDone hcd h1,
      fun h3 hl => ncRuns_disableDone hcd h3 hl, fun hb hl => ncRuns_flushDone hcd hb hl⟩
    · have h2 : (ncOf s cd).state ≠ 2 := fun h => absurd (h0.symm.trans h) (by decide)
      exact ncRuns_enable hcd ((if_neg h2).trans (if_pos (by rw [Bool.and_eq_true, decide_eq_true_eq]; exact ⟨h0, hok⟩)))
    · exact ncRuns_enable hcd ((if_neg h2).trans (if_neg (by rw [Bool.and_eq_true, decide_eq_true_eq]; exact h0)))
  case request =>
    intro q hv t miss alone waits
    have hctu : exec (.ctuWalk q) s = .next (settle (ctuWalk s q)) := congrArg done (if_pos hv)
    have hlocal : exec (.localWalk q) s = .next (settle (localWalk s q)) := congrArg done (if_pos hv)
    refine ⟨fun hoff => ?off, fun e l hon hf => ?hit, ?joins, ?walker, ?busy, ?full, fun hcd hn hl => ⟨?cold, ?leaf⟩⟩
    case off => rw [hctu, ctuWalk_off hoff]; rfl
    case hit =>
      intro u
      have hserve := serveLeaf_one (s := { leftLocal s q with xlat := { (leftLocal s q).xlat with central := l } }) (q := q) e.pte e.level none
      have hj : judge (fillWalked { leftLocal s q with xlat := { (leftLocal s q).xlat with central := l } } q e.pte e.level none) q e.pte e.level =
          judge s q e.pte e.level := rfl
      rw [hctu, ctuWalk_hit hon hf, hserve, hj]
      exact ⟨fun ⟨pa, h⟩ => by rw [h]; rfl, fun h => by rw [h]; rfl⟩
    case joins =>
      intro ⟨hn, hon, hw⟩ hany hnot
      have h2 : (s.xlat.walks.any fun w => w.reqs.any (sameMiss q)) = true := List.any_eq_true.2 hany
      rw [hctu, ctuWalk_miss hon hn, h2, joinMiss_walk (s := leftLocal s q) hany hnot]
      exact congrArg (fun n => done (startWalks n _)) (congrArg List.length hw)
    case walker =>
      intro ⟨hn, hon, hw⟩ ha hfull hfree
      have hgo := ctuWalk_alone hon hn hw ha hfull
      refine ⟨fun u hu => ?_, fun hu => ?_⟩
      · exact hctu.trans (congrArg done (hgo.trans (startWalks_takes (s := waitsAlone s q) rfl hfree hu)))
      · have hline := hctu.trans (congrArg done (hgo.trans (startWalks_lines (s := waitsAlone s q) rfl hfree hu)))
        exact ⟨_, rfl, rfl, hline⟩
    case busy =>
      intro ⟨hn, hon, hw⟩ ha hfull hbusy
      have hgo := ctuWalk_alone hon hn hw ha hfull
      exact hctu.trans (congrArg done (hgo.trans (startWalks_busy (s := waitsAlone s q) rfl hbusy)))
    case full => exact fun ⟨hn, hon, hw⟩ ha hfull => by rw [hctu, ctuWalk_full hon hn ha hfull]
    case cold =>
      intro hfull hc
      rw [hlocal, localWalk_cold hcd hn hl hfull hc, hctu]
      exact ⟨rfl, _, rfl⟩
    case leaf =>
      intro w e g h pa hon hh hr hpv hm hleaf had hj
      rw [hlocal, localWalk_leaf hcd hn hl hon hh hr hpv hm hleaf had hj]
  case walk =>
    intro w q t x hw hq r u ends hx ht
    have hserve : serveWalk u [q] = serveEnd t x [q] := serveWalk_one hx
    have hends {v : State} (he : serveEnd t x [q] = v) (hv : v.xlat.waiting = []) : ends v :=
      congrArg done (walkComplete_one hw hq (hserve.trans he) hv)
    refine ⟨fun e lvl hf => ?_, fun pa lvl hf => ⟨fun c hc => ?_, fun p i hd => ?_⟩⟩
    · obtain ⟨hok, hperm⟩ := serveEnd_leaf (s := t) (q := q) hf
      exact ⟨fun hj => hends (hok hj) ((fillWalked_waiting ..).trans ht), fun hj hwait => hends (hperm hj) hwait⟩
    · exact hends (serveEnd_absent_host hf hc) ht
    · exact hends (serveEnd_absent_desc hf hd) ((holdReq_desc_waiting hd).trans ((openFault_waiting ..).trans ht))

end Sys2Proof.Machine

/-! PROOFS. The counter of a link declared down (O56). -/

namespace Sys2Proof.Machine

theorem PostOf.fabric {s u : State} (h : PostOf s u) : u.fabric = s.fabric := by
  obtain ⟨_, _, _, _, _, rfl⟩ := h
  rfl

/-- The link as its declaration down leaves it, its counter saturating at 0xFF. -/
def downLink (l : Link) : Link :=
  { l with state := 5, downCnt := satInc l.downCnt 0xFF, window := [], errs := [], newLane := none, fwd := l.fwd.clear, back := l.back.clear }

/-- With no transaction on its path a link goes down with its record alone (R466). -/
theorem declareDown_clear {s : State} {k : Nat} (h : ∀ e ∈ s.fabric.owners, ∀ t ∈ e.2.tags, onPath s k t = false) :
    ∃ r, declareDown s k = bundleEnd (post (modLink s k downLink) r) k := by
  have hnil : (s.fabric.owners.flatMap fun o => o.2.tags).filter (onPath s k) = [] := by
    refine List.filter_eq_nil_iff.2 fun x hx => Bool.eq_false_iff.1 ?_
    obtain ⟨e, he, hx⟩ := List.mem_flatMap.1 hx
    exact h e he x hx
  simp only [declareDown, hnil, List.foldl_nil]
  exact ⟨_, rfl⟩

/-- A CD that has a link to its hub left keeps that hub (R469). -/
theorem bundleEnd_joined {s : State} {k : Nat} (h : bundleLost s (linkDies k).1 ((linkDies k).2 - 29) = false) : bundleEnd s k = s := by
  simp only [bundleEnd, h, Bool.not_false, if_true, ite_self]

/-- A state whose link 0 has a count of LINK_DOWN above the 8 bits of its field. -/
def countedLink : State :=
  { State.reset with fabric := { State.reset.fabric with links := [(0, { Link.reset with downCnt := 256 })] } }

/-- Link 0 down leaves CD 0 its other links to hub 0, whatever is posted. -/
theorem bundleEnd_countedLink (f : Link → Link) (r : Record) :
    bundleEnd (post (modLink countedLink 0 f) r) 0 = post (modLink countedLink 0 f) r := by
  refine bundleEnd_joined ?_
  have hl (j : Nat) : linkAt (post (modLink countedLink 0 f) r) j = linkAt (modLink countedLink 0 f) j := by
    rw [linkAt, linkAt, (postOf_post ..).fabric]
  have hne : linkAt (modLink countedLink 0 f) 1 = Link.reset := tget_tset_ne Link.reset countedLink.fabric.links 0 1 _ (by decide)
  have hd : linkDown (post (modLink countedLink 0 f) r) 1 = false := by rw [linkDown, hl, hne]; rfl
  have hmem : 1 ∈ bundle (linkDies 0).1 ((linkDies 0).2 - 29) := by decide
  exact List.all_eq_false.2 ⟨1, hmem, Bool.eq_false_iff.1 hd⟩

/-- A record posted after a change of link 0 leaves the change. -/
theorem linkAt_post_countedLink (f : Link → Link) (r : Record) :
    linkAt (post (modLink countedLink 0 f) r) 0 = f { Link.reset with downCnt := 256 } := by
  rw [linkAt, (postOf_post ..).fabric]
  exact tget_tset_same Link.reset countedLink.fabric.links 0 _

/-- Refutes O56: a link whose count of LINK_DOWN stands above 0xFF. The model's counter saturates to 0xFF (`satInc`); the statement keeps it at
256. -/
theorem not_fabricResults : ¬ Obligations.FabricResults := by
  unfold Obligations.FabricResults
  intro h
  obtain ⟨hlinks, -⟩ := h countedLink
  obtain ⟨-, -, hdown, -⟩ := hlinks 0 (by decide) rfl
  have hclear : ∀ e ∈ countedLink.fabric.owners, ∀ t ∈ e.2.tags, onPath countedLink 0 t = false := fun e he => absurd he List.not_mem_nil
  obtain ⟨r, hr⟩ := declareDown_clear hclear
  have heq := congrArg (fun s => (linkAt s 0).downCnt) (hr.symm.trans (hdown hclear))
  simp only [bundleEnd_countedLink, linkAt_post_countedLink] at heq
  exact absurd heq (by decide)

end Sys2Proof.Machine

/-! PROOFS. The host port: its link, its connections and their messages (O57). -/

namespace Sys2Proof.Machine

/-! ### Training (R488, R612) -/

/-- Table 15-1: the lanes of each mode. -/
theorem modeLanes_of {m lanes : Nat} (h : (m, lanes) ∈ [(1, 8), (2, 8), (3, 4), (4, 4), (5, 2)]) : modeLanes m = lanes := by
  simp only [List.mem_cons, Prod.mk.injEq, List.not_mem_nil, or_false] at h
  rcases h with ⟨rfl, rfl⟩ | ⟨rfl, rfl⟩ | ⟨rfl, rfl⟩ | ⟨rfl, rfl⟩ | ⟨rfl, rfl⟩ <;> rfl

section Port

variable {s : State}

/-- An attempt may be made: no link is up, the input is on, Reeve is not in recovery, and boot step 5 is reached. -/
theorem trainAttempt_ok {m lanes : Nat} {inv : Byte} (hr : s.power.rstLow = false) (hl : s.port.link ≠ 2) (hi : s.power.input = .on)
    (hrec : s.reeve.recovery = false) (hm : (portModes s).getD (s.port.tryMode % (portModes s).length) 0 = m)
    (hlanes : (m, lanes) ∈ [(1, 8), (2, 8), (3, 4), (4, 4), (5, 2)]) (h5 : 5 ≤ s.power.bootStep) :
    trainAttempt s true inv =
      let t := { s with port := { s.port with link := 2, mode := m, tryMode := 0, rxPol := inv &&& BitVec.ofNat 8 (2 ^ lanes - 1) } }
      if s.power.bootStep = 5 then { t with power := { s.power with bootStep := 6 } } else t := by
  simp only [trainAttempt, hl, hi, hr, hrec, Nat.not_lt.mpr h5, decide_false, ne_eq, not_true_eq_false, Bool.or_self, Bool.false_eq_true, if_false,
    if_true, hm, portTrained, modPort, modeLanes_of hlanes]

theorem trainAttempt_fails {inv : Byte} (hr : s.power.rstLow = false) (hl : s.port.link ≠ 2) (hi : s.power.input = .on)
    (hrec : s.reeve.recovery = false) (h5 : 5 < s.power.bootStep) :
    trainAttempt s false inv = { s with
      dt := max s.dt (s.dt + 500 * dtMs) % 2 ^ 64, port := { s.port with link := 1, tryMode := (s.port.tryMode + 1) % (portModes s).length } } := by
  have hlt : ¬ s.power.bootStep < 5 := by omega
  have hne : ¬ s.power.bootStep = 5 := by omega
  have hne' : ¬ (advanceTo s (s.dt + 500 * dtMs)).power.bootStep = 5 := hne
  simp only [trainAttempt, hl, hi, hr, hrec, hlt, decide_false, ne_eq, not_true_eq_false, Bool.or_self, Bool.false_eq_true, if_false, hne']
  rfl

/-! ### Frames and requests -/

theorem portUp_of (hr : s.power.rstLow = false) (hl : s.port.link = 2) : portUp s = true := by rw [portUp, hl, hr]; rfl

theorem bound_iff : bound s = true ↔ s.port.bindState = 2 := by rw [bound, beq_iff_eq]

theorem foreign_host {a : HostAddr} (h : s.port.bindState = 2 → s.port.host = some a) : foreign s a = false := by
  by_cases hb : s.port.bindState = 2
  · rw [foreign, decide_eq_false (Classical.not_not.2 (h hb)), Bool.and_false]
  · rw [foreign, Bool.eq_false_iff.2 (mt bound_iff.1 hb), Bool.false_and]

theorem foreign_other {a : HostAddr} (hb : s.port.bindState = 2) (h : s.port.host ≠ some a) : foreign s a = true := by
  rw [foreign, bound_iff.2 hb, decide_eq_true h]; rfl

section Up

variable (hup : portUp s = true)
include hup

theorem frameRx_discards {f : Frame}
    (h : s.phiro.eth.mtu + 22 < f.len ∨ 2 ≤ f.tags ∨ f.fcsOk = false ∨ f.kind = .other ∨ f.kind = .pause8023x) : frameRx s f = discard s := by
  unfold frameRx
  rw [hup, if_neg (by decide)]
  split
  · rfl
  · rename_i hbad
    have hk : f.kind = .other ∨ f.kind = .pause8023x := by
      simp only [Bool.or_eq_true, decide_eq_true_eq, Bool.not_eq_true', not_or] at hbad
      obtain ⟨⟨h1, h2⟩, h3⟩ := hbad
      exact ((h.resolve_left h1).resolve_left h2).resolve_left h3
    rcases hk with hk | hk <;> rw [hk]

/-- A frame that the port keeps goes to the row of what it carries. -/
theorem frameRx_kept {f : Frame} (hlen : f.len ≤ s.phiro.eth.mtu + 22) (ht : f.tags < 2) (hf : f.fcsOk = true) :
    (∀ c ce, f.kind = .roce c ce → frameRx s f = if foreign s f.from_ then refuse s else if ce then ceRx s c else s) ∧
    ∀ c ce, f.kind = .roceOpcode c ce → frameRx s f = if foreign s f.from_ then refuse s else opArrive (if ce then ceRx s c else s) c .bad := by
  have hgood : (decide (s.phiro.eth.mtu + 22 < f.len) || decide (2 ≤ f.tags) || !f.fcsOk) = false := by
    rw [hf, decide_eq_false (Nat.not_lt.mpr hlen), decide_eq_false (Nat.not_le.mpr ht)]; rfl
  constructor <;> intro c ce hk <;> simp only [frameRx, hup, hgood, hk, Bool.not_true, Bool.false_eq_true, if_false]

omit hup in
theorem ceRx_first {c : Nat} (hc : connUp s c = true) (ht : ∀ t, (conn s c).lastCnpTx = some t → t + 50 * dtUs ≤ s.dt) :
    ceRx s c = send (modConn s c fun k => { k with lastCnpTx := some s.dt }) (.cnp c) := by
  have hall : ((conn s c).lastCnpTx.all fun t => decide (t + 50 * dtUs ≤ s.dt)) = true := by
    cases h : (conn s c).lastCnpTx with
    | none => exact Option.all_none
    | some t => rw [Option.all_some, decide_eq_true (ht t h)]
  simp only [ceRx, hc, hall, Bool.and_self, if_true]

theorem cmReq_refused {q : ConnReq} (hf : foreign s q.from_ = false) (h : reqRefused s q = true) : cmReq s q = send s (.cm 1 q.index) := by
  simp only [cmReq, hup, hf, h, Bool.not_true, Bool.false_eq_true, if_false, if_true, cmRej]

theorem cmReq_accepted {q : ConnReq} (hf : foreign s q.from_ = false) (h : reqRefused s q = false) (hb : bound s = true) :
    cmReq s q = send (modConn s q.index fun _ =>
      { open_ := true, up := false, peer := q.from_, pathMtu := q.pathMtu, dscp := q.dscp, prio := q.prio, retry := q.retry,
        ackTimeout := q.ackTimeout, rate := 1, lastCnpTx := none, lastCnpRx := 0, ops := [] }) (.cm 0 q.index) := by
  have hb' (t : State) (x : Out) : bound (send t x) = bound t := rfl
  have hb'' (f : Conn → Conn) : bound (modConn s q.index f) = bound s := rfl
  simp only [cmReq, hup, hf, h, hb', hb'', hb, Bool.not_true, Bool.false_eq_true, if_false, if_true, cmRep]

theorem cmRtu_peer {c : Nat} {a : HostAddr} (hf : foreign s a = false) (ho : (conn s c).open_ = true) (hp : (conn s c).peer = a) :
    cmRtu s c a = modConn s c fun k => { k with up := true } := by
  simp only [cmRtu, hup, hf, ho, hp, decide_true, Bool.and_self, Bool.not_true, Bool.false_eq_true, if_false, if_true]

theorem cmDreq_peer {c : Nat} {a : HostAddr} (hf : foreign s a = false) (ho : (conn s c).open_ = true) (hp : (conn s c).peer = a) :
    cmDreq s c a = connOut (send s (.cm 2 c)) c := by
  simp only [cmDreq, hup, hf, ho, hp, decide_true, Bool.and_self, Bool.not_true, Bool.false_eq_true, if_false, if_true, cmDrep]

theorem cmRtu_foreign {c : Nat} {a : HostAddr} (hf : foreign s a = true) : cmRtu s c a = refuse s := by
  simp only [cmRtu, hup, hf, Bool.not_true, Bool.false_eq_true, if_false, if_true]

/-! ### Messages of a connection in their order (R101, R492) -/

variable {c : Nat}

/-- The state with a message behind those that a connection has. -/
def queueOp (s : State) (c : Nat) (x : RdmaOp) : State := modConn s c fun k => { k with ops := k.ops ++ [x] }

omit hup in
theorem conn_queueOp (s : State) (c : Nat) (x : RdmaOp) : conn (queueOp s c x) c = { conn s c with ops := (conn s c).ops ++ [x] } :=
  tget_tset_same Conn.closed s.port.conns c _

theorem msgCan_queueOp (hc : connUp s c = true) (x : RdmaOp) : msgCan (queueOp s c x) c = true := by
  rw [msgCan, connUp, conn_queueOp, show portUp (queueOp s c x) = portUp s from rfl, hup]
  exact hc

/-- Is a message an RDMA READ. -/
def isRdmaRead : RdmaOp → Bool
  | .read .. => true
  | _ => false

/-- What a message arrives as: the 65th RDMA READ as one that draws a NAK. -/
theorem opArrive_eq (hc : connUp s c = true) {op x : RdmaOp}
    (hx : (if decide (64 ≤ readsOut s c) && isRdmaRead op then .bad else op) = x) :
    opArrive s c op = serveOps c ((conn s c).ops.length + 1) (queueOp s c x) := by
  have hm : msgCan s c = true := by rw [msgCan, hup, hc]; rfl
  have hq : (conn (queueOp s c x) c).ops.length = (conn s c).ops.length + 1 := by rw [conn_queueOp, List.length_append]; rfl
  subst hx
  rw [← hq]
  simp only [opArrive, hm, Bool.not_true, Bool.false_eq_true, if_false]
  rfl

/-- A message with none before it is answered at once. -/
theorem serveOps_alone (hc : connUp s c = true) (ho : (conn s c).ops = []) {x : RdmaOp} {t : State} (hg : opGo (queueOp s c x) c x = (none, t)) :
    serveOps c ((conn s c).ops.length + 1) (queueOp s c x) = modConn t c fun k => { k with ops := k.ops.tail } := by
  have hops : (conn (queueOp s c x) c).ops = [x] := by rw [conn_queueOp, ho]; rfl
  rw [ho]
  simp only [List.length_nil, serveOps, hops, msgCan_queueOp hup hc, hg, Bool.not_true, Bool.false_eq_true, if_false]

/-- A message behind one that waits waits with it. -/
theorem serveOps_behind (hc : connUp s c = true) {x y z : RdmaOp} {l : List RdmaOp} {t : State} (ho : (conn s c).ops = x :: l)
    (hg : opGo (queueOp s c z) c x = (some y, t)) :
    serveOps c ((conn s c).ops.length + 1) (queueOp s c z) = modConn t c fun k => { k with ops := y :: k.ops.tail } := by
  have hops : (conn (queueOp s c z) c).ops = x :: (l ++ [z]) := by rw [conn_queueOp, ho]; rfl
  simp only [serveOps, hops, msgCan_queueOp hup hc, hg, Bool.not_true, Bool.false_eq_true, if_false]

/-- A message that the connection answers in its turn with none before it. -/
theorem opArrive_alone (hc : connUp s c = true) (ho : (conn s c).ops = []) {op : RdmaOp} {t : State} (hg : opGo (queueOp s c op) c op = (none, t)) :
    opArrive s c op = modConn t c fun k => { k with ops := k.ops.tail } := by
  have hfull : (decide (64 ≤ readsOut s c) && isRdmaRead op) = false := by rw [readsOut, ho]; rfl
  rw [opArrive_eq hup hc (if_neg (Bool.eq_false_iff.1 hfull)), serveOps_alone hup hc ho hg]

/-- One that is no RDMA READ, behind a message that waits. -/
theorem opArrive_send_behind (hc : connUp s c = true) {x y : RdmaOp} {l : List RdmaOp} {t : State} (ho : (conn s c).ops = x :: l)
    (hg : opGo (queueOp s c (.send none)) c x = (some y, t)) :
    opArrive s c (.send none) = modConn t c fun k => { k with ops := y :: k.ops.tail } := by
  rw [opArrive_eq hup hc (x := .send none) (if_neg (by rw [show isRdmaRead (.send none) = false from rfl, Bool.and_false]; decide)), serveOps_behind hup hc ho hg]

/-- The 65th RDMA READ, behind a message that waits. -/
theorem opArrive_read_behind (hc : connUp s c = true) {x y : RdmaOp} {l : List RdmaOp} {t : State} {key : Word32} {va n : Nat}
    (ho : (conn s c).ops = x :: l) (h64 : 64 ≤ readsOut s c) (hg : opGo (queueOp s c .bad) c x = (some y, t)) :
    opArrive s c (.read key va n []) = modConn t c fun k => { k with ops := y :: k.ops.tail } := by
  rw [opArrive_eq hup hc (x := .bad) (if_pos (by rw [decide_eq_true h64]; rfl)), serveOps_behind hup hc ho hg]

omit hup in
theorem nak_out {code : Nat} (h : code ≠ nakOp) : nak s c code = connOut (send s (.nak c code)) c := if_neg h

omit hup in
/-- An RDMA READ under a key that does not carry KEYCHK (R493). -/
theorem rdmaReadFrom_wrongKey {key : Word32} {va n : Nat} (hk : key.toNat / 256 ≠ s.port.keychk) (hn : n ≤ 2 ^ 31) :
    rdmaReadFrom s c key va n [] = (.nak nakAccess, s) := by
  have hlen : ¬ msgMax < n := by rw [msgMax]; omega
  have hkey : rkeyOf s key = .none := if_pos hk
  simp only [rdmaReadFrom, hlen, hkey, if_false]

/-! ### Congestion (R497, R498) -/

theorem pfcRx_obeyed {prios pause : Byte} (he : s.phiro.eth.pfcEn = true) :
    pfcRx s prios pause = modPort s fun o =>
      { o with pfcPaused := (o.pfcPaused &&& ~~~(prios &&& s.phiro.eth.pfcPrio)) ||| (pause &&& (prios &&& s.phiro.eth.pfcPrio)) } := by
  simp only [pfcRx, hup, he, Bool.not_true, Bool.false_eq_true, if_false]

/-- The level of a priority's receive buffer is kept. -/
def pfcKept (s : State) (prio n : Nat) : State := modPort s fun o => { o with pfcBytes := tset 0 o.pfcBytes prio n }

/-- A weir passed on a priority of PFC_PRIO that has not asked: above the upper one it asks, else only the level is kept. -/
theorem pfcLevel_idle {prio n : Nat} (hp : prio < 8) (hn : n ≤ 8 * 2 ^ 20) (he : s.phiro.eth.pfcEn = true)
    (hprio : s.phiro.eth.pfcPrio.getLsbD prio = true) (hask : s.port.pfcAsk.getLsbD prio = false) :
    pfcLevel s prio n = if pfcUpper < n then
      send (modPort (pfcKept s prio n) fun o => { o with pfcAsk := setBitV o.pfcAsk prio }) (.pfc prio true) else pfcKept s prio n := by
  have hg : (!portUp s || decide (8 ≤ prio) || decide (8 * 2 ^ 20 < n)) = false := by
    rw [hup, decide_eq_false (Nat.not_le.mpr hp), decide_eq_false (Nat.not_lt.mpr hn)]; rfl
  have hon : ((pfcKept s prio n).phiro.eth.pfcEn && (pfcKept s prio n).phiro.eth.pfcPrio.getLsbD prio) = true := Bool.and_eq_true _ _ ▸ ⟨he, hprio⟩
  have hask' : (pfcKept s prio n).port.pfcAsk.getLsbD prio = false := hask
  have hkept : (modPort s fun o => { o with pfcBytes := tset 0 o.pfcBytes prio n }) = pfcKept s prio n := rfl
  simp only [pfcLevel, hg, Bool.false_eq_true, if_false, hkept, hon, hask', Bool.not_false, Bool.and_false, Bool.and_true, Bool.true_and,
    Bool.false_and, decide_eq_true_eq]

end Up

end Port

/-- Settles O57: the port's rules by `portUp_of` and `foreign_host`, a connection's messages by `opArrive_eq` and `serveOps`. -/
theorem portResults : Obligations.PortResults := by
  unfold Obligations.PortResults
  intro s hr o put bound_
  refine ⟨?training, ?lanes, ?marks, fun hl => ?up, ?timed⟩
  case training =>
    intro hl hi hrec inv m lanes hm hlanes
    refine ⟨fun h5 => congrArg done ((trainAttempt_ok hr hl hi hrec hm hlanes (Nat.le_of_eq h5.symm)).trans (if_pos h5)),
      fun h5 => congrArg done ((trainAttempt_ok hr hl hi hrec hm hlanes (Nat.le_of_lt h5)).trans (if_neg (Nat.ne_of_gt h5))),
      fun h5 => congrArg done (trainAttempt_fails hr hl hi hrec h5)⟩
  case lanes =>
    intro e he hl hm l
    have hmode : modeLanes (lanesMode s) = e.2 := by
      rw [lanesMode, if_pos hl]
      exact (congrArg modeLanes hm).trans (modeLanes_of he)
    rw [portLane, hmode]
  case marks =>
    intro t x
    refine ⟨rfl, fun c hx => ?_⟩
    simp only [List.mem_cons, List.not_mem_nil, or_false] at hx
    rcases hx with rfl | rfl | rfl <;> rfl
  case timed =>
    intro c
    refine ⟨fun ho => congrArg done (if_pos ho), fun hc hrate => congrArg done (if_pos ?_)⟩
    rw [hc, decide_eq_true hrate]; rfl
  case up =>
    have hup : portUp s = true := portUp_of hr hl
    have hdown : ¬ (!portUp s) = true := by rw [hup]; decide
    refine ⟨congrArg done (if_pos hl), fun f hbad => congrArg done (frameRx_discards hup hbad), ?ce, fun a ip h => ?arp, fun a ip h => ?arpNo,
      fun a ip h => ?nd, fun a ip h h' => ?ndNo, fun a d => ?echo, fun q hf => ?cm, fun c a hf ho hp => ?peer,
      fun c a hb hf => congrArg done (cmRtu_foreign hup (foreign_other hb hf)), fun c hc => ?messages,
      fun prios pause he => congrArg done (pfcRx_obeyed hup he), ?weir, ?ack⟩
    case ce =>
      intro f c hlen ht hf hc hlast hhost hk
      have hgo := (frameRx_kept hup hlen ht hf).1 c true hk
      rw [foreign_host hhost] at hgo
      exact congrArg done (hgo.trans (ceRx_first hc hlast))
    case arp => exact congrArg done ((if_neg hdown).trans (if_pos (beq_iff_eq.2 h)))
    case arpNo => exact congrArg done ((if_neg hdown).trans (if_neg (mt beq_iff_eq.1 h)))
    case nd => exact congrArg done ((if_neg hdown).trans (if_pos (by simpa using h)))
    case ndNo => exact congrArg done ((if_neg hdown).trans (if_neg (by simpa using ⟨h, h'⟩)))
    case echo =>
      have hiff : (bound s && decide (s.port.host = some a)) = true ↔ bound_ ∧ o.host = some a := by
        rw [Bool.and_eq_true, bound_iff, decide_eq_true_eq]
      exact congrArg done ((if_neg hdown).trans (ite_congr (propext hiff) (fun _ => rfl) fun _ => rfl))
    case cm =>
      have hf' := foreign_host hf
      exact ⟨fun h => congrArg done (cmReq_refused hup hf' h), fun h hb => congrArg done (cmReq_accepted hup hf' h (bound_iff.2 hb))⟩
    case peer =>
      have hf' := foreign_host hf
      exact ⟨congrArg done (cmRtu_peer hup hf' ho hp), congrArg done (cmDreq_peer hup hf' ho hp)⟩
    case weir =>
      intro prio n hp hn he hprio hask
      have hgo := pfcLevel_idle hup hp hn he hprio hask
      exact ⟨fun h => congrArg done (hgo.trans (if_pos h)), fun h => congrArg done (hgo.trans (if_neg (Nat.not_lt.mpr h)))⟩
    case ack =>
      intro num t x hfind hx hc
      have hany : (t.host.any fun x => connUp s x.1) = true := by rw [hx]; exact hc
      refine ⟨fun hd => congrArg done ?_, fun hd => congrArg done ?_⟩
      · simp only [ackRx, hfind, hup, hany, decide_eq_true hd, Bool.and_self, if_true]
      · simp only [ackRx, hfind, hup, decide_eq_false (Nat.not_le.mpr hd), Bool.and_false, Bool.false_and, Bool.false_eq_true, if_false]
    case messages =>
      intro with_ done_ answered bad
      have hbad (ho : (conn s c).ops = []) : opArrive s c .bad = done_ bad := opArrive_alone hup hc ho (congrArg (Prod.mk none) (nak_out (by decide)))
      refine ⟨?sends, ?payload, ?opcode, fun hb => ?doorbell, fun hb => ?write, fun hb => ?read, fun hb => ?wrongKey, ?behind, fun hb => ?many, ?cnp⟩
      case sends =>
        intro d hd hlen ho
        have hop : (if (decide (4096 < d.length) || (bound s && !d.isEmpty)) = true then RdmaOp.bad else .send none) = .send none := by
          refine if_neg ?_
          rw [decide_eq_false (Nat.not_lt.mpr hlen), Bool.false_or, Bool.and_eq_true, bound_iff]
          exact fun h => absurd h.2 (by rw [hd h.1]; decide)
        exact congrArg done ((congrArg (opArrive s c) hop).trans (opArrive_alone hup hc ho rfl))
      case payload =>
        intro d hb hd ho
        have hop : (if (decide (4096 < d.length) || (bound s && !d.isEmpty)) = true then RdmaOp.bad else .send none) = .bad := by
          refine if_pos ?_
          rw [bound_iff.2 hb, List.isEmpty_eq_false_iff.2 hd, Bool.or_eq_true]
          exact .inr rfl
        exact congrArg done ((congrArg (opArrive s c) hop).trans (hbad ho))
      case opcode =>
        intro f hlen ht hf hhost hk ho
        have hgo := (frameRx_kept hup hlen ht hf).2 c false hk
        rw [foreign_host hhost] at hgo
        exact congrArg done (hgo.trans (hbad ho))
      case doorbell =>
        intro w ho
        have hop : sendImm s c [] w = opArrive s c (.send (some w)) := by rw [sendImm, bound_iff.2 hb]; rfl
        exact congrArg done (hop.trans (opArrive_alone hup hc ho rfl))
      case write =>
        intro key va d x im t hw
        have hop (im : Option Word32) : rdmaWriteMsg s c key va d im = opArrive s c (.write key va d im) := by
          rw [rdmaWriteMsg, bound_iff.2 hb]; rfl
        have hgo : opGo (queueOp s c (.write key va d im)) c (.write key va d im) = (none, ackMsg t c im) := by
          have hw' : rdmaWriteTo (queueOp s c (.write key va d im)) c key va d = (.ok x, t) := hw
          simp only [opGo, hw']
        refine ⟨fun him ho => ?_, fun w him ho => ?_⟩
        · subst him
          exact congrArg done ((hop none).trans (opArrive_alone hup hc ho hgo))
        · subst him
          exact congrArg done ((hop (some w)).trans (opArrive_alone hup hc ho hgo))
      case read =>
        intro key va n d t hread ho
        have hop : rdmaReadMsg s c key va n = opArrive s c (.read key va n []) := by rw [rdmaReadMsg, bound_iff.2 hb]; rfl
        have hgo : opGo (queueOp s c (.read key va n [])) c (.read key va n []) = (none, send t (.readResp c d)) := by
          have hread' : rdmaReadFrom (queueOp s c (.read key va n [])) c key va n [] = (.ok d, t) := hread
          simp only [opGo, hread']
        exact congrArg done (hop.trans (opArrive_alone hup hc ho hgo))
      case wrongKey =>
        intro key va n hk hn ho
        have hop : rdmaReadMsg s c key va n = opArrive s c (.read key va n []) := by rw [rdmaReadMsg, bound_iff.2 hb]; rfl
        have hread := rdmaReadFrom_wrongKey (s := queueOp s c (.read key va n [])) (c := c) (va := va) hk hn
        have hgo : opGo (queueOp s c (.read key va n [])) c (.read key va n []) =
            (none, connOut (send (queueOp s c (.read key va n [])) (.nak c nakAccess)) c) := by
          simp only [opGo, hread, nak_out (show nakAccess ≠ nakOp by decide)]
        exact congrArg done (hop.trans (opArrive_alone hup hc ho hgo))
      case behind =>
        intro x y l t ho hg
        have hop : sendMsg s c [] = opArrive s c (.send none) := by
          have hc' : (decide (4096 < ([] : List Byte).length) || (bound s && !([] : List Byte).isEmpty)) = false := by cases bound s <;> rfl
          rw [sendMsg, hc']; rfl
        exact congrArg done (hop.trans (opArrive_send_behind hup hc ho hg))
      case many =>
        intro x y l t key va n ho h64 hg
        have hop : rdmaReadMsg s c key va n = opArrive s c (.read key va n []) := by rw [rdmaReadMsg, bound_iff.2 hb]; rfl
        exact congrArg done (hop.trans (opArrive_read_behind hup hc ho h64 hg))
      case cnp =>
        have hg : (portUp s && connUp s c) = true := by rw [hup, hc]; rfl
        exact congrArg done (if_pos hg)

end Sys2Proof.Machine

/-! PROOFS. The binding exchange and Reeve's sideband (O58). -/

namespace Sys2Proof.Machine

/-! ### The exchange of R500 over the port -/

section Binding

variable {s : State} {a : HostAddr}

/-- A step is taken: the device counts it and answers. -/
def stepTaken (t : State) (k msg : Nat) (d : List Byte) : State :=
  send { t with port := { t.port with bindStep := k, bindState := 1 } } (.spdm false msg d)

theorem bound_false (hb : s.port.bindState ≠ 2) : bound s = false := Bool.eq_false_iff.2 (mt bound_iff.1 hb)

theorem foreign_unbound (hb : s.port.bindState ≠ 2) : foreign s a = false := foreign_host fun h => absurd h hb

section Unbound

variable (hup : portUp s = true) (hb : s.port.bindState ≠ 2) (hc : connUp s 0 = true) (hp : (conn s 0).peer = a)
include hup hb hc hp

/-- The peer on connection 0 of a device that is not bound takes a step, or draws an error (R500). -/
theorem portStep_unbound (isReq : Bool) (now : Nat → Bool) (next : Nat) (f : SpStep) :
    portStep s a isReq now next f =
      if !now s.port.bindStep then send s (.spdmError false spUnexpected)
      else match f s with
        | (.error e, s) => send s (.spdmError false e)
        | (.ok r, s) => stepTaken s next r.1 r.2 := by
  have hm : (!msgCan s 0 || decide ((conn s 0).peer ≠ a)) = false := by
    rw [msgCan, hup, hc, decide_eq_false (Classical.not_not.2 hp)]; rfl
  simp only [portStep, hup, foreign_unbound hb, bound_false hb, hm, Bool.not_true, Bool.false_eq_true, if_false] <;> rfl

theorem portStep_ok {isReq : Bool} {now : Nat → Bool} {next msg : Nat} {d : List Byte} {f : SpStep} {t : State}
    (hn : now s.port.bindStep = true) (hf : f s = (.ok (msg, d), t)) : portStep s a isReq now next f = stepTaken t next msg d := by
  rw [portStep_unbound hup hb hc hp, hn, hf]; rfl

theorem portStep_error {isReq : Bool} {now : Nat → Bool} {next e : Nat} {f : SpStep} {t : State}
    (hn : now s.port.bindStep = true) (hf : f s = (.error e, t)) : portStep s a isReq now next f = send t (.spdmError false e) := by
  rw [portStep_unbound hup hb hc hp, hn, hf]; rfl

theorem portStep_unexpected {isReq : Bool} {now : Nat → Bool} {next : Nat} {f : SpStep} (hn : now s.port.bindStep = false) :
    portStep s a isReq now next f = send s (.spdmError false 4) := by
  rw [portStep_unbound hup hb hc hp, hn]; rfl

/-- BIND after the seven steps binds the peer where its signature is good, else ends the attempt (R501). -/
theorem bindMsg_seventh {sig : Option (Nat × Nat)} {mac ip : Nat} (hn : s.port.bindStep = 7) :
    bindMsg s a sig mac ip = if bindGood s a sig mac ip then bindTo s a else connOut (send s (.spdmError false 1)) 0 := by
  have hm : (!msgCan s 0 || decide ((conn s 0).peer ≠ a)) = false := by
    rw [msgCan, hup, hc, decide_eq_false (Classical.not_not.2 hp)]; rfl
  simp only [bindMsg, hup, foreign_unbound hb, bound_false hb, hm, hn, ne_eq, not_true_eq_false, Bool.not_true, Bool.false_eq_true, if_false,
    spInvalid]

end Unbound

theorem stepIs_self {n k : Nat} (h : n = k) : stepIs k n = true := beq_iff_eq.2 h

/-- R501: without an owner key every BIND is good; with one, the key's signature over the nonce and the peer's addresses. -/
theorem bindGood_signed {sig : Option (Nat × Nat)} {mac ip : Nat} (h : ∀ k, s.reeve.owner = some k →
    a.mac = mac ∧ a.ip = ip ∧ ∃ g, sig = some g ∧ ecVerify k (Config.bindDigest s.port.bindNonce mac ip) g = true) :
    bindGood s a sig mac ip = true := by
  unfold bindGood
  split
  · rfl
  · rename_i k hk
    obtain ⟨hmac, hip, g, rfl, hv⟩ := h k hk
    rw [Option.any_some, hv, beq_iff_eq.2 hmac, beq_iff_eq.2 hip]; rfl

theorem bindGood_unsigned {mac ip : Nat} {k : Nat × Nat} (hk : s.reeve.owner = some k) : bindGood s a none mac ip = false := by
  simp only [bindGood, hk, Option.any_none, Bool.and_false]

end Binding

/-! ### The sideband (R575–R577) -/

section Sideband

variable {s : State}

/-- Reeve serves every request of the sideband: the input is on, and Reeve is neither in recovery nor frozen. -/
theorem sideband_serves {k : SbKind} (f : State → State) (hi : s.power.input = .on) (hr : s.reeve.recovery = false) (hf : s.reeve.frozen = false) :
    sideband k f s = f s := by
  simp only [sideband, hi, hr, hf, ne_eq, not_true_eq_false, Bool.false_and, Bool.false_eq_true, if_false]

theorem keyExchange_ready {auth : Bool} (h : 3 ≤ s.reeve.sbStep) :
    keyExchange s auth = send { s with reeve := { s.reeve with session := some (auth && s.reeve.owner.isSome) } } (.spdm true 0x64 []) :=
  if_neg (Nat.not_lt.mpr h)

theorem setEid_ok {e : Byte} (h0 : e ≠ 0) (h1 : e ≠ 0xFF) :
    setEid s e = send { s with reeve := { s.reeve with eid := e.toNat } } (.mctp 1 [0, 0, e]) := by
  refine if_neg ?_
  rw [Bool.or_eq_true, decide_eq_true_eq, decide_eq_true_eq]
  exact not_or.2 ⟨h0, h1⟩

theorem pldmQuery_known {q : Nat} (h2 : 2 ≤ q) (h5 : q ≤ 5) : pldmQuery s q = send s (.pldm q [0]) := by
  refine if_pos ?_
  rw [decide_eq_true h2, decide_eq_true h5]; rfl

theorem sensorReply_known {id : Nat} (h : id ∈ sensorIds) : sensorReply s id = send s (.pldm 0x11 (0 :: sensorRecord s id)) :=
  if_pos (List.contains_iff_mem.2 h)

theorem forceUnbind_owner (h : s.reeve.session = some true) : forceUnbind s true = forcedUnbind (send s (.pldm 0x39 [0])) := by
  refine if_pos ?_
  rw [h]; rfl

theorem requestUpdate_free {b : List Byte} (h : s.reeve.update = none) : requestUpdate s b =
    if fwCheck s b = 0x90 then send { s with reeve := { s.reeve with
        upd := 1, updPath := 2
        update := some (none, { image := b, svn := leAt b 0x10 4, sigOk := true, seq := (otherSlot s.reeve).seq, active := false }) } }
        (.pldm 0x10 [0])
      else send s (.pldm 0x10 (bytesLE 1 (fwCheck s b))) := by
  simp only [requestUpdate, h, Option.isSome_none, Bool.false_eq_true, if_false]
  rfl

theorem logReply_count {first n : Nat} (h0 : 0 < n) (h4 : n ≤ 4096) :
    logReply s first n = send s (.mctp 0x7F (bytesLE 1 0x90 ++ bytesLE 4 (logSpan s.reeve first n).2 ++
      bytesLE 8 ((logSpan s.reeve first n).1 + (logSpan s.reeve first n).2) ++ logBytes s.reeve (logSpan s.reeve first n).1 (logSpan s.reeve first n).2)) := by
  have hr : (decide (n = 0) || decide (4096 < n)) = false := by simp; omega
  simp only [logReply, hr, Bool.false_eq_true, if_false, mgOk]

theorem activateFw_ok {t : State} (h : fwActivate s = (mgOk, t)) : activateFw s = send t (.pldm 0x1A [0]) := by
  rw [activateFw, h]; rfl

end Sideband

/-- Settles O58: the steps by `portStep_unbound`, BIND by `bindMsg_seventh`, the sideband by `sideband_serves`. -/
theorem bindingResults : Obligations.BindingResults := by
  unfold Obligations.BindingResults
  intro s
  refine ⟨fun a hup hb hc hp => ?port, fun hb ho => ?timeout, fun hi hr hf => ?sideband⟩
  case port =>
    intro n step
    have taken {isReq : Bool} {now : Nat → Bool} {next msg : Nat} {d : List Byte} {f : SpStep} {t : State} (hn : now n = true)
        (hs : f s = (.ok (msg, d), t)) : done (portStep s a isReq now next f) = .next (settle (step t next msg d)) :=
      congrArg done (portStep_ok hup hb hc hp hn hs)
    refine ⟨fun h => taken (stepIs_self h) rfl, fun h => congrArg done
      (portStep_unexpected (now := stepIs 0) (isReq := false) (next := 1) (f := spOk spVersion) hup hb hc hp (beq_eq_false_iff_ne.2 h)),
      fun h => taken (stepIs_self h) rfl, fun h => taken (stepIs_self h) rfl, fun h => taken (stepIs_self h) rfl, fun h off len => ?certificate,
      fun h b => taken (stepIs_self h) rfl, fun h => taken (stepIs_self h) rfl, fun h sig mac ip => ⟨fun hsig => ?good, fun k hk hsig => ?bad⟩⟩
    case certificate =>
      have hn : (n == 4 || n == 5) = true := by rw [Bool.or_eq_true, beq_iff_eq, beq_iff_eq]; exact h
      split <;> rename_i hoff
      · have hs : certStep 0 off len s = (.error 1, s) := if_pos (by rw [decide_eq_true hoff, Bool.or_true])
        exact congrArg done (portStep_error (now := fun k => k == 4 || k == 5) hup hb hc hp hn hs)
      · have hs : certStep 0 off len s = (.ok (0x02, (Config.certChain.drop off).take len), s) :=
          if_neg (by rw [decide_eq_false hoff]; decide)
        exact taken (now := fun k => k == 4 || k == 5) hn hs
    case good => exact congrArg done ((bindMsg_seventh hup hb hc hp h).trans (if_pos (bindGood_signed hsig)))
    case bad =>
      subst hsig
      exact congrArg done ((bindMsg_seventh hup hb hc hp h).trans (if_neg (Bool.eq_false_iff.1 (bindGood_unsigned hk))))
  case timeout =>
    refine congrArg done (if_neg ?_)
    rw [bound_false hb, ho]; decide
  case sideband =>
    have serves {k : SbKind} (f : State → State) {t : State} (h : f s = t) : done (sideband k f s) = .next (settle t) :=
      congrArg done ((sideband_serves f hi hr hf).trans h)
    refine ⟨serves _ rfl, fun i nonce => ?measure, fun auth h => serves _ (keyExchange_ready h), fun e h0 h1 => serves _ (setEid_ok h0 h1),
      serves _ rfl, serves _ rfl, fun q h2 h5 => serves _ (pldmQuery_known h2 h5), fun id h => serves _ (sensorReply_known h),
      fun h => serves _ (forceUnbind_owner h), fun b h => serves _ (requestUpdate_free h), fun hu hv => ?activate, fun hb off first n h0 h4 => ?log⟩
    case measure => exact serves (fun s => measureReply s i nonce) rfl
    case activate => exact serves activateFw (activateFw_ok (fwActivate_ok hu hr hv))
    case log => exact serves (fun s => logReply s first n) (logReply_count h0 h4)

end Sys2Proof.Machine


/-! PROOFS. Spares and the kiln pass (R541–R554): a step's outcomes, the thresholds, pending swaps. -/

namespace Sys2Proof.Machine

section Spares

variable {s : State}

/-! ### The spare map -/

theorem spareMap_modSpare (s : State) (cd : Nat) (f : SpareMap → SpareMap) : spareMap (modSpare s cd f) cd = f (spareMap s cd) :=
  tget_tset_same SpareMap.fresh s.reeve.spares cd _

/-- The spare map is kept in MRAM: its area reads back right where no block of it is bad (R560). -/
theorem saveSpare_sound (hn : s.reeve.nvBad.contains 4 = false) (cd : Nat) (f : SpareMap → SpareMap) : saveSpare s cd f = modSpare s cd f := by
  rw [saveSpare, nvWrite_sound (area := areaId) hn]

theorem modCd_congr {cd : Nat} {f g : Cd → Cd} (h : f (cdAt s cd) = g (cdAt s cd)) : modCd s cd f = modCd s cd g := by
  rw [modCd, modCd, h]

/-! ### A kiln step -/

section KilnStep

variable {u : KilnUnit} {step got again : Nat} (hen : s.kiln.en = true) (hk : kilnTests u = true) (ht : testable s u = true)
  (hr : s.power.rstLow = false)

/-- The pass is on a unit, which it has tested. -/
def kilnStepOn (s : State) (u : KilnUnit) : State :=
  { s with kiln := { s.kiln with
    testing := s.kiln.testing.filter (·.die ≠ u.die) ++ [u], tested := s.kiln.tested.filter (· ≠ u) ++ [u] } }

include hen hk ht hr

theorem kilnStep_tests : kilnStep s u step got again =
    let e := Config.kilnExpected step % 2 ^ 32
    let t := kilnStepOn s u
    if got % 2 ^ 32 = e then sweepEnd (rotate t u)
    else if again % 2 ^ 32 = e then sweepEnd (rotate { t with kiln := { t.kiln with transient := satInc t.kiln.transient 0xFF } } u)
    else
      let v := { t with kiln := { t.kiln with fails := satInc t.kiln.fails 0xFF } }
      sweepEnd (unitFailed (post v (mkRec v (lsDevice u.die) 0x63 0 u.die (kilnUnitNo v u)
        (errBytes { reason := 0, step := step, got := again, exp := e }))) u) :=
  if_neg (by rw [hen, hk, ht, hr]; decide)

end KilnStep

/-- A failing walker leaves service while another serves (R553). -/
theorem unitFailed_walker {u : KilnUnit} (h : u.type = 10) (hl : (insertNat s.xlat.walkersOut u.index).length < 33) :
    unitFailed s u = { s with xlat := { s.xlat with walkersOut := insertNat s.xlat.walkersOut u.index } } := by
  simp only [unitFailed, h]
  exact if_neg (Nat.not_le.mpr hl)

theorem kilnUnitNo_walker {u : KilnUnit} (h : u.type = 10) : kilnUnitNo s u = 0xA000 + u.index := by
  simp only [kilnUnitNo, h]

theorem kilnLate_first (he : s.kiln.en = true) (hl : s.kiln.late = false) : kilnLate s =
    let t := { advanceTo s (s.kiln.sweepDt + (if s.kiln.hours = 0 then 24 else s.kiln.hours) * 3600 * dtS + 1) with
      kiln := { s.kiln with late := true } }
    post t (mkRec t (lsDevice 31) 0x64 0 31 0 (errBytes { addr := 0 })) :=
  if_neg (by rw [he, hl]; decide)

/-! ### Thresholds (R546) -/

theorem rowRepair_due {cd row : Nat} (hc : cd < 24) (h : 4 ≤ within24h s (tget [] s.health.rowHits (cd * 2 ^ 32 + row))) :
    rowRepair s cd row =
      let key := cd * 2 ^ 32 + row
      let die := cd * 16 + Config.dramDie row % 9
      let t := modCd { s with free := s.free + 1, health := { s.health with
        rowHits := tset [] s.health.rowHits key [], dieRepairs := tset 0 s.health.dieRepairs die (tget 0 s.health.dieRepairs die + 1) } } cd fun c =>
          { c with rowCopy := insertNat c.rowCopy row }
      post t (mkRec t (lsDevice cd) 0x60 0 cd (0x7000 + row % 4096)
        (errBytes { old := row % 65536, reason := 1, left := (Config.freeWord s.free).toNat % 256 })) := by
  refine if_neg ?_
  rw [decide_eq_false (Nat.not_le.mpr hc), decide_eq_false (Nat.not_lt.mpr h)]
  decide

theorem rowRepair_early {cd row : Nat} (h : within24h s (tget [] s.health.rowHits (cd * 2 ^ 32 + row)) < 4) : rowRepair s cd row = s :=
  if_pos (by rw [decide_eq_true h, Bool.or_true])

/-- With a spare of the kind that no pending swap has taken, a failed unit is to be swapped (R542). -/
theorem schedule_spare {cd type idx reason : Nat} (h : sparesFree s cd type idx ≠ 0) : schedule s cd type idx reason =
    modCd s cd fun c => { c with swaps := c.swaps ++ [{ type := type, index := idx, rotation := false, reason := reason }] } :=
  if_neg h

/-- The spare DRAM die is free while it is not marked and every pending swap of the kind only rotates. -/
theorem sparesFree_die {cd idx : Nat} (hb : (spareMap s cd).badDie.contains (spareMap s cd).dieOut = false)
    (hs : ∀ w ∈ (cdAt s cd).swaps, w.type = 6 → w.rotation = true) : sparesFree s cd 6 idx = 1 := by
  have hl : sparesLeft (spareMap s cd) 6 idx = 1 := by rw [sparesLeft, hb]; rfl
  have hf : ((cdAt s cd).swaps.filter fun w => w.type == 6 && !w.rotation && true) = [] := by
    refine List.filter_eq_nil_iff.2 fun w hw => ?_
    by_cases h6 : w.type = 6 <;> simp [h6, hs w hw]
  rw [sparesFree, hl]
  exact congrArg (fun l => 1 - List.length l) hf

theorem markBad_die {m : SpareMap} {d : Nat} (h : m.badDie = []) : markBad m 6 d = { m with badDie := [d] } := by
  simp only [markBad, h, insertNat]

theorem markBad_way {m : SpareMap} {b : Nat} (h : m.badWay = []) : markBad m 4 b = { m with badWay := [b] } := by
  simp only [markBad, h, insertNat]

theorem dieSwap_due {cd die : Nat} (hc : cd < 24) (hd : die < 9) (hn : s.reeve.nvBad.contains 4 = false) (ho : (spareMap s cd).dieOut ≠ die)
    (h64 : 64 ≤ tget 0 s.health.dieRepairs (cd * 16 + die)) (hb : (spareMap s cd).badDie = [])
    (hs : ∀ w ∈ (cdAt s cd).swaps, w.type = 6 → w.rotation = true) :
    let t := { s with health := { s.health with dieRepairs := tset 0 s.health.dieRepairs (cd * 16 + die) 0 } }
    dieSwap s cd die = modCd (modSpare t cd fun m => { m with badDie := [die] }) cd fun c =>
      { c with swaps := c.swaps ++ [{ type := 6, index := die, rotation := false, reason := 1 }] } := by
  intro t
  have hin : inService (spareMap s cd) 6 die = true := by rw [inService, decide_eq_true ho]
  have hsave : (saveSpare t cd fun m => markBad m 6 die) = modSpare t cd fun m => { m with badDie := [die] } := by
    rw [saveSpare_sound (s := t) hn, modSpare, modSpare]
    exact congrArg (fun m => { t with reeve := { t.reeve with spares := tset SpareMap.fresh t.reeve.spares cd m } }) (markBad_die hb)
  have hmap : spareMap (modSpare t cd fun m => { m with badDie := [die] }) cd = { spareMap s cd with badDie := [die] } :=
    spareMap_modSpare t cd _
  have hfree : sparesFree (modSpare t cd fun m => { m with badDie := [die] }) cd 6 die = 1 := by
    refine sparesFree_die ?_ hs
    rw [hmap]
    simpa using ho
  refine (if_neg ?_).trans ?_
  · rw [decide_eq_false (Nat.not_le.mpr hc), decide_eq_false (Nat.not_le.mpr hd), hin, decide_eq_false (Nat.not_lt.mpr h64)]; decide
  · show schedule (saveSpare t cd fun m => markBad m 6 die) cd 6 die 1 = _
    rw [hsave]
    exact schedule_spare (by rw [hfree]; decide)

/-! ### Way swaps -/

/-- A built way whose spare is the one out of service is swapped for it at once: its lines leave it, then the map (R544). -/
theorem takeSwap_way {cd way : Nat} (hn : s.reeve.nvBad.contains 4 = false) (hw : way < 16) (ho : (spareMap s cd).wayOut ≠ way)
    (hb : (spareMap s cd).badWay = [way]) :
    let m := spareMap s cd
    let t := modSpare (dropWay s cd way) cd fun _ => { m with wayOut := way }
    takeSwap s cd { type := 4, index := way, rotation := false, reason := 1 } =
      post t (mkRec t (lsDevice cd) 0x60 0 cd (0x4000 + way) (errBytes { old := way, new := m.wayOut, reason := 1, left := 0 })) := by
  intro m t
  have hin : inService (spareMap s cd) 4 way = true := by rw [inService, decide_eq_true ho]
  have hleft : sparesLeft (spareMap s cd) 4 way = 1 := by simp [sparesLeft, hb, ho, b2n]
  have hleft' : sparesLeft { spareMap s cd with wayOut := way } 4 way = 0 := by simp [sparesLeft, hb, b2n]
  have hused : usedWay (spareMap s cd) way = way := if_neg (by omega)
  simp only [takeSwap, hin, hleft, nvWrite_sound (area := areaId) hn, swapIn, hused, hleft', Bool.not_true, Bool.false_eq_true, if_false]
  rfl

theorem waySwap_due {cd way : Nat} (hc : cd < 24) (hw : way < 16) (hn : s.reeve.nvBad.contains 4 = false) (hb : (spareMap s cd).badWay = [])
    (ho : way ≠ (spareMap s cd).wayOut) (hd : s.health.wayDue.contains (cd * 32 + way) = false)
    (h16 : 16 ≤ within24h s (tget [] s.health.wayHits (cd * 32 + way))) :
    let m := spareMap s cd
    let key := cd * 32 + way
    let t := { s with health := { s.health with wayHits := tset [] s.health.wayHits key [], wayDue := s.health.wayDue.filter (· ≠ key) } }
    let t := dropWay (modSpare t cd fun m => { m with badWay := [way] }) cd way
    let t := modSpare t cd fun _ => { m with badWay := [way], wayOut := way }
    waySwap s cd way = post t (mkRec t (lsDevice cd) 0x60 0 cd (0x4000 + way)
      (errBytes { old := way, new := m.wayOut, reason := 1, left := 0 })) := by
  intro m key t
  have hbuilt : builtWay (spareMap s cd) way = way := if_neg ho
  have hsave : (saveSpare t cd fun m => markBad m 4 way) = modSpare t cd fun m => { m with badWay := [way] } := by
    rw [saveSpare_sound (s := t) hn, modSpare, modSpare]
    exact congrArg (fun m => { t with reeve := { t.reeve with spares := tset SpareMap.fresh t.reeve.spares cd m } }) (markBad_way hb)
  have hmap : spareMap (modSpare t cd fun m => { m with badWay := [way] }) cd = { m with badWay := [way] } := spareMap_modSpare t cd _
  have hleft : sparesLeft { m with badWay := [way] } 4 way ≠ 0 := by simp [sparesLeft, m, ho.symm, b2n]
  refine (if_neg ?_).trans ?_
  · rw [decide_eq_false (Nat.not_le.mpr hc), decide_eq_false (Nat.not_le.mpr hw), hd, decide_eq_false (Nat.not_lt.mpr h16)]; decide
  · simp only [hbuilt]
    show (if sparesLeft (spareMap (saveSpare t cd fun m => markBad m 4 way) cd) 4 way = 0 then _ else
      takeSwap (saveSpare t cd fun m => markBad m 4 way) cd { type := 4, index := way, rotation := false, reason := if s.health.wayDue.contains key then 2 else 1 }) = _
    rw [hsave, hmap, if_neg hleft, hd]
    have h := takeSwap_way (s := modSpare t cd fun m => { m with badWay := [way] }) (cd := cd) hn hw (by rw [hmap]; exact ho.symm) (by rw [hmap])
    rw [hmap] at h
    exact h

/-! ### Pending swaps -/

/-- The one pending swap of a CD takes effect at its moment. -/
theorem swapsNow_one {cd : Nat} {w : Swap} (h : (cdAt s cd).swaps = [w]) (hn : swapNow s cd w = true) :
    swapsNow s cd = takeSwap (modCd s cd fun c => { c with swaps := [] }) cd w := by
  have hf : (cdAt s cd).swaps.filter (swapNow s cd) = [w] := by rw [h, List.filter_cons_of_pos hn, List.filter_nil]
  have hc : (modCd s cd fun c => { c with swaps := c.swaps.filter fun v => !([w].contains v) }) = modCd s cd fun c => { c with swaps := [] } :=
    modCd_congr (by simp [h])
  rw [swapsNow, hf, hc]
  rfl

theorem swapsNow_later {cd : Nat} {w : Swap} (h : (cdAt s cd).swaps = [w]) (hn : swapNow s cd w = false) :
    swapsNow s cd = modCd s cd fun c => { c with swaps := [w] } := by
  have hf : (cdAt s cd).swaps.filter (swapNow s cd) = [] := by rw [h, List.filter_cons_of_neg (Bool.eq_false_iff.1 hn), List.filter_nil]
  rw [swapsNow, hf]
  exact modCd_congr (by simp [h])

end Spares

/-- Settles O59: each event by the lemma of its outcome. -/
theorem spareResults : Obligations.SpareResults := by
  unfold Obligations.SpareResults
  intro s
  refine ⟨fun u step got again hen hk ht hr => ?kiln, fun u => rfl, fun he hl => congrArg done (kilnLate_first he hl), fun cd row hc => ?row,
    fun cd die hc hd hn ho h64 hb hs => congrArg done (dieSwap_due hc hd hn ho h64 hb hs), fun cd way hc hw hn => ?way, fun cd w hc hs => ?swap,
    fun cd hc => congrArg done (if_neg (by rw [List.isEmpty_iff]; exact hc))⟩
  case kiln =>
    have hk := kilnStep_tests (step := step) (got := got) (again := again) hen hk ht hr
    intro e t
    refine ⟨fun hg => congrArg done (hk.trans (if_pos hg)), fun hg ha => congrArg done (hk.trans ((if_neg hg).trans (if_pos ha))),
      fun hg ha h10 hl => ?_⟩
    intro v w
    have hx : w.xlat = s.xlat := (postOf_post v _).xlat
    have hf : unitFailed w u = { w with xlat := { w.xlat with walkersOut := insertNat s.xlat.walkersOut u.index } } := by
      rw [unitFailed_walker h10 (by rw [hx]; exact hl), hx]
    refine congrArg done (hk.trans ((if_neg hg).trans ((if_neg ha).trans ?_)))
    rw [← hf]
    simp only [kilnUnitNo_walker h10]
    rfl
  case row =>
    intro key die
    refine ⟨fun h => congrArg done (rowRepair_due hc h), fun h => congrArg done (rowRepair_early h), fun h => congrArg done (if_pos h)⟩
  case way =>
    intro m key hb ho hd h16
    exact congrArg done (waySwap_due hc hw hn hb ho hd h16)
  case swap =>
    exact ⟨fun hn => congrArg done ((if_pos hc).trans (swapsNow_one hs hn)), fun hn => congrArg done ((if_pos hc).trans (swapsNow_later hs hn))⟩

end Sys2Proof.Machine


/-! PROOFS. Power, resets and boot (R584–R597, R603–R613, R624): one lemma per event while the input is on, then the input's own. -/

namespace Sys2Proof.Machine

section Powered

variable {s : State}

theorem powered_of (h : s.power.input = .on) : powered s = true := beq_iff_eq.2 h

/-- The guard that an event drops on a module without its input. -/
theorem not_powered (h : s.power.input = .on) : ¬ (!powered s) = true := by
  rw [powered_of h]; decide

/-! ### Sensors (R594–R596) -/

/-- STATE of a sample of a die's sensor (Table 19-3). -/
theorem sensorState_die {id old : Nat} {v : Int} (h : id < 0x20) : sensorState s id old v =
    if 105000 ≤ v then 2 else if 95000 ≤ v then 1 else if (old = 1 ∨ old = 2) ∧ 92000 < v then 1 else 0 := by
  have hl : tempLimits s id = some (95000, 105000, some 115000) := if_pos h
  simp only [sensorState, hl, Bool.and_eq_true, Bool.or_eq_true, decide_eq_true_eq]
  rfl

theorem sensorState_die_cases {id old : Nat} {v : Int} (h : id < 0x20) :
    sensorState s id old v = 0 ∨ sensorState s id old v = 1 ∨ sensorState s id old v = 2 := by
  rw [sensorState_die h]
  by_cases hcrit : 105000 ≤ v
  · exact .inr (.inr (if_pos hcrit))
  · rw [if_neg hcrit]
    by_cases hwarn : 95000 ≤ v
    · exact .inr (.inl (if_pos hwarn))
    · rw [if_neg hwarn]
      split
      · exact .inr (.inl rfl)
      · exact .inl rfl

/-- A die's sample below the trip threshold is kept, with the record of a warning or critical STATE that is new. -/
theorem sensorSample_die {id : Nat} {v : Int} (hi : s.power.input = .on) (hid : id ∈ sensorIds) (h : id < 0x20) (hv : v < 115000) :
    let st := sensorState s id (sensorAt s id).state v
    let t := { s with power := { s.power with sensors := tset Sensor.unread s.power.sensors id { value := v, state := st, dt := s.dt } } }
    sensorSample s id (some v) = if st ≠ (sensorAt s id).state && (st = 1 || st = 2) then thermalRecord t id v st else t := by
  intro st t
  have hg : ¬ (!powered s || !sensorIds.contains id) = true := by rw [powered_of hi, List.contains_iff_mem.2 hid]; decide
  have hf : (some v).filter (sampleOk s id) = some v := by
    refine Option.filter_eq_some_iff.2 ⟨rfl, ?_⟩
    have hb : id ≠ 0xB0 := by omega
    rw [sampleOk, decide_eq_true hb, Bool.true_or]
  have hl : tempLimits s id = some (95000, 105000, some 115000) := if_pos h
  have hthr (u : State) : stackThrottle u id v st = u := if_pos (by rw [decide_eq_true h, Bool.true_or])
  have htrip (b : Bool) : ¬ (decide (115000 ≤ v) && b) = true := by
    rw [decide_eq_false (by omega), Bool.false_and]
    exact Bool.false_ne_true
  refine (if_neg hg).trans ?_
  simp only [hf, hl]
  rw [if_neg (htrip _)]
  show (if _ then thermalRecord (stackThrottle t id v st) id v st else stackThrottle t id v st) = _
  rw [hthr]

theorem thermalRecord_die {id st : Nat} {v : Int} (h : id < 0x20) : thermalRecord s id v st =
    post s (mkRec s (lsDevice 31) 0x51 0 31 0 (powerBytes id v s.power.step (max s.power.pstep (nextTstep s)) 0)) := by
  have ha : ¬ (id = 0xB0 || decide (0x38 ≤ id)) = true := by simp; omega
  have hs : ¬ (decide (0x20 ≤ id && id < 0x38) && decide (st = 2)) = true := by simp; omega
  simp only [thermalRecord, if_neg ha, if_neg hs]

theorem sensorSample_unavailable {id : Nat} (hi : s.power.input = .on) (hid : id ∈ sensorIds) : sensorSample s id none =
    let x : Sensor := { value := ((Config.freeWord s.free).truncate 32).toInt, state := 3, dt := s.dt }
    { s with free := s.free + 1, power := { s.power with sensors := tset Sensor.unread s.power.sensors id x } } :=
  if_neg (by rw [powered_of hi, List.contains_iff_mem.2 hid]; decide)

/-! ### COOL_ID (R68, R70) -/

theorem coolSample_hit {code : BitVec 3} (hi : s.power.input = .on) (hf : s.reeve.frozen = false) (hl : s.phiro.loaded = true)
    (hc : coolProfile code = s.phiro.profile) : coolSample s code = { s with phiro := { s.phiro with
      coolId := code, missRun := 0, hitRun := min (s.phiro.hitRun + 1) 2, forced := s.phiro.forced && decide (s.phiro.hitRun = 0) } } := by
  have hh : decide (min (s.phiro.hitRun + 1) 2 < 2) = decide (s.phiro.hitRun = 0) := decide_eq_decide.2 (by omega)
  simp only [coolSample, powered_of hi, hf, hl, hc, hh, Bool.not_true, Bool.or_self, Bool.false_eq_true, if_false, if_true]

theorem coolSample_miss {code : BitVec 3} (hi : s.power.input = .on) (hf : s.reeve.frozen = false) (hl : s.phiro.loaded = true)
    (hc : coolProfile code ≠ s.phiro.profile) : coolSample s code =
      let t := { s with phiro := { s.phiro with
        coolId := code, missRun := min (s.phiro.missRun + 1) 2, hitRun := 0, forced := s.phiro.forced || decide (0 < s.phiro.missRun) } }
      if 0 < s.phiro.missRun ∧ s.phiro.forced = false then
        post t (mkRec t (lsDevice 31) 0x50 0 31 0 (errBytes { extra := code.toNat + s.phiro.profile <<< 4 }))
      else t := by
  have hm : decide (2 ≤ min (s.phiro.missRun + 1) 2) = decide (0 < s.phiro.missRun) := decide_eq_decide.2 (by omega)
  simp only [coolSample, powered_of hi, hf, hl, hc, hm, Bool.not_true, Bool.or_self, Bool.false_eq_true, if_false, Bool.and_eq_true,
    decide_eq_true_eq, Bool.not_eq_true']

/-! ### The governor and the clamp (R590) -/

/-- What an evaluation on `p` mW writes, whatever it decides of the power step. -/
def governed (s : State) (p ps : Nat) (od : Tbl Nat) : State :=
  { s with power := { s.power with
    inW := min (p / 1000) 65535, overDt := od, pstep := ps, tstep := nextTstep s, step := max ps (nextTstep s), clamp := false } }

theorem governorEval_running {p : Nat} (hi : s.power.input = .on) (hf : s.reeve.frozen = false) : governorEval s p =
    let w := s.power
    let cap := 1000 * capW s
    let high := decide (98 * cap < 100 * p)
    let old := match tfind w.overDt (w.pstep - 1) with | some t => decide (t + 100 * dtMs ≤ s.dt) | none => true
    governed s p (if high then min (w.step + 1) 7 else if 100 * p < 90 * cap && 0 < w.pstep && old then w.pstep - 1 else w.pstep)
      (if high then tins w.overDt w.step s.dt else w.overDt) := by
  simp only [governorEval, powered_of hi, hf, Bool.not_true, Bool.false_eq_true, if_false] <;> rfl

theorem governorEval_high {p : Nat} (hi : s.power.input = .on) (hf : s.reeve.frozen = false) (h : 98 * (1000 * capW s) < 100 * p) :
    governorEval s p = governed s p (min (s.power.step + 1) 7) (tins s.power.overDt s.power.step s.dt) := by
  rw [governorEval_running hi hf]
  simp only [decide_eq_true h, if_true]

theorem governorEval_holds {p : Nat} (hi : s.power.input = .on) (hf : s.reeve.frozen = false) (h : 100 * p ≤ 98 * (1000 * capW s))
    (hl : 90 * (1000 * capW s) ≤ 100 * p ∨ s.power.pstep = 0) : governorEval s p = governed s p s.power.pstep s.power.overDt := by
  have hn : (decide (100 * p < 90 * (1000 * capW s)) && decide (0 < s.power.pstep)) = false := by simp; omega
  rw [governorEval_running hi hf]
  simp only [decide_eq_false (Nat.not_lt.mpr h), hn, Bool.false_and, Bool.false_eq_true, if_false]

theorem governorEval_low {p : Nat} (hi : s.power.input = .on) (hf : s.reeve.frozen = false) (h : 100 * p < 90 * (1000 * capW s))
    (hs : 0 < s.power.pstep) (ho : ∀ t, tfind s.power.overDt (s.power.pstep - 1) = some t → t + 100 * dtMs ≤ s.dt) :
    governorEval s p = governed s p (s.power.pstep - 1) s.power.overDt := by
  have hold : (match tfind s.power.overDt (s.power.pstep - 1) with | some t => decide (t + 100 * dtMs ≤ s.dt) | none => true) = true := by
    split
    · next t ht => exact decide_eq_true (ho t ht)
    · rfl
  have hh : ¬ 98 * (1000 * capW s) < 100 * p := by omega
  rw [governorEval_running hi hf]
  simp only [decide_eq_false hh, decide_eq_true h, decide_eq_true hs, hold, Bool.and_self, Bool.false_eq_true, if_false, if_true]

theorem powerClamp_above {p : Nat} (hi : s.power.input = .on) (h : 110 * 1000 * capW s < 100 * p) : powerClamp s p =
    let t := { s with power := { s.power with step := max s.power.step 5, clamp := true } }
    post t (mkRec t (lsDevice 31) 0x53 0 31 0 (powerBytes 0x42 p s.power.step (max s.power.step 5) 0)) :=
  if_neg (by rw [powered_of hi, decide_eq_false (Nat.not_le.mpr h)]; decide)

/-! ### Resets and boot (R603, R606, R607) -/

theorem coldBegins_asked {c : Nat} (hi : s.power.input = .on) (hr : s.power.rstLow = false) (hq : s.power.rstReq = some c)
    (hc : c = 1 ∨ c = 2 ∨ c = 3 ∨ c = 5) : coldBegins s c = coldState s c := by
  have hcold : causeCold c = true := by rcases hc with rfl | rfl | rfl | rfl <;> rfl
  refine if_pos ?_
  rw [powered_of hi, hr, hcold, beq_iff_eq.2 hq]; rfl

theorem warmBegins_asked {c : Nat} (hi : s.power.input = .on) (hr : s.power.rstLow = false) (hq : s.power.rstReq = some c)
    (hc : c = 4 ∨ c = 6) : warmBegins s c = warmState (resetMoment s c) c := by
  have hwarm : (c == 4 || c == 6) = true := by rcases hc with rfl | rfl <;> rfl
  refine if_pos ?_
  rw [powered_of hi, hr, hwarm, beq_iff_eq.2 hq]; rfl

/-- Only a reset that a REGW asked for waits for its moment (R606). -/
theorem resetMoment_now {c : Nat} (h : c = 4 ∨ (c = 6 ∧ s.power.rstAsk = none)) : resetMoment s c = s := by
  unfold resetMoment
  split
  · next r t ha =>
    rcases h with rfl | ⟨-, hn⟩
    · rfl
    · rw [ha] at hn; contradiction
  · rfl

theorem resetMoment_asked {r t : Nat} (h : s.power.rstAsk = some (r, t)) :
    resetMoment s 6 = if cplAcked s r then s else advanceTo s (t + dtMs) := by
  simp only [resetMoment, h]
  cases cplAcked s r <;> rfl

/-- The driving instructions of Table 20-9 act while RST_N is low only (R624). -/
theorem isExtest_iff {k : Nat} : isExtest k = true ↔ 2 ≤ k ∧ k ≤ 4 := by
  simp [isExtest]; omega

theorem tapExec_on {k : Nat} (hi : s.power.input = .on) : tapExec s k =
    let ir := if k < 2 ∨ (2 ≤ k ∧ k ≤ 4 ∧ s.power.rstLow = true) then k else 5
    send { s with free := s.free + 1, power := { s.power with tapIr := ir } }
      (.tap (if ir = 0 then 0x12432B35 else if ir = 5 then 0 else Config.tapData s.free)) := by
  refine (if_neg (not_powered hi)).trans ?_
  simp only [Bool.or_eq_true, Bool.and_eq_true, isExtest_iff, decide_eq_true_eq, and_assoc]
  rfl

theorem boot_starts {r : BootResult} (hi : s.power.input = .on) (hr : s.power.rstLow = false) (hq : s.power.rstReq = none)
    (hb : s.power.bootStep < 5) : boot s r =
      let t := boot1 (countInsert (advanceTo s (s.dt + r.ms * dtMs))) r
      let t := boot2 { t with phiro := { t.phiro with coolId := r.cool } }
      if t.reeve.recovery || tripHolds t then t
      else
        let t := { t with power := { t.power with trip := false, thermtripN := true } }
        boot6 (boot5 (boot4 (boot3 t r) r)) r.mode r.inverted := by
  refine if_neg ?_
  rw [powered_of hi, hr, hq, decide_eq_false (Nat.not_le.mpr hb)]; decide

/-! ### The input and RST_N (R585–R587, R613) -/

theorem askReset_first {c : Nat} (h : s.power.rstReq = none) : askReset s c = { s with power := { s.power with rstReq := some c } } := by
  rw [askReset, h]

theorem removed_on (h : s.power.input = .on) : removed s = inputLost s .removed := by
  simp only [removed, h]
  rfl

theorem rstRises_low {ns : Nat} (h : s.power.rstLow = true) : rstRises s ns =
    let t := { s with dt := max s.dt (s.dt + 4 * ns) % 2 ^ 64
                      power := { s.power with rstLow := false, tapIr := if 2 ≤ s.power.tapIr ∧ s.power.tapIr ≤ 4 then 5 else s.power.tapIr } }
    if ns < 10000 then t else askReset t (if ns < 1000000000 then 4 else 3) := by
  refine (if_neg (by rw [h]; decide)).trans ?_
  simp only [isExtest_iff]
  rfl

end Powered

/-- Settles O60: every event by its lemma. -/
theorem powerResults : Obligations.PowerResults := by
  unfold Obligations.PowerResults
  intro s w
  refine ⟨fun hi => ⟨fun id v hid h => ?sensor, fun id hid => congrArg done (sensorSample_unavailable hi hid), fun code hf hl => ?cool,
      fun p hf => ?governor, fun p => ⟨fun h => congrArg done (if_pos ?clampBelow), fun h => congrArg done (powerClamp_above hi h)⟩,
      congrArg done (if_pos (powered_of hi)), congrArg done (if_pos (powered_of hi)), congrArg done (removed_on hi),
      congrArg done (if_pos (powered_of hi)), fun c hr hq => ?reset, fun k => congrArg done (tapExec_on hi), fun r hr hq hb => ?boot⟩,
    fun hi hq => congrArg done ((if_pos (beq_iff_eq.2 hi)).trans (askReset_first hq)), fun hi => congrArg done (if_pos ?present),
    fun hi hq => congrArg done ((if_pos (beq_iff_eq.2 hi)).trans (askReset_first hq)), fun ns hr => ?rise⟩
  case sensor =>
    intro old st t hv
    have hst : sensorState s id old.state v = st := sensorState_die h
    have hs := sensorSample_die hi hid h hv
    simp only [hst, old] at hs
    refine ⟨fun hk => congrArg done (hs.trans (if_neg ?_)), fun hne h0 => congrArg done ((hs.trans (if_pos ?_)).trans (thermalRecord_die h))⟩
    · rcases hk with hk | hk <;> simp [hk, old] 
    · have h12 : st = 1 ∨ st = 2 := by
        have hr := sensorState_die_cases (s := s) (old := old.state) (v := v) h
        rw [hst] at hr
        exact hr.resolve_left h0
      simpa using ⟨hne, h12⟩
  case cool =>
    intro f
    refine ⟨fun hc => congrArg done (coolSample_hit hi hf hl hc), fun hc => ?_⟩
    have hm := coolSample_miss hi hf hl hc
    refine ⟨fun hn => congrArg done (hm.trans (if_neg fun ⟨h0, hoff⟩ => ?_)), fun h0 hoff => congrArg done (hm.trans (if_pos ⟨h0, hoff⟩))⟩
    rcases hn with h | h
    · exact absurd h (Nat.pos_iff_ne_zero.1 h0)
    · exact absurd (hoff.symm.trans h) (by decide)
  case governor =>
    exact ⟨fun h => congrArg done (governorEval_high hi hf h), fun h hl => congrArg done (governorEval_holds hi hf h hl),
      fun h hs ho => congrArg done (governorEval_low hi hf h hs ho)⟩
  case clampBelow => rw [decide_eq_true h, Bool.or_true]
  case reset =>
    refine ⟨fun hc => congrArg done (coldBegins_asked hi hr hq hc), fun hc => ?_, fun r t hc ha => ?_⟩
    · have h46 : c = 4 ∨ c = 6 := hc.imp_right And.left
      exact congrArg done ((warmBegins_asked hi hr hq h46).trans (congrArg (warmState · c) (resetMoment_now hc)))
    · subst hc
      exact congrArg done ((warmBegins_asked hi hr hq (.inr rfl)).trans (congrArg (warmState · 6) (resetMoment_asked ha)))
  case boot =>
    have hb := boot_starts (r := r) hi hr hq hb
    refine ⟨fun h => congrArg done (hb.trans (if_pos (by rw [Bool.or_eq_true]; exact h))),
      fun h1 h2 => congrArg done (hb.trans (if_neg (by rw [h1, h2]; decide)))⟩
  case present => rw [Bool.or_eq_true, beq_iff_eq, beq_iff_eq]; exact hi
  case rise =>
    have hs := rstRises_low (ns := ns) hr
    exact ⟨fun h => congrArg done (hs.trans (if_pos h)),
      fun h hq => congrArg done ((hs.trans (if_neg (Nat.not_lt.mpr h))).trans (askReset_first hq))⟩

end Sys2Proof.Machine


/-! PROOFS. The sequencer (R48, R92, R271, R279, R285–R295): starts, ends, admissions, the watchdog, positions. -/

namespace Sys2Proof.Machine

/-! ### A key written twice -/

section Tables

variable {α : Type}

theorem tins_tins (t : Tbl α) (k : Nat) (v w : α) : tins (tins t k v) k w = tins t k w := by
  induction t with
  | nil => simp [tins]
  | cons e t ih =>
    obtain ⟨k', v'⟩ := e
    by_cases hlt : k < k'
    · simp [tins, hlt]
    · by_cases heq : k = k'
      · simp [tins, heq]
      · simp [tins, hlt, heq, ih]

theorem tdel_tins (t : Tbl α) (k : Nat) (v : α) : tdel (tins t k v) k = tdel t k := by
  induction t with
  | nil => simp [tins, tdel]
  | cons e t ih =>
    obtain ⟨k', v'⟩ := e
    by_cases hlt : k < k'
    · simp [tins, hlt, tdel]
    · by_cases heq : k = k'
      · simp [tins, heq, tdel]
      · have hne : ¬ k' = k := fun h => heq h.symm
        simpa [tins, hlt, heq, tdel, hne] using ih

/-- The second of two writes of a key stands, where the first listed it. -/
theorem tset_tset [DecidableEq α] {d v : α} (t : Tbl α) (k : Nat) (w : α) (hv : v ≠ d) : tset d (tset d t k v) k w = tset d t k w := by
  simp only [tset, if_neg hv, tins_tins, tdel_tins]

theorem tins_ne_nil (t : Tbl α) (k : Nat) (v : α) : tins t k v ≠ [] := by
  intro h
  have hf := tfind_tins_same t k v
  rw [h] at hf
  contradiction

end Tables

section Sequencer

variable {s : State} {p : Nat}

theorem polder_setPolder (s : State) (p : Nat) (v : Polder) : polder (setPolder s p v) p = v := tget_tset_same Polder.reset s.polders p v

/-- Two changes of a polder in one, where the first leaves it listed. -/
theorem modPolder_modPolder {f g : Polder → Polder} (hf : f (polder s p) ≠ Polder.reset) :
    modPolder (modPolder s p f) p g = modPolder s p (g ∘ f) := by
  simp only [modPolder, polder_setPolder]
  simp only [setPolder, tset_tset _ _ _ hf, Function.comp]

/-! ### The invocation that runs -/

theorem running_run {inv : Invocation} {rc : Recipe} (h : running s p = some (inv, rc)) : (polder s p).run = some inv := by
  unfold running at h
  split at h
  · contradiction
  · next v hv =>
    split at h
    · contradiction
    · obtain ⟨_, _, he⟩ := Option.map_eq_some_iff.1 h
      rw [hv, (Prod.mk.inj he).1]

theorem running_none (h : (polder s p).run = none) : running s p = none := by rw [running, h]

theorem running_congr {t : State} (hp : t.polders = s.polders) (hw : t.power = s.power) : running t p = running s p := by
  simp only [running, polder, recipeAt, halted, hp, hw] <;> rfl

/-! ### An invocation begins and ends -/

theorem applyIB_dt (s : State) (p : Nat) : (applyIB s p).dt = s.dt := by
  simp only [applyIB, applyShadow]
  split <;> rfl

/-- The start that a polder's next invocation takes begins it (R285, R286). -/
theorem beginInv_admitted {r : StartReq} {rc : Recipe} (h : recipeAt s p r.slot = some rc) : beginInv s p r =
    modPolder (applyIB s p) p fun q => { q with
      run := some { req := r, begun := false, dtStart := s.dt, descs := [], flags := 0, abort := false, err := none,
                    headSince := [(0, s.dt), (1, s.dt), (2, s.dt), (3, s.dt)], stalled := [], issueDt := [], words := [], reds := [], redDone := [] }
      sluices := tdrop q.sluices fun k => rc.internal.contains k } := by
  rw [beginInv, h]
  simp only [applyIB_dt]
  rfl

theorem beginNext_begins {r : StartReq} {po' : Polder} (hm : mayBegin s p = true)
    (h : (polder s p).armed = some r ∧ po' = { polder s p with armed := none } ∨
      (polder s p).armed = none ∧ ∃ l, (polder s p).pend = r :: l ∧ po' = { polder s p with pend := l }) :
    beginNext s p = beginInv (setPolder s p po') p r := by
  refine (if_pos hm).trans ?_
  rcases h with ⟨ha, rfl⟩ | ⟨ha, l, hl, rfl⟩
  · simp only [ha]
  · simp only [ha, hl]

theorem recipeAt_setPolder {po' : Polder} {slot : Nat} (h : po'.slots = (polder s p).slots) :
    recipeAt (setPolder s p po') p slot = tfind (polder s p).slots slot := by
  rw [recipeAt, polder_setPolder, h]

theorem finishInv_clean {inv : Invocation} (hr : (polder s p).run = some inv) (he : inv.err = none) : finishInv s p = invEnd s p false := by
  simp only [finishInv, hr, he]

theorem finishInv_error {inv : Invocation} {e : Record} (hr : (polder s p).run = some inv) (he : inv.err = some e) :
    finishInv s p = postInvError (invEnd s p true) p e := by
  simp only [finishInv, hr, he]

theorem endInv_done {inv : Invocation} {rc : Recipe} (hr : running s p = some (inv, rc)) (he : inv.err = none) (ha : inv.abort = false)
    (hd : ∀ j, j < rc.descCount → descDone inv j = true) : endInv s p = redRetry (invEnd s p false) := by
  have hall : (List.range rc.descCount).all (descDone inv) = true := List.all_eq_true.2 fun j hj => hd j (List.mem_range.1 hj)
  simp only [endInv, hr, he, ha, hall, Option.isSome_none, Bool.or_self, Bool.false_eq_true, if_false, if_true,
    finishInv_clean (running_run hr) he]

theorem endInv_failed {inv : Invocation} {rc : Recipe} {e : Record} (hr : running s p = some (inv, rc)) (he : inv.err = some e)
    (hw : ∀ x ∈ inv.descs, endWaits s p rc x = false) :
    endInv s p = redRetry (postInvError (invEnd (dropWaiters s p (isDescReq p)) p true) p e) := by
  have hany : inv.descs.any (endWaits s p rc) = false := by
    rw [List.any_eq_false]
    exact fun x hx => Bool.eq_false_iff.1 (hw x hx)
  have hf := finishInv_error (s := dropWaiters s p (isDescReq p)) (running_run hr) he
  simp only [endInv, hr, he, hany, hf, Option.isSome_some, Bool.true_or, Bool.false_eq_true, if_false, if_true]

theorem endInv_waits {inv : Invocation} {rc : Recipe} (hr : running s p = some (inv, rc)) (he : inv.err ≠ none)
    (hw : ∃ x ∈ inv.descs, endWaits s p rc x = true) : endInv s p = s := by
  have hany : inv.descs.any (endWaits s p rc) = true := List.any_eq_true.2 hw
  simp only [endInv, hr, Option.isSome_iff_ne_none.2 he, hany, Bool.true_or, if_true]

/-! ### QUIESCE ends (R289) -/

theorem quiesceDone_bound (hr : (polder s p).run = none) (hq : (polder s p).quies ≠ []) (hu : unbindWaits s = false) :
    quiesceDone s p =
      let t := (polder s p).pend.foldl (fun s r => postCancelled s p r) s
      let t := setMembers (applyAll (modPolder t p fun po => { po with pend := [], held := false, quies := [] }) p) p 1
      (polder s p).quies.foldl (fun s h => match h with | some h => complete s h 0x24 { status := 0x30 } | none => s) t := by
  have hg : ¬ ((polder s p).quies.isEmpty || (polder s p).run.isSome) = true := by
    rw [hr, Option.isSome_none, Bool.or_false, List.isEmpty_iff]; exact hq
  have he : ¬ (unbindWaits s && !unbindWaits (quiesceEnd s p)) = true := by rw [hu, Bool.false_and]; exact Bool.false_ne_true
  refine (if_neg he).trans ((if_neg hg).trans ?_)
  rfl

/-! ### An admission ends (R279) -/

theorem adEnd_ok {a : Admission} {h : CmdHdr} {t : State} {rc : Recipe} (hc : a.cmd = some h) (ha : admitImage s p a.slot a.va = (.ok rc, t)) :
    adEnd s p a = complete (setInt (modPolder t p fun q =>
      { q with slots := tins q.slots a.slot rc, adm := none, rcp := { RcpStatus.reset with code := 0x40 } }) p 4) h 0x20 { status := 0x40 } := by
  have hl : { polder t p with slots := tins (polder t p).slots a.slot rc } ≠ Polder.reset :=
    fun h => tins_ne_nil _ _ _ (congrArg Polder.slots h)
  simp only [adEnd, ha, hc]
  rw [modPolder_modPolder hl]
  rfl

theorem adEnd_refused {a : Admission} {h : CmdHdr} {t : State} {f : AdFail} (hc : a.cmd = some h) (ha : admitImage s p a.slot a.va = (.error f, t)) :
    adEnd s p a = complete (setInt (modPolder t p fun q => { q with adm := none, rcp := rcpOf f }) p 4) h 0x20 (adCpl f) := by
  simp only [adEnd, ha, hc]
  rfl

/-! ### The stall watchdog (R295) -/

theorem seqStall_measured {inv : Invocation} {rc : Recipe} {q i n : Nat} (hr : running s p = some (inv, rc)) (hq : queueHead s rc inv q = some i)
    (hn : (measuredWaits s p rc inv i).find? (fun n => !inv.stalled.contains (q * 8192 + n)) = some n)
    (hw : (polder s p).sec.wdogStall ≠ 0) (he : inv.err = none) (ha : inv.abort = false) :
    seqStall s p q =
      let t := advanceTo s (max (tget 0 inv.headSince q) (tget 0 inv.headSince (16 + n)) + (polder s p).sec.wdogStall * dtUs + 1)
      modRun (post t (mkRec t (lsDesc t p i 0 (leadOf t p)) 0x41 0 (leadOf t p) 0 (errBytes { extra := min n 0xFFF + q * 4096 }))) p fun v =>
        { v with stalled := insertNat v.stalled (q * 8192 + n) } := by
  simp only [seqStall, hr, hq, hn, hw, he, ha, Option.isSome_none, decide_false, Bool.or_self, Bool.false_eq_true, if_false, Nat.shiftLeft_eq]

/-! ### Positions (R291–R294) -/

theorem wakeAt_kept (s : State) (cd q : Nat) : (wakeAt s cd q).polders = s.polders ∧ (wakeAt s cd q).power = s.power := ⟨rfl, rfl⟩

theorem usersOf_congr {t : State} (hp : t.polders = s.polders) (hw : t.power = s.power) (r pos : Nat) (q : Invocation → Nat → Bool) :
    usersOf t p r pos q = usersOf s p r pos q := by
  simp only [usersOf, running_congr hp hw]

/-- Waking one member's position changes nothing of who uses the others: the members to wake may be chosen beforehand. -/
theorem foldl_wakeAt (pos : Nat) (l : List (Nat × Nat)) : ∀ t : State, t.polders = s.polders → t.power = s.power →
    l.foldl (fun s m => if usersOf s p m.2 pos ahead then wakeAt s m.1 pos else s) t =
      (l.filter fun m => usersOf s p m.2 pos ahead).foldl (fun t m => wakeAt t m.1 pos) t := by
  induction l with
  | nil => intros; rfl
  | cons m l ih =>
    intro t hp hw
    have hu := usersOf_congr (p := p) hp hw m.2 pos ahead
    by_cases h : usersOf s p m.2 pos ahead = true
    · rw [List.filter_cons_of_pos (p := fun m : Nat × Nat => usersOf s p m.2 pos ahead) h, List.foldl_cons, List.foldl_cons, if_pos (hu.trans h)]
      exact ih _ hp hw
    · rw [List.filter_cons_of_neg (p := fun m : Nat × Nat => usersOf s p m.2 pos ahead) h, List.foldl_cons, if_neg (by rw [hu]; exact h)]
      exact ih _ hp hw

theorem wakePos_named {pos : Nat} (hn : named s p = true) (hpos : pos < 16) : wakePos s p pos =
    ((members s p).zipIdx.filter fun m => usersOf s p m.2 pos ahead).foldl (fun t m => wakeAt t m.1 pos) s :=
  (if_pos (by rw [hn, decide_eq_true hpos]; rfl)).trans (foldl_wakeAt pos _ s rfl rfl)

theorem wakeAt_pos (s : State) (cd pos : Nat) : tget .off (cdAt (wakeAt s cd pos) cd).pos pos =
    match tget .off (cdAt s cd).pos pos with | .off => .wakingOff | .sleep => .wakingSleep | st => st := by
  rw [wakeAt, cdAt_modCd_same]
  show tget .off (match tget .off (cdAt s cd).pos pos with
    | .off => tset .off (cdAt s cd).pos pos .wakingOff
    | .sleep => tset .off (cdAt s cd).pos pos .wakingSleep
    | _ => (cdAt s cd).pos) pos = _
  cases h : tget .off (cdAt s cd).pos pos <;> simp [h]

theorem modPos_congr {pos : Nat} {q q' : Nat → Bool} {f g : PosState → PosState} (hq : q = q') (hf : f = g) :
    modPos s p pos q f = modPos s p pos q' g := by rw [hq, hf]

theorem wakeDone_named {pos : Nat} (hn : named s p = true) (hpos : pos < 16) : wakeDone s p pos =
    wakeGo (modPos s p pos (fun _ => true) fun st => if st = .wakingOff ∨ st = .wakingSleep then .ready else st) p := by
  refine (if_pos (by rw [hn, decide_eq_true hpos]; rfl)).trans (congrArg (wakeGo · p) (modPos_congr rfl ?_))
  funext st
  cases st <;> rfl

section Sleep

variable {pos : Nat} (hn : named s p = true) (hpos : pos < 16) (hg : (polder s p).groups = [])

/-- Does no descriptor in execution use the position on a member. -/
def posIdle (s : State) (p pos r : Nat) : Bool := !usersOf s p r pos fun inv i => (descState inv i).any inExec

include hn hpos hg

theorem sleepPos_guard : ¬ (!named s p || decide (16 ≤ pos) || !(polder s p).groups.isEmpty) = true := by
  rw [hn, decide_eq_false (Nat.not_le.mpr hpos), hg]; decide

theorem sleepPos_sleep : sleepPos s p pos false = modPos s p pos (posIdle s p pos) fun st => if st = .ready then .sleep else st := by
  refine (if_neg (sleepPos_guard hn hpos hg)).trans ((if_neg Bool.false_ne_true).trans (modPos_congr rfl ?_))
  funext st
  cases st <;> rfl

theorem sleepPos_off : sleepPos s p pos true = modPos s p pos
    (fun r => posIdle s p pos r && match running s p with
      | none => posClear s p r pos
      | some (_, rc) => !(usersOf s p r pos fun inv i => !issued inv i) && !rc.keepMask.getLsbD pos)
    fun st => if st = .ready ∨ st = .sleep then .off else st := by
  refine (if_neg (sleepPos_guard hn hpos hg)).trans ((if_pos rfl).trans (modPos_congr ?_ ?_))
  · rfl
  · funext st
    cases st <;> rfl

theorem sleepPos_off_stopped (hr : (polder s p).run = none) : sleepPos s p pos true =
    modPos s p pos (posClear s p · pos) fun st => if st = .ready ∨ st = .sleep then .off else st := by
  have hu (r : Nat) : posIdle s p pos r = true := by simp only [posIdle, usersOf, running_none hr]; rfl
  refine (sleepPos_off hn hpos hg).trans (modPos_congr ?_ rfl)
  funext r
  rw [running_none hr, hu, Bool.true_and]

theorem sleepPos_off_running {inv : Invocation} {rc : Recipe} (hr : running s p = some (inv, rc)) : sleepPos s p pos true = modPos s p pos
    (fun r => posIdle s p pos r && (!(usersOf s p r pos fun inv i => !issued inv i) && !rc.keepMask.getLsbD pos))
    fun st => if st = .ready ∨ st = .sleep then .off else st := by
  refine (sleepPos_off hn hpos hg).trans (modPos_congr ?_ rfl)
  funext r
  rw [hr]

end Sleep

end Sequencer

/-- Settles O52: each event of the sequencer by its lemma. -/
theorem sequencerResults : Obligations.SequencerResults := by
  unfold Obligations.SequencerResults
  intro s p po
  refine ⟨fun r rc po' hm hs hr => ?start, fun inv rc hr => ⟨fun he ha hd => congrArg done (endInv_done hr he ha hd),
      fun e he hw => congrArg done (endInv_failed hr he hw), fun he hw => congrArg done (endInv_waits hr he hw)⟩,
    fun hr hq hu => congrArg done (quiesceDone_bound hr hq hu), fun h slot va t ha => ?admission,
    fun inv rc q i n hr hq hn hw he ha => congrArg done (seqStall_measured hr hq hn hw he ha), fun pos hn hpos => ?positions⟩
  case start =>
    have hslots : po'.slots = po.slots := by rcases hr with ⟨-, rfl⟩ | ⟨-, l, -, rfl⟩ <;> rfl
    exact congrArg done ((beginNext_begins hm hr).trans (beginInv_admitted ((recipeAt_setPolder hslots).trans hs)))
  case admission =>
    have hx : exec (.admission p) s = done (adEnd s p { cmd := some h, slot := slot, va := va }) := by
      show done (match (polder s p).adm with | some a => adEnd s p a | none => s) = _
      rw [ha]
    exact ⟨fun rc hi => hx.trans (congrArg done (adEnd_ok rfl hi)), fun f hi => hx.trans (congrArg done (adEnd_refused rfl hi))⟩
  case positions =>
    exact ⟨congrArg done (wakePos_named hn hpos), fun cd => wakeAt_pos s cd pos, congrArg done (wakeDone_named hn hpos),
      fun hg => ⟨congrArg done (sleepPos_sleep hn hpos hg), fun hr => congrArg done (sleepPos_off_stopped hn hpos hg hr),
        fun inv rc hr => congrArg done (sleepPos_off_running hn hpos hg hr)⟩⟩

end Sys2Proof.Machine


/-! PROOFS. Descriptors (R93–R106, R252–R259): how one issues, goes on after its wake, and completes, whatever its kind. -/

namespace Sys2Proof.Machine

section Descriptors

variable {s : State} {p i : Nat} {inv : Invocation} {rc : Recipe}

/-- What a descriptor that performed leaves (R98): its flags ORed into the invocation's, and it is complete, or in execution. -/
def descEnds (p i : Nat) (t : State) (r : DRes) : State :=
  let u := dropWaiterAll (modRun t p fun v => { v with flags := v.flags ||| BitVec.ofNat 5 r.fl }) (isDesc p i)
  if r.idle then completeDesc u p i else setDesc u p i .inExec

theorem runBody_ok {body : DCx → DM DRes} {c : DCx} {s0 t : State} {r : DRes} (h : body c s = (.ok r, t)) :
    runBody p i body c s0 s = descEnds p i t r := by
  rw [runBody, h]
  rfl

theorem not_issued_of_mayIssue {d : List Byte} (h : mayIssue s p rc inv i d = true) : issued inv i = false := by
  simp only [mayIssue, Bool.and_eq_true, Bool.not_eq_true'] at h
  obtain ⟨⟨⟨⟨⟨⟨⟨⟨-, hi⟩, -⟩, -⟩, -⟩, -⟩, -⟩, -⟩, -⟩ := h
  exact hi

/-! ### Issue -/

section Issue

variable {isRow : List Byte → Bool} {body : DCx → DM DRes} {c : DCx} {t1 : State} (hr : running s p = some (inv, rc))
  (hk : isRow (descAt s rc i) = true) (hm : mayIssue s p rc inv i (descAt s rc i) = true)
  (ho : openDesc descWords p i rc inv.req.pb (satisfy s p i rc inv (descAt s rc i)) = (.ok c, t1))

include hr hk hm ho

/-- A descriptor that may issue, once its words are read: it begins, and its body runs or it waits for its positions (R276, R294). -/
theorem issueDesc_opened : issueDesc p i isRow body s =
    let b := beginIssue t1 p i inv c.d
    if posReady b p rc i then runBody p i body c s b else setDesc (wakeUsed b p rc i) p i .waitWake := by
  simp only [issueDesc, issueWith, hr, hk, hm, not_issued_of_mayIssue hm, Bool.not_true, Bool.false_eq_true, if_false, if_true, performDesc, ho]

theorem issueDesc_performs {t : State} {r : DRes} (hp : posReady (beginIssue t1 p i inv c.d) p rc i = true)
    (hb : body c (beginIssue t1 p i inv c.d) = (.ok r, t)) : issueDesc p i isRow body s = descEnds p i t r :=
  (issueDesc_opened hr hk hm ho).trans ((if_pos hp).trans (runBody_ok hb))

theorem issueDesc_waits (hp : posReady (beginIssue t1 p i inv c.d) p rc i = false) :
    issueDesc p i isRow body s = setDesc (wakeUsed (beginIssue t1 p i inv c.d) p rc i) p i .waitWake :=
  (issueDesc_opened hr hk hm ho).trans (if_neg (Bool.eq_false_iff.1 hp))

end Issue

/-- A descriptor that waited for its positions performs once they are Ready (R294). -/
theorem issueDesc_woken {isRow : List Byte → Bool} {body : DCx → DM DRes} {c : DCx} {t1 t : State} {r : DRes} (hr : running s p = some (inv, rc))
    (hk : isRow (descAt s rc i) = true) (hw : descState inv i = some .waitWake)
    (hq : queueFrozen (polder s p) (queueOf (dKind (descAt s rc i))) = false) (ha : atFault s p i = false) (hp : posReady s p rc i = true)
    (ho : dOpen p i rc inv.req.pb s = (.ok c, t1)) (hb : body c t1 = (.ok r, t)) : issueDesc p i isRow body s = descEnds p i t r := by
  have hi : issued inv i = true := by rw [issued, hw]; rfl
  have hgo : goOn p i body rc inv s = runBody p i body c s t1 := by
    refine (if_neg ?_).trans ((if_neg ?_).trans (by rw [ho]))
    · rw [hw, ha, hq]; decide
    · rw [hp]; decide
  simp only [issueDesc, issueWith, hr, hk, hi, Bool.not_true, Bool.false_eq_true, if_false, if_true]
  exact hgo.trans (runBody_ok hb)

/-! ### Completion -/

theorem running_setDesc {st : DescState} (hr : running s p = some (inv, rc)) :
    running (setDesc s p i st) p = some ({ inv with descs := tins inv.descs i st }, rc) := by
  have hrun := running_run hr
  have hpo : polder (setDesc s p i st) p = { polder s p with run := some { inv with descs := tins inv.descs i st } } := by
    rw [setDesc, modRun, modPolder, polder_setPolder, hrun]; rfl
  have hh : halted (setDesc s p i st) = halted s := rfl
  simp only [running, hrun] at hr
  simp only [running, recipeAt, hpo, hh]
  split at hr
  · contradiction
  · next hn =>
    obtain ⟨rc', hrc, he⟩ := Option.map_eq_some_iff.1 hr
    rw [if_neg hn]
    rw [recipeAt] at hrc
    rw [hrc, ← (Prod.mk.inj he).2]
    rfl

/-- The end of a descriptor's last tag, update or window completes it (R98), and the sluices that it was the last to set are set (R271). -/
theorem completeDesc_running (hr : running s p = some (inv, rc)) : completeDesc s p i =
    modPolder s p fun po => { po with
      run := some { inv with descs := tins inv.descs i .complete }
      sluices := ((dSets (descAt s rc i)).filter (settersDone s rc { inv with descs := tins inv.descs i .complete })).foldl
        (fun t n => tset false t n true) po.sluices } := by
  have hrun := running_run hr
  have hl : { polder s p with run := (polder s p).run.map fun v => { v with descs := tins v.descs i .complete } } ≠ Polder.reset := by
    intro h
    have := congrArg Polder.run h
    rw [hrun] at this
    contradiction
  simp only [completeDesc, running_setDesc hr]
  refine (modPolder_modPolder (s := s) (f := fun po => { po with run := po.run.map fun v => { v with descs := tins v.descs i .complete } }) hl).trans ?_
  rw [modPolder, modPolder, Function.comp, hrun]
  rfl

theorem descriptorComplete_completes (hr : running s p = some (inv, rc)) (hs : descState inv i = some .inExec) (hp : descPending s p i = false) :
    exec (.descriptorComplete p i) s = done (completeDesc s p i) := by
  show done (match running s p with
    | some (inv, _) => if descState inv i = some .inExec && !descPending s p i then completeDesc s p i else s
    | none => s) = _
  simp only [hr, hs, hp, decide_true, Bool.not_false, Bool.and_self, if_true]

end Descriptors

/-- Settles O51: every row of a kind is `issueDesc` with that kind's body. -/
theorem descriptorResults : Obligations.DescriptorResults := by
  unfold Obligations.DescriptorResults
  intro s p i inv rc hr d ends
  refine ⟨fun hm e he hk c t1 t r ho => ?issues, fun c t1 t r hw hk hq ha hp ho hb => congrArg done (issueDesc_woken hr hk hw hq ha hp ho hb),
    fun hs hp => (descriptorComplete_completes hr hs hp).trans (congrArg done (completeDesc_running hr))⟩
  case issues =>
    obtain ⟨row, hx, hrow⟩ : ∃ row, exec e.1 s = done (issueDesc p i row e.2.2 s) ∧ row d = e.2.1 := by
      simp only [List.mem_cons, List.not_mem_nil, or_false] at he
      rcases he with rfl | rfl | rfl | rfl | rfl | rfl | rfl | rfl | rfl | rfl | rfl | rfl | rfl | rfl | rfl | rfl | rfl | rfl | rfl | rfl | rfl | rfl
      all_goals exact ⟨_, rfl, rfl⟩
    have hk := hrow.trans hk
    exact ⟨fun hp hb => hx.trans (congrArg done (issueDesc_performs hr hk hm ho hp hb)),
      fun hp => hx.trans (congrArg done (issueDesc_waits hr hk hm ho hp))⟩

end Sys2Proof.Machine


/-! PROOFS. RFE (R386): why the statement fails where a table of the state is not in its canonical form. The frame is read after the core has left
its line for tags, and the reading first drains a store. Draining can end the polder's invocation, whose descriptors then leave every line; an
owner that this leaves as at reset is no longer listed, and an older entry of the same owner, in which the core still stands in line, shows. -/

namespace Sys2Proof.Machine

section LineTwice

/-- A requester that stands in line for a tag. -/
def inLine (r : Requester) : Waiter := { kind := 0, dest := 0, addr := 0, ls := lsDevice 0, req := r, first := false, granted := true }

/-- An invocation that has issued nothing. -/
def freshInv : Invocation :=
  { req := { slot := 0, pb := 0, host := false, cookie := 0 }, begun := false, dtStart := 0, descs := [], flags := 0, abort := false, err := none,
    headSince := [], stalled := [], issueDt := [], words := [], reds := [], redDone := [] }

/-- Polder 0's core is at an RFE whose frame a buffered store overlaps, behind a store to a near-cache line with an error in its state bits; the
tag owner of CD 0 is listed twice. -/
def lineTwice : State :=
  { State.reset with
    phiro := { State.reset.phiro with loaded := true, tags := [] }
    cds := [(0, { Cd.reset with
      polder := 0
      nc := { Nc.reset with lines := [{ atom := 0, way := 0, victim := false, dirty := true, perr := 2, stale := [] }] } })]
    polders := [(0, { Polder.reset with assigned := true, run := some freshInv, sec := { PolderSec.none with lead := 0, members := 1 } })]
    cores := [(0, { Core.reset with
      started := true, regs := [(31, 0xFFFFFFFFFFE0)], shadow := [true], estatus := 1
      sb := [{ va := 0, pa := 0, local_ := false, data := [1] }, { va := 0xFFFFFFFFFFE0, pa := 0xFFE0, local_ := true, data := [1] }] })]
    fabric := { State.reset.fabric with
      owners := [(0, { Owner.reset with waiters := [inLine (.descriptor 0 0)] }), (0, { Owner.reset with waiters := [inLine (.core 0)] })] } }

/-- The frame of the RFE, read once the core has left its line. -/
def lineTwiceFrame : Option (List Byte) × State := readFrame (leaveLine lineTwice 0) 0 (gpr (core lineTwice 0) 31).toNat

/-- The tag owners after a command. -/
def ownersAfter : Result → Tbl Owner
  | .next s => s.fabric.owners
  | _ => []

theorem lineTwice_fetched : Fetched lineTwice 0 lineTwice := ⟨by decide +kernel, rfl⟩

theorem lineTwiceFrame_read : lineTwiceFrame.1.isSome = true := by decide +kernel

/-- The RFE leaves the core in line. -/
theorem rfe_lineTwice_owners : ownersAfter (exec (.rfe 0) lineTwice) = [(0, { Owner.reset with waiters := [inLine (.core 0)] })] := by
  decide +kernel

/-- A state in which the core has left its line lists no owner, whatever the cores hold. -/
theorem settle_lineTwice_owners (cores : Tbl Core) :
    ownersAfter (.next (settle { leaveLine lineTwiceFrame.2 0 with cores := cores })) = [] := rfl

end LineTwice

/-- Refutes O35 by `lineTwice`, a state whose table of tag owners lists CD 0 twice: behind the RFE the core stands in line for a tag, which the
statement denies. It has no premise that the tables of the state are in their canonical form. -/
theorem not_returnResults : ¬ Obligations.ReturnResults := by
  unfold Obligations.ReturnResults
  intro h
  obtain ⟨d, hd⟩ := Option.isSome_iff_exists.1 lineTwiceFrame_read
  have hread : readFrame (leaveLine lineTwice 0) 0 (gpr (core lineTwice 0) 31).toNat = (some d, lineTwiceFrame.2) := Prod.ext hd rfl
  obtain ⟨hnormal, -⟩ := h lineTwice lineTwice 0 lineTwice_fetched (by decide +kernel)
  obtain ⟨u, hexec, hu, -, -⟩ := hnormal lineTwiceFrame.2 d (by decide +kernel) (by decide +kernel) hread
  have howners := congrArg ownersAfter hexec
  rw [hu, settle_lineTwice_owners, rfe_lineTwice_owners] at howners
  exact absurd howners (List.cons_ne_nil _ _)

end Sys2Proof.Machine
